-- ==== Sys2Proof/Word.lean ====
section
/-! DEFINITION. The units of the NB-2410's quantities.

Counts, lengths, times and ids are numbers in the manual (00 section 4, Units), so they are `Nat`; positions along the
web are `Int`, since a planned point may lie before the count 0 (R12, R85). Bits appear only in the bytes of frames. -/

namespace Sys2Proof

/-- One byte of a frame (R174). -/
abbrev Byte := BitVec 8

/-- A position along the web in wc: a knife position (R10) or a point on a stream counter (R12). -/
abbrev Pos := Int

end Sys2Proof
end

