-- ==== Sys2Proof/Syntax.lean ====
section
/-! DEFINITION. The commands of the NB-2410: one constructor of `Instr` for each row of spec/opcode_table.json.

A request command carries the port it arrived on, its tag and the values of its payload as the bytes gave them (R208),
so that a code or figure outside its range can be sent and is refused by the rule that owns it. -/

namespace Sys2Proof

/-- The three encoder channels (R2). -/
inductive Channel where
  | main | lane1 | lane2
  deriving DecidableEq, Repr

/-- The two lanes (00 section 2.1). -/
inductive Lane where
  | one | two
  deriving DecidableEq, Repr

/-- The five paper streams (00 section 2.1). -/
inductive Stream where
  | s1 | s2 | s3 | s4 | s5
  deriving DecidableEq, Repr

/-- The two arms of a reel stand (R97). -/
inductive Arm where
  | a | b
  deriving DecidableEq, Repr

/-- The two slitter-scorer stations (R128). -/
inductive Station where
  | a | b
  deriving DecidableEq, Repr

/-- The two kinds of tool of a station (R129). -/
inductive ToolKind where
  | slit | score
  deriving DecidableEq, Repr

/-- The three station ports (R174). -/
inductive Port where
  | planning | wet | dry
  deriving DecidableEq, Repr

/-- The input levels found when the reset input is released (R4, R43, R194). -/
structure ReleaseLevels where
  mainA : Bool
  mainB : Bool
  lane1A : Bool
  lane1B : Bool
  lane2A : Bool
  lane2B : Bool
  seam1 : Bool
  seam2 : Bool
  selectPlanning : Bool
  selectWet : Bool
  selectDry : Bool
  deriving DecidableEq, Repr

/-- The levels of one arm that a read of its expander returns (R99). -/
structure ArmLevels where
  present : Bool
  latched : Bool
  button : Bool
  driveGood : Bool
  deriving DecidableEq, Repr

/-- What a read of an expander returns (R99). -/
structure StandLevels where
  armA : ArmLevels
  armB : ArmLevels
  splicerReady : Bool
  deriving DecidableEq, Repr

/-- A layout as a request carries it: two counts and the positions, of which those past a count are ignored (R208). -/
structure RawLayout where
  slitCount : Nat
  scoreCount : Nat
  slits : List Nat
  scores : List Nat
  deriving DecidableEq, Repr

/-- The order figures of Add Order (R45, R208). -/
structure RawOrder where
  id : Nat
  grade1 : Nat
  grade2 : Nat
  grade3 : Nat
  grade4 : Nat
  grade5 : Nat
  sf : Nat
  t : Nat
  a : Nat
  m : Nat
  q : Nat
  layout : RawLayout
  deriving DecidableEq, Repr

/-- The payload of Amend Order: the id, which figures are carried, and the figures (R51, R208). -/
structure RawAmend where
  id : Nat
  hasT : Bool
  hasA : Bool
  hasM : Bool
  hasQ : Bool
  hasLayout : Bool
  t : Nat
  a : Nat
  m : Nat
  q : Nat
  layout : RawLayout
  deriving DecidableEq, Repr

/-- The fields of a stream section (R195, R208). -/
structure RawStreamSection where
  active : Nat
  splicerDistance : Nat
  commitLead : Nat
  spliceMaxSpeed : Nat
  seamLead : Nat
  seamTrail : Nat
  fastExtra : Nat
  runoutReserve : Nat
  butt : Nat
  doneWindow : Nat
  driveMode : Nat
  deriving DecidableEq, Repr

/-- The fields of a lane section (R195, R208). -/
structure RawLaneSection where
  kBase : Int
  dDet : Nat
  wConfirm : Nat
  maxCorrection : Nat
  preQuiet : Nat
  minActive : Nat
  maxGap : Nat
  postQuiet : Nat
  unsyncedExtra : Nat
  rethreadLength : Nat
  deriving DecidableEq, Repr

/-- The fields of the line section (R195, R208). -/
structure RawLineSection where
  g : Nat
  wg : Nat
  h : Nat
  swapLead : Nat
  execTolerance : Nat
  stopTime : Nat
  weightMain : Nat
  weightLane1 : Nat
  weightLane2 : Nat
  filterMain : Nat
  filterLane1 : Nat
  filterLane2 : Nat
  deriving DecidableEq, Repr

/-- The fields of the slitter section (R195, R208). -/
structure RawSlitterSection where
  dA : Nat
  dB : Nat
  minSlitSpacing : Nat
  minScoreSpacing : Nat
  placeTolerance : Nat
  placeAttempts : Nat
  deriving DecidableEq, Repr

/-- The fields of a station entry section (R195, R208). -/
structure RawEntrySection where
  enable : Nat
  kind : Nat
  dNear : Nat
  dFar : Nat
  changeLead : Nat
  stopTolerance : Nat
  deriving DecidableEq, Repr

/-- The payload of Load Profile Section: the section named and its fields (R196, R206, R208). -/
inductive SectionLoad where
  | stream (number : Nat) (f : RawStreamSection)
  | lane (number : Nat) (f : RawLaneSection)
  | line (f : RawLineSection)
  | slitter (f : RawSlitterSection)
  | entry (number : Nat) (f : RawEntrySection)
  | unknown (code : Nat)
  deriving DecidableEq, Repr

/-- The commands, one constructor for each row of spec/opcode_table.json. -/
inductive Instr where
  | resetAssert
  | resetRelease (levels : ReleaseLevels)
  | forwardPulse (ch : Channel)
  | reversePulse (ch : Channel)
  | tenMsUpdate
  | entryIntoAStop
  | takeStopZone (entry : Nat)
  | seamInputChange (lane : Lane) (level : Bool)
  | standPoll
  | standInterruptChange (asserted : Bool)
  | standTransactionStart
  | standRead (levels : StandLevels)
  | standWrite
  | standAttemptFailed
  | driveGoodDelay (stream : Stream) (arm : Arm)
  | firePulseEnd (stream : Stream)
  | donePulse (stream : Stream)
  | selectStart (port : Port)
  | selectEnd (port : Port)
  | addOrder (port : Port) (tag : Byte) (figures : RawOrder)
  | amendOrder (port : Port) (tag : Byte) (amend : RawAmend)
  | cancelOrder (port : Port) (tag : Byte) (id : Nat)
  | discardOrder (port : Port) (tag : Byte) (id : Nat)
  | readBook (port : Port) (tag : Byte) (first : Nat)
  | readPlan (port : Port) (tag : Byte)
  | loadProfileSection (port : Port) (tag : Byte) (load : SectionLoad)
  | releaseLine (port : Port) (tag : Byte)
  | clearLine (port : Port) (tag : Byte)
  | declareReel (port : Port) (tag : Byte) (stream arm grade length : Nat)
  | withdrawReel (port : Port) (tag : Byte) (stream arm : Nat)
  | manualSplice (port : Port) (tag : Byte) (stream : Nat)
  | webBreak (port : Port) (tag : Byte) (stream : Nat)
  | webRestored (port : Port) (tag : Byte) (stream arm length : Nat)
  | streamRecover (port : Port) (tag : Byte) (stream arm : Nat)
  | laneSync (port : Port) (tag : Byte) (lane : Nat) (offset : Int)
  | readStationChanges (port : Port) (tag : Byte)
  | takeActions (port : Port) (tag : Byte)
  | actionDone (port : Port) (tag : Byte) (sequence measured : Nat)
  | qualityReject (port : Port) (tag : Byte) (first last : Nat)
  | takeToolMoves (port : Port) (tag : Byte)
  | toolPlaced (port : Port) (tag : Byte) (station kind number measured : Nat)
  | toolOut (port : Port) (tag : Byte) (station kind number : Nat)
  | toolIn (port : Port) (tag : Byte) (station kind number : Nat)
  | readStatus (port : Port) (tag : Byte)
  | readMap (port : Port) (tag : Byte) (sectionCode first : Nat)
  | readOrder (port : Port) (tag : Byte) (id : Nat)
  | readStream (port : Port) (tag : Byte) (stream : Nat)
  | readStations (port : Port) (tag : Byte)
  | setNoticeEnables (port : Port) (tag : Byte) (classes : BitVec 16)
  | clearNotices (port : Port) (tag : Byte) (classes : BitVec 16)
  | pauseNotices (port : Port) (tag : Byte)
  | resumeNotices (port : Port) (tag : Byte)
  | restartPort (port : Port) (tag : Byte)
  | bothLevelsChange (ch : Channel)
  | byteClocked (port : Port) (byte : Byte)
  deriving DecidableEq, Repr

end Sys2Proof
end

