-- ==== Sys2Proof/WellFormed.lean ====
section
/-! DEFINITION. Which commands the bytes of a frame or the part's own events can spell.

A figure must fit the width R208 gives its field; a list of positions has the field's eight or ten places. A well-formed
command may still carry a value outside its rule's range: the rule refuses it. -/

namespace Sys2Proof

/-- A value that fits `n` bytes (R207). -/
def fits (n v : Nat) : Bool := v < 256 ^ n

/-- A signed offset that fits six bytes in two's complement (R207). -/
def fitsSigned (v : Int) : Bool := -(2 ^ 47) ≤ v && v < 2 ^ 47

def RawLayout.wellFormed (l : RawLayout) : Bool :=
  fits 1 l.slitCount && fits 1 l.scoreCount &&
  l.slits.length == 8 && l.scores.length == 10 && l.slits.all (fits 2) && l.scores.all (fits 2)

def RawOrder.wellFormed (o : RawOrder) : Bool :=
  fits 4 o.id && [o.grade1, o.grade2, o.grade3, o.grade4, o.grade5].all (fits 1) && fits 4 o.sf &&
  fits 4 o.t && fits 2 o.a && fits 1 o.m && fits 2 o.q && o.layout.wellFormed

def RawAmend.wellFormed (o : RawAmend) : Bool :=
  fits 4 o.id && fits 4 o.t && fits 2 o.a && fits 1 o.m && fits 2 o.q && o.layout.wellFormed

def RawStreamSection.wellFormed (f : RawStreamSection) : Bool :=
  fits 1 f.active && [f.splicerDistance, f.commitLead, f.spliceMaxSpeed].all (fits 4) &&
  [f.seamLead, f.seamTrail, f.fastExtra].all (fits 2) &&
  [f.runoutReserve, f.butt, f.doneWindow].all (fits 4) && fits 1 f.driveMode

def RawLaneSection.wellFormed (f : RawLaneSection) : Bool :=
  fitsSigned f.kBase && fits 4 f.dDet &&
  [f.wConfirm, f.maxCorrection, f.preQuiet, f.minActive, f.maxGap, f.postQuiet].all (fits 2) &&
  fits 4 f.unsyncedExtra && fits 4 f.rethreadLength

def RawLineSection.wellFormed (f : RawLineSection) : Bool :=
  [f.g, f.wg, f.h, f.swapLead, f.execTolerance].all (fits 4) &&
  [f.stopTime, f.weightMain, f.weightLane1, f.weightLane2].all (fits 2) &&
  [f.filterMain, f.filterLane1, f.filterLane2].all (fits 1)

def RawSlitterSection.wellFormed (f : RawSlitterSection) : Bool :=
  fits 4 f.dA && fits 4 f.dB && [f.minSlitSpacing, f.minScoreSpacing, f.placeTolerance].all (fits 2) &&
  fits 1 f.placeAttempts

def RawEntrySection.wellFormed (f : RawEntrySection) : Bool :=
  fits 1 f.enable && fits 1 f.kind && [f.dNear, f.dFar, f.changeLead].all (fits 4) && fits 2 f.stopTolerance

/-- Section codes 1 to 21 name the sections; every other byte names none (R206). -/
def SectionLoad.wellFormed : SectionLoad → Bool
  | .stream n f => 1 ≤ n && n ≤ 5 && f.wellFormed
  | .lane n f => 1 ≤ n && n ≤ 2 && f.wellFormed
  | .line f => f.wellFormed
  | .slitter f => f.wellFormed
  | .entry n f => 1 ≤ n && n ≤ 12 && f.wellFormed
  | .unknown c => fits 1 c && (c == 0 || 21 < c)

def Instr.wellFormed : Instr → Bool
  | .resetAssert => true
  | .resetRelease _ => true
  | .forwardPulse _ => true
  | .reversePulse _ => true
  | .tenMsUpdate => true
  | .entryIntoAStop => true
  | .takeStopZone n => 1 ≤ n && n ≤ 12
  | .seamInputChange _ _ => true
  | .standPoll => true
  | .standInterruptChange _ => true
  | .standTransactionStart => true
  | .standRead _ => true
  | .standWrite => true
  | .standAttemptFailed => true
  | .driveGoodDelay _ _ => true
  | .firePulseEnd _ => true
  | .donePulse _ => true
  | .selectStart _ => true
  | .selectEnd _ => true
  | .addOrder _ _ f => f.wellFormed
  | .amendOrder _ _ f => f.wellFormed
  | .cancelOrder _ _ id => fits 4 id
  | .discardOrder _ _ id => fits 4 id
  | .readBook _ _ i => fits 1 i
  | .readPlan _ _ => true
  | .loadProfileSection _ _ l => l.wellFormed
  | .releaseLine _ _ => true
  | .clearLine _ _ => true
  | .declareReel _ _ s a g l => fits 1 s && fits 1 a && fits 1 g && fits 4 l
  | .withdrawReel _ _ s a => fits 1 s && fits 1 a
  | .manualSplice _ _ s => fits 1 s
  | .webBreak _ _ s => fits 1 s
  | .webRestored _ _ s a l => fits 1 s && fits 1 a && fits 4 l
  | .streamRecover _ _ s a => fits 1 s && fits 1 a
  | .laneSync _ _ l k => fits 1 l && fitsSigned k
  | .readStationChanges _ _ => true
  | .takeActions _ _ => true
  | .actionDone _ _ q m => fits 4 q && fits 6 m
  | .qualityReject _ _ x y => fits 6 x && fits 6 y
  | .takeToolMoves _ _ => true
  | .toolPlaced _ _ s k n m => fits 1 s && fits 1 k && fits 1 n && fits 2 m
  | .toolOut _ _ s k n => fits 1 s && fits 1 k && fits 1 n
  | .toolIn _ _ s k n => fits 1 s && fits 1 k && fits 1 n
  | .readStatus _ _ => true
  | .readMap _ _ c i => fits 1 c && fits 1 i
  | .readOrder _ _ id => fits 4 id
  | .readStream _ _ s => fits 1 s
  | .readStations _ _ => true
  | .setNoticeEnables _ _ _ => true
  | .clearNotices _ _ _ => true
  | .pauseNotices _ _ => true
  | .resumeNotices _ _ => true
  | .restartPort _ _ => true
  | .bothLevelsChange _ => true
  | .byteClocked _ _ => true

end Sys2Proof
end

