-- ==== Sys2Proof/Decode.lean ====
section
/-! DEFINITION. The commands that a word spells.

No row of spec/opcode_table.json gives bits ("fields" is empty in every row and none has "fixed"), so no word spells a
command. The bytes of a request frame are read by `Machine/Parse.lean`, at the end of a select period (R176). -/

namespace Sys2Proof

/-- The command spelled by a word of `nbits` bits: none, since no row of the table gives bits. -/
def decodeTableWord (_nbits _w : Nat) : Option Instr := none

end Sys2Proof
end

