-- ==== Sys2Proof/Config.lean ====
section
/-! DEFINITION. The fixed capacities and limits the manual gives, and the values it leaves open. -/

namespace Sys2Proof.Config

/-- The limit of every counter, 2^40 - 1 wc (R2, R7). -/
def counterMax : Nat := 1099511627775

/-- The limit of back-travel in 1/1024 wc (R2, R6). -/
def backMax : Nat := 16777215

/-- The most a bucket, a current gain or the stop duration holds (R2, R13, R15). -/
def bucketMax : Nat := 65535

/-- Order records in the book (R44). -/
def bookMax : Nat := 32

/-- Orders in the planning window (R68). -/
def windowMax : Nat := 6

/-- Extents in the main track (R22). -/
def trackMax : Nat := 48

/-- Marks in a lane track (R29). -/
def marksMax : Nat := 8

/-- Records in the released set (R156). -/
def releasedMax : Nat := 16

/-- Frames in an out-queue, and notices among them (R179). -/
def framesMax : Nat := 16

/-- Notices in an out-queue (R179). -/
def noticesMax : Nat := 12

/-- Bytes kept of one select period (R175). -/
def receivedMax : Nat := 256

/-- The limit of an order's counts (R59). -/
def countMax : Nat := 1009998

/-- The last sequence number (R155). -/
def sequenceMax : Nat := 4294967295

/-- Ticks of a fire pulse (R113). -/
def fireTicks : Nat := 50

/-- The value at which a delay timer holds (R98). -/
def delayMax : Nat := 800

/-- Ticks between two polls of the stands (R99). -/
def pollTicks : Nat := 100

/-- Ticks for which a stand input's candidate must hold (R100). -/
def standDebounce : Nat := 20

/-- Consecutive samples that debounce the stand interrupt (R99). -/
def interruptSamples : Nat := 20

/-- Attempts of one stand-link transaction (R101). -/
def linkAttempts : Nat := 4

/-- The greatest cross-machine position (R45). -/
def crossMax : Nat := 28000

/-- DESIGN CHOICE (log 9): the internal acts one event carries out before it ends. What is left over stays in
`State.work` and is carried out first at the next event. -/
def actsPerEvent : Nat := 4096

/-- FREE VALUE (log 10): the six bytes that stand for a position below 0. R207 writes a position along the web
unsigned, and a planned point may lie before the count 0 (R85, R88, and the example of 09 section 9.6), so the manual
states no bytes for it. -/
opaque negativePosition : Int → BitVec 48

/-- FREE VALUE (log 31): the two bytes of the reject causes of an action record that holds none. R153 gives the field to a
CUT released REJECT alone, and R207 states how an absent number and an absent enumeration are written, not an absent
set. -/
opaque absentCauses : BitVec 16

/-- FREE VALUE (log 56): the two bytes of the claims of an extent whose end is not OPEN. R20 gives the field to an OPEN
extent alone, and R207 states no bytes for an absent set. -/
opaque absentClaims : BitVec 16

/-- FREE VALUE (log 32): which LIFT of a boundary the plan record shows where two are planned (R149). R209 gives the record
a place for one. -/
opaque shownLift : Nat

end Sys2Proof.Config
end

