-- ==== Sys2Proof/Machine/State.lean ====
section
/-! DEFINITION. Everything the NB-2410 holds, as plain data, and its values after reset.

Each structure cites the rule that gives its fields. Fields marked MODEL are the model's own: they record what a rule
refers back to (which mark entered first, which cuts have been released), or what the row's cut asks for (the queue). -/

namespace Sys2Proof.Machine

/-! ### Collections indexed by a part of the line -/

/-- One value for each encoder channel (R2). -/
structure PerChannel (α : Type) where
  main : α
  lane1 : α
  lane2 : α
  deriving DecidableEq, Repr

/-- One value for each lane. -/
structure PerLane (α : Type) where
  one : α
  two : α
  deriving DecidableEq, Repr

/-- One value for each stream (R96). -/
structure PerStream (α : Type) where
  s1 : α
  s2 : α
  s3 : α
  s4 : α
  s5 : α
  deriving DecidableEq, Repr

/-- One value for each arm of a stand (R97). -/
structure PerArm (α : Type) where
  a : α
  b : α
  deriving DecidableEq, Repr

/-- One value for each slitter-scorer station (R128). -/
structure PerStation (α : Type) where
  a : α
  b : α
  deriving DecidableEq, Repr

/-- One value for each station port (R174). -/
structure PerPort (α : Type) where
  planning : α
  wet : α
  dry : α
  deriving DecidableEq, Repr

/-! ### The line profile and the part state (09) -/

/-- The part state (R198). -/
inductive PartState where
  | setup | tracking
  deriving DecidableEq, Repr

/-- How a committed reel's drive is known to be up to speed (R98). -/
inductive DriveMode where
  | input | delay100 | delay200 | delay400 | delay800
  deriving DecidableEq, Repr

/-- The kinds of heating or gluing station (R207). -/
inductive EntryKind where
  | preheater | glueUnit | hotPlate
  deriving DecidableEq, Repr

/-- A stream section (R195). -/
structure StreamProfile where
  active : Bool := false
  splicerDistance : Nat := 0
  commitLead : Nat := 0
  spliceMaxSpeed : Nat := 0
  seamLead : Nat := 0
  seamTrail : Nat := 0
  fastExtra : Nat := 0
  runoutReserve : Nat := 0
  butt : Nat := 0
  doneWindow : Nat := 0
  driveMode : DriveMode := .input
  deriving DecidableEq, Repr

/-- A lane section (R195). -/
structure LaneProfile where
  kBase : Int := 0
  dDet : Nat := 0
  wConfirm : Nat := 0
  maxCorrection : Nat := 0
  preQuiet : Nat := 0
  minActive : Nat := 0
  maxGap : Nat := 0
  postQuiet : Nat := 0
  unsyncedExtra : Nat := 0
  rethreadLength : Nat := 0
  deriving DecidableEq, Repr

/-- The line section (R195). -/
structure LineProfile where
  g : Nat := 0
  wg : Nat := 20000
  h : Nat := 20000
  swapLead : Nat := 0
  execTolerance : Nat := 0
  stopTime : Nat := 500
  pulseWeight : PerChannel Nat := ⟨1024, 1024, 1024⟩
  filterWidth : PerChannel Nat := ⟨0, 0, 0⟩
  deriving DecidableEq, Repr

/-- The slitter section (R195). -/
structure SlitterProfile where
  dA : Nat := 0
  dB : Nat := 0
  minSlitSpacing : Nat := 0
  minScoreSpacing : Nat := 0
  placeTolerance : Nat := 0
  placeAttempts : Nat := 4
  deriving DecidableEq, Repr

/-- A station entry section (R195). -/
structure EntryProfile where
  enable : Bool := false
  kind : EntryKind := .preheater
  dNear : Nat := 0
  dFar : Nat := 0
  changeLead : Nat := 0
  stopTolerance : Nat := 0
  deriving DecidableEq, Repr

/-- The line profile: 21 sections (R195). `entries` holds entries 1 to 12 in order. -/
structure Profile where
  streams : PerStream StreamProfile := ⟨{}, {}, {}, {}, {}⟩
  lanes : PerLane LaneProfile := ⟨{}, {}⟩
  line : LineProfile := {}
  slitter : SlitterProfile := {}
  entries : List EntryProfile := List.replicate 12 {}
  deriving DecidableEq, Repr

/-! ### Length measurement (01) -/

/-- A channel's record (R2). `buckets` holds the newest first. -/
structure ChannelRec where
  counter : Nat := 0
  fraction : Nat := 0
  backTravel : Nat := 0
  levelA : Bool := false
  levelB : Bool := false
  buckets : List Nat := List.replicate 10 0
  gain : Nat := 0
  speed : Nat := 0
  saturated : Bool := false
  capped : Bool := false
  deriving DecidableEq, Repr

/-- The Length Measurement Unit (R1, R2, R15). `ticks` is MODEL: the ticks since the release of the reset input, by
which a read of a stand is timed (R100). -/
structure Lmu where
  channels : PerChannel ChannelRec := ⟨{}, {}, {}⟩
  stopped : Bool := false
  zeroSpeedTime : Nat := 0
  stopDuration : Nat := 0
  divider : Nat := 0
  ticks : Nat := 0
  deriving DecidableEq, Repr

/-! ### The web map (02) -/

/-- The causes of an extent (R20), in the order of their bits (R207). -/
inductive Cause where
  | seam | quality | stop | webBreak | wrongGrade | gradeEarly | slitNotReady | doubleSlit | toolLost | unexpectedSeam
  deriving DecidableEq, Repr

/-- The keys that name an opening not yet closed (R20). -/
inductive Claim where
  | webBreak (s : Stream)
  | wrongGrade (s : Stream)
  | slitNotReady (s : Station)
  | toolLost (s : Station)
  deriving DecidableEq, Repr

/-- CONFIRMED, UNCONFIRMED, or neither; never both (R20). -/
inductive Confirmation where
  | neither | confirmed | unconfirmed
  deriving DecidableEq, Repr

/-- The seam part of an extent (R20). -/
structure SeamPart where
  stream : Stream
  arm : Arm
  confirmation : Confirmation
  fast : Bool
  unsynced : Bool
  deriving DecidableEq, Repr

/-- An extent of the main track (R20). `finish` is its end, absent when OPEN; `held` is present while OPEN. `causes`
and `claims` are sets, kept in the order of their bits. -/
structure Extent where
  start : Pos
  finish : Option Pos
  held : Option Pos
  causes : List Cause
  claims : List Claim
  seam : Option SeamPart
  deriving DecidableEq, Repr

/-- A lane mark (R29). `age` is MODEL: marks of a lane are numbered as they enter, so the oldest has the least. -/
structure LaneMark where
  stream : Stream
  arm : Arm
  count : Nat
  fast : Bool
  unsynced : Bool
  age : Nat
  deriving DecidableEq, Repr

/-- The states of a seam recogniser (R32). -/
inductive RecogState where
  | guard | armed | active | trailing
  deriving DecidableEq, Repr

/-- A seam recogniser with its filtered detector level (R32). -/
structure Recogniser where
  state : RecogState := .guard
  level : Bool := false
  p0 : Option Nat := none
  i0 : Option Nat := some 0
  deriving DecidableEq, Repr

/-- What the map holds for a lane: offset, flag, track and recogniser (R27, R29, R32). `nextAge` is MODEL. -/
structure LaneRec where
  offset : Int := 0
  unsynced : Bool := true
  marks : List LaneMark := []
  nextAge : Nat := 0
  recogniser : Recogniser := {}
  deriving DecidableEq, Repr

/-- The Web Map (R22, R27, R37). `zoneTaken` holds the markers of entries 1 to 12. -/
structure WebMap where
  track : List Extent := []
  lanes : PerLane LaneRec := ⟨{}, {}⟩
  zoneTaken : List Bool := List.replicate 12 false
  deriving DecidableEq, Repr

/-! ### The order book (03) -/

/-- A layout: slit and score positions (R45). -/
structure Layout where
  slits : List Nat
  scores : List Nat
  deriving DecidableEq, Repr

/-- The order figures (R45). -/
structure OrderFigures where
  id : Nat
  grades : PerStream Nat
  sf : Nat
  t : Nat
  a : Nat
  m : Nat
  q : Nat
  layout : Layout
  deriving DecidableEq, Repr

/-- An order's phase (R46). -/
inductive Phase where
  | queued | planned | cutting | closed | cancelled
  deriving DecidableEq, Repr

/-- Why the planner stopped at an order (R50). -/
inductive Blocked where
  | none | heads | format
  deriving DecidableEq, Repr

/-- The cause of an order's result (R46, R207). -/
inductive ResultCause where
  | complete | short | cancelledByPlan | cancelledAfterStart | lineCleared
  deriving DecidableEq, Repr

/-- An order's result (R46, R61). -/
structure OrderResult where
  cause : ResultCause
  shortfall : Nat
  overs : Nat
  deriving DecidableEq, Repr

/-- An order's counts (R59). -/
structure OrderCounts where
  good : Nat := 0
  reject : Nat := 0
  unconfirmed : Nat := 0
  waste : Nat := 0
  dropped : Nat := 0
  stacksDone : Nat := 0
  deriving DecidableEq, Repr

/-- An order record (R45, R46). `rejects` is R, absent after R56. -/
structure OrderRec where
  fig : OrderFigures
  phase : Phase := .queued
  pinned : Bool := false
  blocked : Blocked := .none
  station : Option Station := none
  p : Option Pos := none
  e : Option Pos := none
  n : Option Nat := none
  gap : Option Nat := none
  wasteBefore : Nat := 0
  rejects : Option Nat := some 0
  counts : OrderCounts := {}
  result : Option OrderResult := none
  deriving DecidableEq, Repr

/-! ### The changeover planner (04) -/

/-- The figures of an order that a later order is planned against: those of the tail (R71) or of a departed
predecessor (R92). `lapsed` is the mark of R148, set only for a departed predecessor. -/
structure PrevFigures where
  grades : PerStream Nat
  layout : Layout
  station : Station
  lapsed : Bool
  deriving DecidableEq, Repr

/-- How far a planned swap record has come: pending, released, or withdrawn at a late swap (R146). -/
inductive SwapStatus where
  | pending | released | withdrawn
  deriving DecidableEq, Repr

/-- A LIFT or DROP planned at an order's start (R88, R149). `overrun` is the mark of R167 on a LIFT. -/
structure SwapRec where
  station : Station
  status : SwapStatus := .pending
  overrun : Bool := false
  deriving DecidableEq, Repr

/-- Which rule planned the swap at an order's start: none, R88 without a predecessor, R88 at a boundary, R149. -/
inductive SwapKind where
  | none | first | boundary | afterLapse
  deriving DecidableEq, Repr

/-- The swap at an order's start: its DROP and its LIFTs. The LIFT of another station than the DROP's is its pair,
but for a swap of kind `first` (R88, log 15). -/
structure Swap where
  kind : SwapKind := .none
  drop : Option SwapRec := none
  lifts : List SwapRec := []
  deriving DecidableEq, Repr

/-- A replanned pair: placed at cut X, so that its positions do not move (R147). -/
structure Replan where
  x : Pos
  drop : SwapRec
  lift : Option SwapRec
  deriving DecidableEq, Repr

/-- What the planner, the Dry Action List and the Slitter Station Unit hold for an order in the window, and for the
boundary at its start. MODEL: `gapCuts` and `cuts` count the waste cuts of the gap and the cuts of the order that have
left the pending plan, so that the pending plan can be derived; `firstPlaced` says that the order was placed by R78
without a predecessor. -/
structure WindowOrder where
  id : Nat
  firstPlaced : Bool := false
  prev : Option PrevFigures := none
  gapCuts : Nat := 0
  cuts : Nat := 0
  rejectsReleased : Nat := 0
  rejectsOverrun : Nat := 0
  stackNumber : Nat := 1
  stackCount : Nat := 0
  setupOn : Option Station := none
  lapsed : Bool := false
  targetSpent : PerStream Bool := ⟨false, false, false, false, false⟩
  triggerFired : List Bool := List.replicate 12 false
  swap : Swap := {}
  replan : Option Replan := none
  spanInserted : Bool := false
  deriving DecidableEq, Repr

/-- The Changeover Planner (R68, R71, R86). `pendingChange` holds the order ids of entries 1 to 12. -/
structure Planner where
  window : List WindowOrder := []
  w0 : Pos := 0
  tail : Option PrevFigures := none
  pendingChange : List (Option Nat) := List.replicate 12 none
  deriving DecidableEq, Repr

/-! ### Reel stands and splicing (05) -/

/-- The states of an arm (R97). -/
inductive ArmState where
  | empty | loaded | ready | running | stopping
  deriving DecidableEq, Repr

/-- A reel's declaration (R97). -/
structure Declaration where
  grade : Nat
  length : Nat
  deriving DecidableEq, Repr

/-- A debounced stand input: its level, and the tick of the read that first showed the other level (R100). -/
structure StandInput where
  level : Bool := false
  candidate : Option Nat := none
  deriving DecidableEq, Repr

/-- An arm record (R97). The ready lamp is lit while the arm is READY, so it is not held apart. -/
structure ArmRec where
  state : ArmState := .empty
  declaration : Option Declaration := none
  startCount : Option Nat := none
  present : StandInput := {}
  latched : StandInput := {}
  button : StandInput := {}
  driveGood : StandInput := {}
  driveEnable : Bool := false
  delay : Nat := 0
  deriving DecidableEq, Repr

/-- The states of a splice slot outside FREE (R107). -/
inductive SlotState where
  | planned | committed | fired | fault
  deriving DecidableEq, Repr

/-- The kinds of splice (R107). -/
inductive SlotKind where
  | grade | runout | manual
  deriving DecidableEq, Repr

/-- A splice slot outside FREE (R107). `boundary` is the id of the order after the boundary. `boundaryPos` and `departed`
are MODEL: B, kept with the slot so that it outlasts the order's place in the window, and whether that order has left the
window, after which its id may name another order (log 29). -/
structure Slot where
  state : SlotState
  kind : SlotKind
  boundary : Option Nat := none
  boundaryPos : Pos := 0
  departed : Bool := false
  grade : Nat
  commitPoint : Pos
  firePoint : Pos
  chosen : Option Arm := none
  fireCount : Nat := 0
  unsynced : Bool := false
  deferred : Bool := false
  fast : Bool := false
  reaimed : Bool := false
  advanced : Bool := false
  wrongGrade : Bool := false
  deriving DecidableEq, Repr

/-- The sampling of a DONE input (R115): low last found, high found once since, or high. -/
inductive DoneSample where
  | low | once | high
  deriving DecidableEq, Repr

/-- The outputs a write carries to a stand (R99). -/
structure StandOutputs where
  enableA : Bool := false
  enableB : Bool := false
  lampA : Bool := false
  lampB : Bool := false
  deriving DecidableEq, Repr

/-- A stream record (R96, R107) with its FIRE output (R106, R113), DONE sampling (R115) and pending stand-link work
(R99). `seen` says that its expander has been read successfully since reset (R100). `written` is MODEL: the outputs the
last successful write delivered. -/
structure StreamRec where
  arms : PerArm ArmRec := ⟨{}, {}⟩
  running : Option Arm := none
  runningGrade : Nat := 0
  broken : Bool := false
  linkFault : Bool := false
  slot : Option Slot := none
  splicerReady : StandInput := {}
  seen : Bool := false
  readPending : Bool := false
  writePending : Bool := false
  written : StandOutputs := {}
  fire : Bool := false
  fireLeft : Nat := 0
  doneSample : DoneSample := .high
  deriving DecidableEq, Repr

/-- A stand-link transaction in progress: its stream, whether it writes, the attempts that have failed, and the values
a write carries (R99, R101). -/
structure Transaction where
  stream : Stream
  write : Bool
  failed : Nat
  carried : StandOutputs
  deriving DecidableEq, Repr

/-- The stand link (R99). -/
structure StandLink where
  busy : Option Transaction := none
  interrupt : Bool := false
  samples : Nat := 0
  scan : Option Stream := none
  poll : Nat := 0
  deriving DecidableEq, Repr

/-- The Splice Sequencer (R96, R99). -/
structure Sequencer where
  streams : PerStream StreamRec := ⟨{}, {}, {}, {}, {}⟩
  link : StandLink := {}
  deriving DecidableEq, Repr

/-! ### Slitter-scorer stations (06) -/

/-- The states of a station (R128). -/
inductive StationState where
  | idle | setting | ready | down | failed
  deriving DecidableEq, Repr

/-- The outcome of a setup (R128). -/
inductive SetupResult where
  | none | pass | fail
  deriving DecidableEq, Repr

/-- The states of a tool (R129). -/
inductive ToolState where
  | unknown | parked | moving | placed | out
  deriving DecidableEq, Repr

/-- A tool record (R129). -/
structure Tool where
  state : ToolState := .unknown
  target : Option Nat := none
  attempts : Nat := 0
  measured : Option Nat := none
  deriving DecidableEq, Repr

/-- A late-swap record (R146). -/
structure LateSwap where
  order : Nat
  old : Option Station
  position : Pos
  deriving DecidableEq, Repr

/-- A station's demand (R130). -/
structure Demand where
  order : Nat
  layout : Layout
  deriving DecidableEq, Repr

/-- A station record with its tools (R128, R129). -/
structure StationRec where
  state : StationState := .idle
  layout : Option Layout := none
  order : Option Nat := none
  current : SetupResult := .none
  previous : SetupResult := .none
  late : Option LateSwap := none
  demand : Option Demand := none
  slits : List Tool := List.replicate 8 {}
  scores : List Tool := List.replicate 10 {}
  deriving DecidableEq, Repr

/-- An entry of the pending move list (R134). -/
structure MoveEntry where
  station : Station
  kind : ToolKind
  number : Nat
  target : Nat
  attempt : Nat
  taken : Bool
  deriving DecidableEq, Repr

/-- The Slitter Station Unit (R128, R134). -/
structure SlitterUnit where
  stations : PerStation StationRec := ⟨{}, {}⟩
  moves : List MoveEntry := []
  deriving DecidableEq, Repr

/-! ### The dry action list (07) -/

/-- The kinds of action record (R153). -/
inductive ActionKind where
  | cut | lift | drop
  deriving DecidableEq, Repr

/-- What becomes of a cut's sheet (R153, R158). -/
inductive Disposition where
  | good | reject | waste
  deriving DecidableEq, Repr

/-- A released action record (R153). `order` is 0 for a waste cut; fields a kind does not hold are absent. -/
structure ActionRec where
  kind : ActionKind
  sequence : Nat
  position : Pos
  deadline : Pos
  taken : Bool := false
  station : Option Station := none
  order : Nat
  sheet : Option Nat := none
  sheetStart : Option Pos := none
  disposition : Option Disposition := none
  stackNumber : Option Nat := none
  sheetInStack : Option Nat := none
  lastOfStack : Bool := false
  lastOfOrder : Bool := false
  merged : Bool := false
  causes : List Cause := []
  deriving DecidableEq, Repr

/-- A LIFT still pending when its order leaves the window, every cut of the order dropped (R167). -/
structure StrayLift where
  order : Nat
  station : Station
  position : Pos
  overrun : Bool
  deriving DecidableEq, Repr

/-- The Dry Action List (R154, R155). The pending plan is derived (R154). `wasteCuts` is MODEL: the waste cuts beyond
W0 that have left the pending plan. `strays` is that part of the pending plan which outlasts its order's place in the
window (log 30). -/
structure DryList where
  released : List ActionRec := []
  sequence : Nat := 1
  wrapped : Bool := false
  cursor : Pos := 0
  merge : Bool := false
  wasteCuts : Nat := 0
  strays : List StrayLift := []
  deriving DecidableEq, Repr

/-! ### Station ports (08) -/

/-- A frame of an out-queue: a reply, fixed when its request is taken, or a notice of a class (R179, R182, R187). -/
inductive Frame where
  | reply (kind : Nat) (tag : Byte) (payload : List Byte)
  | notice (number : Nat)
  deriving DecidableEq, Repr

/-- One notice class of a port (R184). -/
structure NoticeClass where
  raw : Bool := false
  enable : Bool := false
  queued : Bool := false
  deriving DecidableEq, Repr

/-- The select period in progress (R174): the out-queue frame chosen, absent for the idle frame; the bytes to go out;
the bytes shifted out; the bytes kept; and whether the period is ignored (R194). -/
structure SelectPeriod where
  chosen : Option Frame
  bytes : List Byte
  shifted : Nat
  received : List Byte
  ignored : Bool
  deriving DecidableEq, Repr

/-- A station port (R174). `dataOut` is the byte last shifted out. -/
structure PortRec where
  queue : List Frame := []
  classes : List NoticeClass
  paused : Bool := false
  select : Option SelectPeriod := none
  dataOut : Byte := 0
  deriving DecidableEq, Repr

/-- The input pins that the ticks sample (R99, R115, log 27). -/
structure Pins where
  done : PerStream Bool := ⟨false, false, false, false, false⟩
  interrupt : Bool := false
  deriving DecidableEq, Repr

/-! ### Acts within an event -/

/-- The acts that follow one another within an event (log 8): each is one rule's act, and names the rule that owns
it. -/
inductive Task where
  | recognise            -- R32 to R34, at a counter update of the main channel
  | matchSeam (lane : Lane) (q : Pos)  -- R35, R36
  | windowTest (lane : Lane)           -- R31
  | expiry               -- R25
  | cutting              -- R49
  | recompute            -- R69
  | triggers             -- R85
  | doneWindow (s : Stream)            -- R116
  | commitTest (s : Stream)            -- R110
  | wrongGrade (s : Stream)            -- R114
  | fireTest (s : Stream)              -- R113
  | runout (s : Stream)                -- R118
  | deferred (s : Stream)              -- R111
  | slotFree (s : Stream)              -- R108
  | demand (st : Station)              -- R130, R132, R139
  | lapse (st : Station)               -- R148
  | declare              -- R164
  | release              -- R156
  | overrun              -- R165
  | close (id : Nat)     -- R168
  deriving DecidableEq, Repr

/-! ### The whole state -/

/-- The state of the part. `work` and `pending` are MODEL: the acts still due (empty between events but for log 9),
and the queue of commands, first in first out. -/
structure State where
  resetAsserted : Bool := false
  part : PartState := .setup
  profile : Profile := {}
  lmu : Lmu := {}
  map : WebMap := {}
  book : List OrderRec := []
  plan : Planner := {}
  splice : Sequencer := {}
  slitter : SlitterUnit := {}
  dry : DryList := {}
  ports : PerPort PortRec
  pins : Pins := {}
  work : List Task := []
  pending : List Instr := []
  deriving DecidableEq, Repr

/-- The class tables after reset: 12 classes on the planning port, 13 on the wet port, 10 on the dry port (R184, R194). -/
def resetPorts : PerPort PortRec :=
  ⟨{ classes := List.replicate 12 {} }, { classes := List.replicate 13 {} }, { classes := List.replicate 10 {} }⟩

/-- The machine after reset, its reset input released with every input low (log 4). -/
def State.reset : State := { ports := resetPorts }

/-- Why a step stops with a fault. No command of this part faults: it reports what goes wrong by notices, doubt causes
and REFUSED replies, all of which are state. -/
inductive Fault where
  /-- Raised by nothing; the type must not be empty for `Repr` to have a case to show. Safe. -/
  | noFault
  deriving DecidableEq, Repr

/-- Why a command has no meaning. -/
inductive Refusal where
  /-- Raised by an arm of `exec` whose command has no meaning yet. Safe: the machine stops. -/
  | notModelled (mnemonic : String)
  deriving DecidableEq, Repr

end Sys2Proof.Machine
end

