-- ==== Sys2Proof/Machine/Access.lean ====
section
/-! DEFINITION. Reading and changing one part of the state: the one place where each collection is indexed, and the
figures that are derived at each use (seam offsets, stream counters). -/

namespace Sys2Proof

/-! ### The line's fixed relations -/

/-- Streams 1 to 5 in ascending number. -/
def Stream.all : List Stream := [.s1, .s2, .s3, .s4, .s5]

def Stream.number : Stream → Nat
  | .s1 => 1
  | .s2 => 2
  | .s3 => 3
  | .s4 => 4
  | .s5 => 5

/-- The lane that carries a stream; S5 has none (00 section 2.1). -/
def Stream.lane : Stream → Option Lane
  | .s1 => some .one
  | .s2 => some .one
  | .s3 => some .two
  | .s4 => some .two
  | .s5 => none

/-- The channel that holds a stream's counter (R2, R96). -/
def Stream.channel : Stream → Channel
  | .s1 => .lane1
  | .s2 => .lane1
  | .s3 => .lane2
  | .s4 => .lane2
  | .s5 => .main

/-- The streams of a lane, the lower number first. -/
def Lane.streams : Lane → List Stream
  | .one => [.s1, .s2]
  | .two => [.s3, .s4]

/-- The liner stream of a lane (R36). -/
def Lane.liner : Lane → Stream
  | .one => .s1
  | .two => .s3

def Arm.other : Arm → Arm
  | .a => .b
  | .b => .a

def Station.other : Station → Station
  | .a => .b
  | .b => .a

/-! ### Codes of a request (R207): a code outside its list names nothing -/

def Stream.ofCode? : Nat → Option Stream
  | 1 => some .s1
  | 2 => some .s2
  | 3 => some .s3
  | 4 => some .s4
  | 5 => some .s5
  | _ => none

def Arm.ofCode? : Nat → Option Arm
  | 1 => some .a
  | 2 => some .b
  | _ => none

def Station.ofCode? : Nat → Option Station
  | 1 => some .a
  | 2 => some .b
  | _ => none

def ToolKind.ofCode? : Nat → Option ToolKind
  | 1 => some .slit
  | 2 => some .score
  | _ => none

def Lane.ofCode? : Nat → Option Lane
  | 1 => some .one
  | 2 => some .two
  | _ => none

/-- The number of tools of each kind (R129). -/
def ToolKind.tools : ToolKind → Nat
  | .slit => 8
  | .score => 10

end Sys2Proof

namespace Sys2Proof.Machine

/-! ### Collections -/

def PerChannel.get {α : Type} (p : PerChannel α) : Channel → α
  | .main => p.main
  | .lane1 => p.lane1
  | .lane2 => p.lane2

def PerChannel.set {α : Type} (p : PerChannel α) (c : Channel) (v : α) : PerChannel α :=
  match c with
  | .main => { p with main := v }
  | .lane1 => { p with lane1 := v }
  | .lane2 => { p with lane2 := v }

def PerLane.get {α : Type} (p : PerLane α) : Lane → α
  | .one => p.one
  | .two => p.two

def PerLane.set {α : Type} (p : PerLane α) (l : Lane) (v : α) : PerLane α :=
  match l with
  | .one => { p with one := v }
  | .two => { p with two := v }

def PerStream.get {α : Type} (p : PerStream α) : Stream → α
  | .s1 => p.s1
  | .s2 => p.s2
  | .s3 => p.s3
  | .s4 => p.s4
  | .s5 => p.s5

def PerStream.set {α : Type} (p : PerStream α) (s : Stream) (v : α) : PerStream α :=
  match s with
  | .s1 => { p with s1 := v }
  | .s2 => { p with s2 := v }
  | .s3 => { p with s3 := v }
  | .s4 => { p with s4 := v }
  | .s5 => { p with s5 := v }

def PerArm.get {α : Type} (p : PerArm α) : Arm → α
  | .a => p.a
  | .b => p.b

def PerArm.set {α : Type} (p : PerArm α) (x : Arm) (v : α) : PerArm α :=
  match x with
  | .a => { p with a := v }
  | .b => { p with b := v }

def PerStation.get {α : Type} (p : PerStation α) : Station → α
  | .a => p.a
  | .b => p.b

def PerStation.set {α : Type} (p : PerStation α) (x : Station) (v : α) : PerStation α :=
  match x with
  | .a => { p with a := v }
  | .b => { p with b := v }

def PerPort.get {α : Type} (p : PerPort α) : Port → α
  | .planning => p.planning
  | .wet => p.wet
  | .dry => p.dry

def PerPort.set {α : Type} (p : PerPort α) (x : Port) (v : α) : PerPort α :=
  match x with
  | .planning => { p with planning := v }
  | .wet => { p with wet := v }
  | .dry => { p with dry := v }

/-- Entry `n` of a list numbered from 1, as station entries and tools are. -/
def nth1 {α : Type} (l : List α) (n : Nat) : Option α :=
  match n with
  | 0 => none
  | k + 1 => l[k]?

/-- The list with entry `n`, numbered from 1, changed. -/
def modify1 {α : Type} (l : List α) (n : Nat) (f : α → α) : List α :=
  match n with
  | 0 => l
  | k + 1 => l.modify k f

/-! ### Parts of the state -/

def State.tracking (s : State) : Bool := s.part == .tracking

def State.channel (s : State) (c : Channel) : ChannelRec := s.lmu.channels.get c

def State.setChannel (s : State) (c : Channel) (r : ChannelRec) : State :=
  { s with lmu := { s.lmu with channels := s.lmu.channels.set c r } }

/-- L, the main counter (R2). -/
def State.mainCount (s : State) : Nat := s.lmu.channels.main.counter

/-- L as a position. -/
def State.knife (s : State) : Pos := s.mainCount

def State.lane (s : State) (l : Lane) : LaneRec := s.map.lanes.get l

def State.setLane (s : State) (l : Lane) (r : LaneRec) : State :=
  { s with map := { s.map with lanes := s.map.lanes.set l r } }

def State.stream (s : State) (x : Stream) : StreamRec := s.splice.streams.get x

def State.setStream (s : State) (x : Stream) (r : StreamRec) : State :=
  { s with splice := { s.splice with streams := s.splice.streams.set x r } }

def State.station (s : State) (x : Station) : StationRec := s.slitter.stations.get x

def State.setStation (s : State) (x : Station) (r : StationRec) : State :=
  { s with slitter := { s.slitter with stations := s.slitter.stations.set x r } }

def State.port (s : State) (p : Port) : PortRec := s.ports.get p

def State.setPort (s : State) (p : Port) (r : PortRec) : State :=
  { s with ports := s.ports.set p r }

def State.streamProfile (s : State) (x : Stream) : StreamProfile := s.profile.streams.get x

def State.laneProfile (s : State) (l : Lane) : LaneProfile := s.profile.lanes.get l

/-- The active streams (R195), in ascending number. -/
def Profile.activeStreams (p : Profile) : List Stream := Stream.all.filter fun x => (p.streams.get x).active

/-- The stream counter of a stream (R2, R96). -/
def State.streamCount (s : State) (x : Stream) : Nat := (s.channel x.channel).counter

/-- The stream counter as a position. -/
def State.streamPos (s : State) (x : Stream) : Pos := s.streamCount x

/-- The speed of the channel on which a stream counts (R2, R14). -/
def State.streamSpeed (s : State) (x : Stream) : Nat := (s.channel x.channel).speed

/-- K_s, the seam offset of a stream (R12). -/
def State.seamOffset (s : State) (x : Stream) : Int :=
  (s.streamProfile x).splicerDistance +
    match x.lane with
    | some l => (s.lane l).offset
    | none => 0

/-- The distance of a station upstream of the knife (R128). -/
def State.stationDistance (s : State) : Station → Nat
  | .a => s.profile.slitter.dA
  | .b => s.profile.slitter.dB

/-- Δ = D_A - D_B, the travel for which both stations are down in a swap from B to A (R89). -/
def State.doubleSlitLength (s : State) : Int := (s.profile.slitter.dA : Int) - s.profile.slitter.dB

/-- The record of an order held in the book (R44). -/
def State.order? (s : State) (id : Nat) : Option OrderRec := s.book.find? fun r => r.fig.id == id

/-- The book with the record of an order changed. -/
def State.modifyOrder (s : State) (id : Nat) (f : OrderRec → OrderRec) : State :=
  { s with book := s.book.map fun r => if r.fig.id == id then f r else r }

/-- The window's entry for an order (R68). -/
def State.windowOrder? (s : State) (id : Nat) : Option WindowOrder := s.plan.window.find? fun w => w.id == id

/-- The window with the entry of an order changed. -/
def State.modifyWindow (s : State) (id : Nat) (f : WindowOrder → WindowOrder) : State :=
  { s with plan := { s.plan with window := s.plan.window.map fun w => if w.id == id then f w else w } }

/-- The acts with more added behind those already due. -/
def State.push (s : State) (ts : List Task) : State := { s with work := s.work ++ ts }

/-- A recomputation made due (R69). In SETUP no event causes one. -/
def State.replan (s : State) : State := if s.tracking then s.push [.recompute] else s

end Sys2Proof.Machine
end

