-- ==== Sys2Proof/Machine/Notices.lean ====
section
/-! DEFINITION. Notice classes and the out-queues (08 sections 8.2 and 8.4). -/

namespace Sys2Proof.Machine

/-- The notice classes of the three ports (R184). -/
inductive Notice where
  | planned | pinned | gap | started | closed | short | blocked | bookEmpty | mapMerged | trackDoubt | partState
  | spliceCommit | spliceDone | spliceFault | runoutConflict | gradeMissed | standFault | seamUnexpected
  | seamUnconfirmed | stationChange | speedCap | stopZone | laneUnsynced
  | actionsReady | actionOverrun | actionUnconfirmed | actionOff | movesReady | setupDone | setupFailed | toolOut
  | swapLate
  | requestDropped (port : Port)
  deriving DecidableEq, Repr

/-- The port a class belongs to (R184). -/
def Notice.port : Notice → Port
  | .planned => .planning
  | .pinned => .planning
  | .gap => .planning
  | .started => .planning
  | .closed => .planning
  | .short => .planning
  | .blocked => .planning
  | .bookEmpty => .planning
  | .mapMerged => .planning
  | .trackDoubt => .planning
  | .partState => .planning
  | .spliceCommit => .wet
  | .spliceDone => .wet
  | .spliceFault => .wet
  | .runoutConflict => .wet
  | .gradeMissed => .wet
  | .standFault => .wet
  | .seamUnexpected => .wet
  | .seamUnconfirmed => .wet
  | .stationChange => .wet
  | .speedCap => .wet
  | .stopZone => .wet
  | .laneUnsynced => .wet
  | .actionsReady => .dry
  | .actionOverrun => .dry
  | .actionUnconfirmed => .dry
  | .actionOff => .dry
  | .movesReady => .dry
  | .setupDone => .dry
  | .setupFailed => .dry
  | .toolOut => .dry
  | .swapLate => .dry
  | .requestDropped p => p

/-- The number of the REQUEST_DROPPED class of a port (R184). -/
def Port.droppedClass : Port → Nat
  | .planning => 11
  | .wet => 12
  | .dry => 9

/-- A class's number on its port (R184). -/
def Notice.number : Notice → Nat
  | .planned => 0
  | .pinned => 1
  | .gap => 2
  | .started => 3
  | .closed => 4
  | .short => 5
  | .blocked => 6
  | .bookEmpty => 7
  | .mapMerged => 8
  | .trackDoubt => 9
  | .partState => 10
  | .spliceCommit => 0
  | .spliceDone => 1
  | .spliceFault => 2
  | .runoutConflict => 3
  | .gradeMissed => 4
  | .standFault => 5
  | .seamUnexpected => 6
  | .seamUnconfirmed => 7
  | .stationChange => 8
  | .speedCap => 9
  | .stopZone => 10
  | .laneUnsynced => 11
  | .actionsReady => 0
  | .actionOverrun => 1
  | .actionUnconfirmed => 2
  | .actionOff => 3
  | .movesReady => 4
  | .setupDone => 5
  | .setupFailed => 6
  | .toolOut => 7
  | .swapLate => 8
  | .requestDropped p => Port.droppedClass p

def Frame.isNotice : Frame → Bool
  | .reply _ _ _ => false
  | .notice _ => true

/-- The notices in the out-queue (R179). -/
def PortRec.notices (p : PortRec) : Nat := (p.queue.filter Frame.isNotice).length

/-- Whether a notice may join: fewer than 12 notices and fewer than 16 frames (R179). -/
def PortRec.room (p : PortRec) : Bool := p.notices < Config.noticesMax && p.queue.length < Config.framesMax

/-- Whether class `n` is waiting: raw flag and enable set, queued marker clear (R184). -/
def PortRec.waiting (p : PortRec) (n : Nat) : Bool :=
  match p.classes[n]? with
  | some c => c.raw && c.enable && !c.queued
  | none => false

/-- Queue class `n` if it is waiting, the port is not paused and there is room (R185). -/
def PortRec.queueClass (p : PortRec) (n : Nat) : PortRec :=
  if p.waiting n && !p.paused && p.room then
    { p with queue := p.queue ++ [.notice n], classes := p.classes.modify n fun c => { c with queued := true } }
  else p

/-- Set the raw flag of class `n` and queue it as R185 states. -/
def PortRec.raise (p : PortRec) (n : Nat) : PortRec :=
  { p with classes := p.classes.modify n fun c => { c with raw := true } }.queueClass n

/-- A queue attempt: the waiting classes in ascending number, as room and the pause flag allow (R186). -/
def PortRec.attempt (p : PortRec) : PortRec := (List.range p.classes.length).foldl PortRec.queueClass p

/-- A reply joins the out-queue (R179, R182). -/
def PortRec.append (p : PortRec) (f : Frame) : PortRec := { p with queue := p.queue ++ [f] }

/-- Set the raw flag of a notice class (R185). Where one act sets several, their order is log 35. -/
def State.raise (s : State) (n : Notice) : State := s.setPort n.port ((s.port n.port).raise n.number)

/-- Set the raw flag of a notice class when a condition holds. -/
def State.raiseIf (s : State) (b : Bool) (n : Notice) : State := if b then s.raise n else s

/-- A queue attempt of a port (R186). -/
def State.attempt (s : State) (p : Port) : State := s.setPort p (s.port p).attempt

end Sys2Proof.Machine
end

