-- ==== Sys2Proof/Machine/Extents.lean ====
section
/-! DEFINITION. The main track: insertion, merging, closure, expiry and the question of R21 (02 sections 2.1 and 2.2). -/

namespace Sys2Proof.Machine

/-! ### Sets of causes and claims, kept in the order of their bits (R20, R207) -/

def Cause.all : List Cause :=
  [.seam, .quality, .stop, .webBreak, .wrongGrade, .gradeEarly, .slitNotReady, .doubleSlit, .toolLost, .unexpectedSeam]

def Claim.all : List Claim :=
  [.webBreak .s1, .webBreak .s2, .webBreak .s3, .webBreak .s4, .webBreak .s5,
   .wrongGrade .s1, .wrongGrade .s2, .wrongGrade .s3, .wrongGrade .s4, .wrongGrade .s5,
   .slitNotReady .a, .slitNotReady .b, .toolLost .a, .toolLost .b]

/-- The union of two sets of causes. -/
def unionCauses (x y : List Cause) : List Cause := Cause.all.filter fun c => x.contains c || y.contains c

/-- The union of two sets of claims. -/
def unionClaims (x y : List Claim) : List Claim := Claim.all.filter fun c => x.contains c || y.contains c

/-! ### Extents -/

/-- Whether a position lies before an end; an OPEN end is greater than every position (R21). -/
def beforeEnd (p : Pos) : Option Pos → Bool
  | none => true
  | some e => p < e

/-- Whether a position is not greater than an end (R22). -/
def notAfterEnd (p : Pos) : Option Pos → Bool
  | none => true
  | some e => p ≤ e

/-- A closed extent with one cause, as it is given to the map: a start below 0 takes 0 (R20). -/
def Extent.closed (start finish : Pos) (cause : Cause) (seam : Option SeamPart := none) : Extent :=
  { start := max start 0, finish := some finish, held := none, causes := [cause], claims := [], seam := seam }

/-- An extent opened by a claim: its held end begins equal to its start (R20). -/
def Extent.opened (start : Pos) (cause : Cause) (claim : Claim) : Extent :=
  { start := max start 0, finish := none, held := some (max start 0), causes := [cause], claims := [claim], seam := none }

/-- Whether a new extent meets one of the track: they overlap or touch (R22). -/
def Extent.meets (new old : Extent) : Bool := notAfterEnd new.start old.finish && notAfterEnd old.start new.finish

/-- The furthest closed position of an extent: its end, or its held end while it is OPEN (R22). -/
def Extent.reach (x : Extent) : Pos :=
  match x.finish with
  | some e => e
  | none => x.held.getD x.start

/-- The seam part a merge keeps: that of the one extent that carries SEAM (R22). -/
def mergedSeam (l : List Extent) : Option SeamPart :=
  match l.filter fun x => x.causes.contains .seam with
  | [x] => x.seam
  | _ => none

/-- The extent that replaces extents that meet (R22). -/
def mergeExtents (x : Extent) (others : List Extent) : Extent :=
  let all := x :: others
  let isOpen := all.any fun y => y.finish.isNone
  let reach := others.foldl (fun m y => max m y.reach) x.reach
  { start := others.foldl (fun m y => min m y.start) x.start
    finish := if isOpen then none else some reach
    held := if isOpen then some reach else none
    causes := others.foldl (fun m y => unionCauses m y.causes) x.causes
    claims := if isOpen then others.foldl (fun m y => unionClaims m y.claims) x.claims else []
    seam := mergedSeam all }

/-- An extent put into its place in ascending start order. -/
def placeExtent (x : Extent) : List Extent → List Extent
  | [] => [x]
  | y :: l => if x.start < y.start then x :: y :: l else y :: placeExtent x l

/-- The new track of an insertion that covers some web (R22). -/
def mergeInto (track : List Extent) (x : Extent) : List Extent :=
  placeExtent (mergeExtents x (track.filter fun y => x.meets y)) (track.filter fun y => !x.meets y)

/-- The smallest gap between neighbours, if there are two (R23). -/
def smallestGap : List Extent → Option Pos
  | x :: y :: l =>
    let g := y.start - x.reach
    match smallestGap (y :: l) with
    | some h => some (min g h)
    | none => some g
  | _ => none

/-- The first pair of neighbours whose gap is `g`, nearest the knife, made one (R23). -/
def mergeGap (g : Pos) : List Extent → List Extent
  | x :: y :: l => if y.start - x.reach == g then mergeExtents x [y] :: l else x :: mergeGap g (y :: l)
  | l => l

/-- The track brought back to 48 extents (R23). -/
def mergeSmallest (track : List Extent) : List Extent :=
  match smallestGap track with
  | some g => mergeGap g track
  | none => track

/-- Whether an insertion covers any web (R22). -/
def Extent.covers (x : Extent) : Bool := beforeEnd x.start x.finish

/-- An insertion into the main track, with the merge of a full track (R22, R23), handed to the planner (R26). -/
def State.insertExtent (s : State) (x : Extent) : State :=
  if x.covers then
    let track := mergeInto s.map.track x
    if Config.trackMax < track.length then
      ({ s with map := { s.map with track := mergeSmallest track } }.raise .mapMerged).replan
    else { s with map := { s.map with track := track } }.replan
  else s

/-! ### Expiry and closure -/

/-- Whether an extent expires: closed, behind L, and free of unexecuted released records (R25). -/
def State.expires (s : State) (x : Extent) : Bool :=
  match x.finish with
  | none => false
  | some e => e ≤ s.knife && !s.dry.released.any fun r => x.start ≤ r.position && r.position ≤ e

/-- The expiry test (R25). -/
def State.expireExtents (s : State) : State :=
  if s.map.track.any s.expires then
    { s with map := { s.map with track := s.map.track.filter fun x => !s.expires x } }.replan
  else s

/-- An extent after a claim of its has been closed at `e` (R24). -/
def Extent.closeClaim (x : Extent) (c : Claim) (e : Pos) : Extent :=
  let held := max (x.held.getD x.start) e
  let claims := x.claims.filter fun d => d != c
  if claims.isEmpty then { x with finish := some held, held := none, claims := [] }
  else { x with held := some held, claims := claims }

/-- A closure, followed by the expiry test (R24, R25). A claim that no extent holds changes nothing (log 45). -/
def State.closeClaim (s : State) (c : Claim) (e : Pos) : State :=
  if s.map.track.any fun x => x.claims.contains c then
    let track := s.map.track.map fun x => if x.claims.contains c then x.closeClaim c e else x
    ({ s with map := { s.map with track := track.filter Extent.covers } }.replan).expireExtents
  else s

/-! ### Seams and lane marks -/

/-- The extent of a seam at a knife position (R30). -/
def State.seamExtent (s : State) (p : Pos) (stream : Stream) (fast unsynced : Bool) : Pos × Pos :=
  let prof := s.streamProfile stream
  let extra : Int := (if fast then (prof.fastExtra : Int) else 0) +
    (if unsynced then
      match stream.lane with
      | some l => ((s.laneProfile l).unsyncedExtra : Int)
      | none => 0
    else 0)
  (max 0 (p - prof.seamLead - extra), p + prof.seamTrail + extra)

/-- The predicted position of a lane mark: its count, the splicer distance and the lane offset as they stand (R29). -/
def State.predicted (s : State) (m : LaneMark) : Pos := (m.count : Int) + s.seamOffset m.stream

/-- The marks of both lanes. -/
def State.marks (s : State) : List LaneMark := s.map.lanes.one.marks ++ s.map.lanes.two.marks

/-! ### The question of R21 -/

/-- Whether an extent overlaps the stretch (a, b] (R21). -/
def Extent.overlaps (x : Extent) (a b : Pos) : Bool := x.start < b && beforeEnd a x.finish

/-- Whether a lane mark's extent overlaps the stretch (a, b] (R21). -/
def State.markOverlaps (s : State) (m : LaneMark) (a b : Pos) : Bool :=
  let r := s.seamExtent (s.predicted m) m.stream m.fast m.unsynced
  r.1 < b && a < r.2

/-- Whether any extent, main track or lane mark, overlaps the stretch (a, b] (R21). -/
def State.overlapped (s : State) (a b : Pos) : Bool :=
  s.map.track.any (fun x => x.overlaps a b) || s.marks.any fun m => s.markOverlaps m a b

/-- The union of the causes of every extent found over (a, b]; a lane mark counts as SEAM (R21). -/
def State.causesOver (s : State) (a b : Pos) : List Cause :=
  let c := s.map.track.foldl (fun acc x => if x.overlaps a b then unionCauses acc x.causes else acc) []
  if s.marks.any fun m => s.markOverlaps m a b then unionCauses c [.seam] else c

end Sys2Proof.Machine
end

