-- ==== Sys2Proof/Machine/Book.lean ====
section
/-! DEFINITION. Order figures, the format test, results and counts (03). -/

namespace Sys2Proof.Machine

/-! ### Figures and their ranges (R45) -/

/-- Whether a list of positions is strictly ascending (R45). -/
def ascending : List Nat → Bool
  | x :: y :: l => x < y && ascending (y :: l)
  | _ => true

/-- Whether neighbouring positions are at least `d` apart (R48). -/
def spaced (d : Nat) : List Nat → Bool
  | x :: y :: l => x + d ≤ y && spaced d (y :: l)
  | _ => true

/-- The layout a request carries: the positions up to its counts (R208). -/
def layoutOf (l : RawLayout) : Layout := ⟨l.slits.take l.slitCount, l.scores.take l.scoreCount⟩

/-- Whether a carried layout lies in the ranges of R45: 2 to 8 slits, 0 to 10 scores, ascending positions. -/
def layoutInRange (l : RawLayout) : Bool :=
  2 ≤ l.slitCount && l.slitCount ≤ 8 && l.scoreCount ≤ 10 &&
  (layoutOf l).slits.all (fun x => x ≤ Config.crossMax) && (layoutOf l).scores.all (fun x => x ≤ Config.crossMax) &&
  ascending (layoutOf l).slits && ascending (layoutOf l).scores

def targetInRange (t : Nat) : Bool := 1 ≤ t && t ≤ 999999
def allowanceInRange (a : Nat) : Bool := a ≤ 9999
def marginInRange (m : Nat) : Bool := m ≤ 255
def stackInRange (q : Nat) : Bool := 1 ≤ q && q ≤ 9999

/-- The five grades of an Add Order. -/
def gradesOf (o : RawOrder) : PerStream Nat := ⟨o.grade1, o.grade2, o.grade3, o.grade4, o.grade5⟩

/-- Whether every figure of an Add Order lies in its range (R45, R47 check 3). -/
def figuresInRange (o : RawOrder) : Bool :=
  1 ≤ o.id && o.id ≤ 4294967295 &&
  Stream.all.all (fun x => (gradesOf o).get x ≤ 255) && Stream.all.any (fun x => (gradesOf o).get x != 0) &&
  48000 ≤ o.sf && o.sf ≤ 1280000 &&
  targetInRange o.t && allowanceInRange o.a && marginInRange o.m && stackInRange o.q && layoutInRange o.layout

/-- The figures an Add Order gives (R47). -/
def figuresOf (o : RawOrder) : OrderFigures :=
  { id := o.id, grades := gradesOf o, sf := o.sf, t := o.t, a := o.a, m := o.m, q := o.q, layout := layoutOf o.layout }

/-! ### The format test (R48) -/

/-- The spacing part of the format test. -/
def Profile.spacingPasses (p : Profile) (l : Layout) : Bool :=
  spaced p.slitter.minSlitSpacing l.slits && spaced p.slitter.minScoreSpacing l.scores

/-- The format test: spacings, grades on exactly the active streams, sheet no longer than H (R48). -/
def Profile.formatPasses (p : Profile) (f : OrderFigures) : Bool :=
  p.spacingPasses f.layout &&
  Stream.all.all (fun x => (f.grades.get x != 0) == (p.streams.get x).active) &&
  (f.sf + 15) / 16 ≤ p.line.h

/-! ### Results and counts (R59, R61) -/

/-- A result from the target and the good count (R61). -/
def resultOf (cause : ResultCause) (t good : Nat) : OrderResult := ⟨cause, t - good, good - t⟩

/-- A count one higher, holding at its limit (R59). -/
def bump (n : Nat) : Nat := min (n + 1) Config.countMax

/-- The record of a closed order: its cause is COMPLETE or SHORT (R61). -/
def OrderRec.close (r : OrderRec) : OrderRec :=
  let short := r.counts.good < r.fig.t
  { r with
    phase := .closed
    result := some (resultOf (if short then .short else .complete) r.fig.t r.counts.good) }

/-- A record with its counts changed; the result of an order cancelled after start follows its good count (R58). -/
def OrderRec.recount (r : OrderRec) (f : OrderCounts → OrderCounts) : OrderRec :=
  let counts := f r.counts
  { r with
    counts := counts
    result :=
      match r.result with
      | some res => some (resultOf res.cause r.fig.t counts.good)
      | none => none }

/-- The records that are QUEUED (R63). -/
def State.queuedCount (s : State) : Nat := (s.book.filter fun r => r.phase == .queued).length

/-- BOOK_EMPTY is raised when the number of QUEUED records has fallen from 1 to 0 (R63). -/
def State.watchQueued (before after : State) : State :=
  after.raiseIf (before.queuedCount == 1 && after.queuedCount == 0) .bookEmpty

end Sys2Proof.Machine
end

