-- ==== Sys2Proof/Machine/Lanes.lean ====
section
/-! DEFINITION. Lane offsets, lane tracks, seam recognisers, stop zones and break zones (02 sections 2.3 to 2.7). -/

namespace Sys2Proof.Machine

/-! ### Lane offsets (R27) -/

/-- The acts due after a change of a lane offset: the window test at once, then the change handed on to the planner, and
then, for each of the lane's streams, the wrong-grade, commit and fire tests (R26, R27, R31, R109), the lower stream first (log
66). -/
def State.offsetActs (s : State) (l : Lane) : List Task :=
  if s.tracking then
    [.windowTest l, .recompute] ++ l.streams.flatMap fun x => [.wrongGrade x, .commitTest x, .fireTest x]
  else [.windowTest l]

/-- K_lane set to a value; a value already held moves nothing (R27, R28). -/
def State.setOffset (s : State) (l : Lane) (k : Int) : State :=
  if k = (s.lane l).offset then s
  else (s.setLane l { s.lane l with offset := k }).push (s.offsetActs l)

/-- UNSYNCED set, LANE_UNSYNCED raised when it was clear (R27). -/
def State.setUnsynced (s : State) (l : Lane) : State :=
  (s.setLane l { s.lane l with unsynced := true }).raiseIf (!(s.lane l).unsynced) .laneUnsynced

/-- UNSYNCED cleared (R27). -/
def State.clearUnsynced (s : State) (l : Lane) : State := s.setLane l { s.lane l with unsynced := false }

/-! ### Lane tracks (R29 to R31) -/

/-- A mark put into its place in ascending lane count, behind marks of equal count (R29). -/
def placeMark (m : LaneMark) : List LaneMark → List LaneMark
  | [] => [m]
  | y :: l => if m.count < y.count then m :: y :: l else y :: placeMark m l

/-- The first of the marks to have entered (R29). -/
def oldestMark : List LaneMark → Option LaneMark
  | [] => none
  | m :: l =>
    match oldestMark l with
    | some o => some (if o.age < m.age then o else m)
    | none => some m

/-- The extent of a mark moved to the main track at a position (R30). -/
def State.seamOf (s : State) (m : LaneMark) (p : Pos) (c : Confirmation) : Extent :=
  let r := s.seamExtent p m.stream m.fast m.unsynced
  Extent.closed r.1 r.2 .seam (some ⟨m.stream, m.arm, c, m.fast, m.unsynced⟩)

/-- The marks of a lane changed. -/
def State.setMarks (s : State) (l : Lane) (marks : List LaneMark) : State :=
  s.setLane l { s.lane l with marks := marks }

/-- The oldest mark of a full lane track moved to the main track (R29). -/
def State.spillMark (s : State) (l : Lane) : State :=
  if (s.lane l).marks.length < Config.marksMax then s
  else
    match oldestMark (s.lane l).marks with
    | some o =>
      (s.setMarks l ((s.lane l).marks.filter fun m => m.age != o.age)).insertExtent
        (s.seamOf o (s.predicted o) .neither)
    | none => s

/-- A lane mark enters its lane's track (R29); the window test is made at its entry (R31). -/
def State.enterMark (s : State) (l : Lane) (x : Stream) (arm : Arm) (count : Nat) (fast unsynced : Bool) : State :=
  let s := s.spillMark l
  let r := s.lane l
  let m : LaneMark := ⟨x, arm, count, fast, unsynced, r.nextAge⟩
  ((s.setLane l { r with marks := placeMark m r.marks, nextAge := r.nextAge + 1 }).push [.windowTest l]).replan

/-- The window end of a mark of a lane (R31). -/
def State.windowEnd (s : State) (l : Lane) (m : LaneMark) : Pos :=
  s.predicted m - (s.laneProfile l).dDet + (s.laneProfile l).wConfirm

/-- The window test of a lane: marks whose window has passed move to the main track as UNCONFIRMED (R31), which the planner
is told even where their extents cover no web (R26). -/
def State.windowTest (s : State) (l : Lane) : State :=
  let due := (s.lane l).marks.filter fun m => s.windowEnd l m < s.knife
  if due.isEmpty then s
  else
    due.foldl (fun t m => (t.insertExtent (s.seamOf m (s.predicted m) .unconfirmed)).raise .seamUnconfirmed)
      (s.setMarks l ((s.lane l).marks.filter fun m => !(s.windowEnd l m < s.knife))).replan

/-! ### Seam recognisers (R32 to R34) -/

/-- The GUARD test: quiet web of at least pre_quiet arms the recogniser (R32). -/
def Recogniser.guardTest (r : Recogniser) (p : LaneProfile) (count : Nat) : Recogniser :=
  match r.i0 with
  | some i => if !r.level && p.preQuiet ≤ count - i then { r with state := .armed } else r
  | none => r

/-- One test of a recogniser at main count `count`, and the candidate start of a seam it recognises (R32 to R34). -/
def Recogniser.test (r : Recogniser) (p : LaneProfile) (count : Nat) : Recogniser × Option Nat :=
  match r.state with
  | .guard => (r.guardTest p count, none)
  | .armed => (r, none)
  | .active =>
    if r.level then
      (if p.minActive ≤ count - r.p0.getD count then { r with state := .trailing } else r, none)
    else if p.maxGap < count - r.i0.getD count then
      (({ r with state := .guard, p0 := none } : Recogniser).guardTest p count, none)
    else (r, none)
  | .trailing =>
    if !r.level && p.postQuiet ≤ count - r.i0.getD count then
      (({ r with state := .guard, p0 := none } : Recogniser).guardTest p count, r.p0)
    else (r, none)

/-- A change of the filtered detector level (R32): i0 is present while the input is inactive, and the first change to
active in ARMED records p0. -/
def Recogniser.change (r : Recogniser) (level : Bool) (count : Nat) : Recogniser :=
  if level then
    match r.state with
    | .armed => { r with level := true, i0 := none, p0 := some count, state := .active }
    | _ => { r with level := true, i0 := none }
  else { r with level := false, i0 := some count }

/-- A test of a lane's recogniser; a seam it recognises is matched next, at q = p0 + D_det (R34). -/
def State.recogniserTest (s : State) (l : Lane) : State :=
  let r := (s.lane l).recogniser.test (s.laneProfile l) s.mainCount
  let s' := s.setLane l { s.lane l with recogniser := r.1 }
  match r.2 with
  | some p0 => s'.push [.matchSeam l ((p0 : Int) + (s.laneProfile l).dDet)]
  | none => s'

/-! ### Matching a recognised seam (R35, R36) -/

/-- The nearer of two marks to `q`; of equally near marks the older (R35). -/
def State.nearer (s : State) (q : Pos) (x y : LaneMark) : LaneMark :=
  let dx := (s.predicted x - q).natAbs
  let dy := (s.predicted y - q).natAbs
  if dx < dy then x else if dy < dx then y else if x.age ≤ y.age then x else y

/-- The mark a recognised seam matches: the nearest within W_confirm (R35). -/
def State.matchedMark (s : State) (l : Lane) (q : Pos) : Option LaneMark :=
  match (s.lane l).marks.filter fun m => (s.predicted m - q).natAbs ≤ (s.laneProfile l).wConfirm with
  | [] => none
  | m :: ms => some (ms.foldl (s.nearer q) m)

/-- An error limited to the range from -max_correction to +max_correction (R35). -/
def limitCorrection (e : Int) (limit : Nat) : Int := max (-(limit : Int)) (min e limit)

/-- A lane offset held within its range (R27). -/
def limitOffset (k : Int) : Int := max (-(Config.counterMax : Int)) (min k Config.counterMax)

/-- K_lane set to a value, and the lane's window test made and the map handed on whether or not K_lane changes (R35, steps 5
and 6); a change makes the acts of R109 due besides. -/
def State.correctOffset (s : State) (l : Lane) (k : Int) : State :=
  if k = (s.lane l).offset then (s.push [.windowTest l]).replan else s.setOffset l k

/-- A confirmed seam (R35, steps 1 to 6). The mark's removal is handed on (R26) with the offset's change, behind the window
test. -/
def State.confirmSeam (s : State) (l : Lane) (q : Pos) (m : LaneMark) : State :=
  let e := q - s.predicted m
  let k := limitOffset ((s.lane l).offset + limitCorrection e (s.laneProfile l).maxCorrection)
  let s := s.setMarks l ((s.lane l).marks.filter fun n => n.age != m.age)
  let s := s.insertExtent (s.seamOf m q .confirmed)
  (s.clearUnsynced l).correctOffset l k

/-- An unexpected seam: an extent about `q` by the lead and trail of the lane's liner stream (R36). -/
def State.unexpectedSeam (s : State) (l : Lane) (q : Pos) : State :=
  let p := s.streamProfile l.liner
  (s.insertExtent (.closed (q - p.seamLead) (q + p.seamTrail) .unexpectedSeam)).raise .seamUnexpected

/-- A recognised seam matched against the lane's marks (R35, R36). -/
def State.matchSeam (s : State) (l : Lane) (q : Pos) : State :=
  match s.matchedMark l q with
  | some m => s.confirmSeam l q m
  | none => s.unexpectedSeam l q

/-! ### Stop zones (R37, R38) -/

/-- Whether an entry's stop zone may be taken in this stop: enabled, marker clear (R38). -/
def State.zoneFree (s : State) (n : Nat) : Bool :=
  match nth1 s.profile.entries n, nth1 s.map.zoneTaken n with
  | some e, some taken => e.enable && !taken
  | _, _ => false

/-- The stop zone of an entry taken with the present L (R38). An entry whose D_far is not greater than its D_near
inserts nothing and raises nothing; its marker is set. -/
def State.takeZone (s : State) (n : Nat) : State :=
  match nth1 s.profile.entries n with
  | some e =>
    let s' := { s with map := { s.map with zoneTaken := modify1 s.map.zoneTaken n fun _ => true } }
    if e.dNear < e.dFar then
      (s'.insertExtent (.closed (s.knife + e.dNear) (s.knife + e.dFar) .stop)).raise .stopZone
    else s'
  | none => s

/-- Whether an entry's zone is due: the stop has lasted its tolerance (R38). -/
def State.zoneDue (s : State) (n : Nat) : Bool :=
  s.lmu.stopped && s.zoneFree n &&
    match nth1 s.profile.entries n with
    | some e => e.stopTolerance ≤ s.lmu.stopDuration
    | none => false

/-- The entries in ascending number. -/
def entryNumbers : List Nat := [1, 2, 3, 4, 5, 6, 7, 8, 9, 10, 11, 12]

/-- The map examines every entry in ascending number and takes each zone that is due (R38). -/
def State.takeDueZones (s : State) : State :=
  entryNumbers.foldl (fun t n => if t.zoneDue n then t.takeZone n else t) s

/-! ### Break zones (R39, R40) -/

/-- A web break reaches the map: the BREAK extent opens and the stream's lane is set UNSYNCED (R39). -/
def State.openBreak (s : State) (x : Stream) : State :=
  let s := s.insertExtent (.opened (s.streamPos x + s.seamOffset x) .webBreak (.webBreak x))
  match x.lane with
  | some l => s.setUnsynced l
  | none => s

/-- Web Restored closes the BREAK claim of a stream (R40). -/
def State.closeBreak (s : State) (x : Stream) : State :=
  let rethread : Int :=
    match x.lane with
    | some l => (s.laneProfile l).rethreadLength
    | none => 0
  s.closeClaim (.webBreak x) (s.streamPos x + s.seamOffset x + rethread)

end Sys2Proof.Machine
end

