-- ==== Sys2Proof/Machine/Plan.lean ====
section
/-! DEFINITION. The Changeover Planner: cut positions, counting, pinning, starts and gaps, targets, triggers, swaps and
the filling of the window (04). -/

namespace Sys2Proof.Machine

/-! ### Window lines -/

/-- An order of the window with its record. -/
structure Line where
  w : WindowOrder
  r : OrderRec
  deriving DecidableEq, Repr

/-- The orders of the window with their records, in window order (R68). -/
def State.lines (s : State) : List Line := s.plan.window.filterMap fun w => (s.order? w.id).map (Line.mk w)

/-- The changed lines written back to the window and the book ("it writes each value into the order's record", R68). -/
def State.writeLines (s : State) (ls : List Line) : State :=
  { s with
    book := s.book.map fun r => ((ls.find? fun l => l.w.id == r.fig.id).map Line.r).getD r
    plan := { s.plan with window := s.plan.window.map fun w => ((ls.find? fun l => l.w.id == w.id).map Line.w).getD w } }

/-- The figures a line gives its successor (R68, R92). -/
def Line.figures (l : Line) : PrevFigures :=
  ⟨l.r.fig.grades, l.r.fig.layout, l.r.station.getD .a, l.w.lapsed⟩

/-- The figures a line is planned against: those of its predecessor in the window, or of the tail or the order that left
from in front of it; none for an order placed without a predecessor (R68, R78). -/
def prevFigures (k : Option Line) (l : Line) : Option PrevFigures :=
  match k with
  | some p => some p.figures
  | none => l.w.prev

/-- Each line with the figures it is planned against. -/
def withPrev : Option Line → List Line → List (Line × Option PrevFigures)
  | _, [] => []
  | k, l :: ls => (l, prevFigures k l) :: withPrev (some l) ls

/-- The boundaries: the lines that are planned against figures, with those figures (R68, log 13). -/
def State.boundaries (s : State) : List (Line × PrevFigures) :=
  (withPrev none s.lines).filterMap fun x => x.2.map fun p => (x.1, p)

/-- The start of a line. -/
def Line.start (l : Line) : Pos := l.r.p.getD 0

/-! ### Cut positions (R72) -/

/-- C(n) = P + floor((n·Sf + 8) / 16). -/
def cutPosition (p : Pos) (sf n : Nat) : Pos := p + (((n * sf + 8) / 16 : Nat) : Int)

/-- A line's cut n. -/
def Line.cut (l : Line) (n : Nat) : Pos := cutPosition l.start l.r.fig.sf n

/-! ### Swaps and spans (R88, R89, R149) -/

/-- The stations that are DOWN. -/
def State.downStations (s : State) : List Station := [Station.a, .b].filter fun x => (s.station x).state == .down

/-- Whether a record of the swap at an order's start, or of its replanned pair, has been released, after which the order
keeps its station (R87). A record withdrawn at a late swap has not been released (log 48). -/
def WindowOrder.swapReleased (w : WindowOrder) : Bool :=
  (w.swap.drop.toList ++ w.swap.lifts ++
    match w.replan with
    | some p => p.drop :: p.lift.toList
    | none => []).any fun r => r.status == .released

/-- Whether two swaps plan the same records. -/
def Swap.same (x y : Swap) : Bool :=
  x.kind == y.kind && x.drop.map SwapRec.station == y.drop.map SwapRec.station &&
  x.lifts.map SwapRec.station == y.lifts.map SwapRec.station

/-- The station choice (R87). -/
def chooseStation (prev : Option PrevFigures) (layout : Layout) : Station :=
  match prev with
  | none => .a
  | some p => if p.layout = layout then p.station else p.station.other

/-- The swap planned at the boundary after a lapsed order (R149): a DROP of the successor's station and a LIFT of each DOWN
station. What the swap planned before the lapse has sent out stands: a LIFT released, and the DROP of that station where it
has been released or has gone late, are not planned again (log 49). -/
def State.swapAfterLapse (s : State) (station : Station) (held : Swap) : Swap :=
  let drop := (held.drop.filter fun d => d.station == station && d.status != .pending).getD { station := station }
  let lifts := held.lifts.filter fun l => l.status == .released
  let owed := s.downStations.filter fun x =>
    !(lifts.any fun l => l.station == x) && !(drop.status == .released && x == station)
  { kind := .afterLapse, drop := some drop, lifts := lifts ++ owed.map fun x => { station := x } }

/-- The swap planned at a boundary (R88, R149). -/
def State.swapAt (s : State) (prev : PrevFigures) (station : Station) (held : Swap) : Swap :=
  if prev.lapsed then
    if held.kind == .afterLapse && held.drop.map SwapRec.station == some station then held
    else s.swapAfterLapse station held
  else if station = prev.station then {}
  else { kind := .boundary, drop := some { station := station }, lifts := [{ station := prev.station }] }

/-- The station an order takes: once a record of the swap at its start has been released it keeps its own, and until then
the choice is made again (R87). -/
def Line.chosenStation (l : Line) (prev : Option PrevFigures) (layout : Layout) : Station :=
  if l.w.swapReleased then l.r.station.getD .a else chooseStation prev layout

/-- A line with its station and swap as R87, R88 and R149 give them. A swap of which a record has been released stays, but
for what R149 adds behind a lapsed order. -/
def State.replanLine (s : State) (prev : Option PrevFigures) (l : Line) : Line :=
  let st := l.chosenStation prev l.r.fig.layout
  let new :=
    match prev with
    | none => l.w.swap
    | some p => if l.w.swapReleased && !p.lapsed then l.w.swap else s.swapAt p st l.w.swap
  { w := { l.w with swap := if new.same l.w.swap then l.w.swap else new }
    r := { l.r with station := some st } }

/-- The station choice and the swaps of the window, in window order. -/
def State.replanLines (s : State) : Option Line → List Line → List Line
  | _, [] => []
  | k, l :: ls =>
    let l' := s.replanLine (prevFigures k l) l
    l' :: s.replanLines (some l') ls

/-- Whether a swap lowers A while B is lifted, so that a double-slit span is planned (R89, R149). -/
def Swap.doubleSlit (w : Swap) : Bool :=
  (w.kind == .boundary || w.kind == .afterLapse) && w.drop.map SwapRec.station == some .a &&
  w.lifts.any fun l => l.station == .b

/-- The planned double-slit span of a line's boundary, while it is not inserted (R89). -/
def State.plannedSpan (s : State) (l : Line) : Option (Pos × Pos) :=
  if l.w.swap.doubleSlit && !l.w.spanInserted then some (l.start, l.start + s.doubleSlitLength) else none

/-! ### Rejects and provisional extension (R73, R74) -/

/-- Whether sheet `n` of a line counts as a reject by the map or by a planned span (R73, third part). -/
def State.sheetSpoiled (s : State) (spans : List (Pos × Pos)) (l : Line) (n : Nat) : Bool :=
  let a := l.cut (n - 1)
  let b := l.cut n
  s.overlapped a b || spans.any fun x => x.1 < b && a < x.2

/-- R, the reject sheets among sheets 1 to `n`: released REJECT, added at overruns, and not yet released and spoiled (R73).
The sheet of a cut dropped at an overrun counts in the second part alone, not again in the third (log 50). -/
def State.countRejects (s : State) (spans : List (Pos × Pos)) (l : Line) (n : Nat) : Nat :=
  l.w.rejectsReleased + l.w.rejectsOverrun +
    ((List.range n).filter fun k => l.w.cuts ≤ k && s.sheetSpoiled spans l (k + 1)).length

/-- Provisional extension, repeated until N is unchanged or has reached T + A (R74); `fuel` bounds the repeats by the
allowance. -/
def State.extend (s : State) (spans : List (Pos × Pos)) (l : Line) : Nat → Nat → Nat
  | 0, n => n
  | fuel + 1, n =>
    let n' := max n (l.r.fig.t + min (s.countRejects spans l n) l.r.fig.a)
    if n' = n then n else s.extend spans l fuel n'

/-- A line counted: an OPEN one is placed behind its predecessor's end and extended; a PINNED one keeps P, N and E
(R69, R74, R78). -/
def State.countLine (s : State) (prevEnd : Option Pos) (spans : List (Pos × Pos)) (l : Line) : Line :=
  if l.r.pinned then
    { l with r := { l.r with rejects := some (s.countRejects (spans ++ (s.plannedSpan l).toList) l (l.r.n.getD 0)) } }
  else
    let p :=
      match prevEnd with
      | some e => e + (l.r.gap.getD 0 : Nat)
      | none => l.start
    let l := { l with r := { l.r with p := some p } }
    let spans := spans ++ (s.plannedSpan l).toList
    let n := s.extend spans l (l.r.fig.a + 1) (max (l.r.n.getD l.r.fig.t) l.r.fig.t)
    { l with r := { l.r with n := some n, e := some (l.cut n), rejects := some (s.countRejects spans l n) } }

/-- The lines counted in window order; each sees the planned spans of its own boundary and of those before it. -/
def State.countLines (s : State) (prevEnd : Option Pos) (spans : List (Pos × Pos)) : List Line → List Line
  | [] => []
  | l :: ls =>
    let l' := s.countLine prevEnd spans l
    l' :: s.countLines l'.r.e (spans ++ (s.plannedSpan l').toList) ls

/-- The starts and ends of the OPEN lines behind their predecessors, their counts as they stand (R78). -/
def shiftLines (prevEnd : Option Pos) : List Line → List Line
  | [] => []
  | l :: ls =>
    let l' :=
      if l.r.pinned then l
      else
        match prevEnd with
        | some e =>
          let l := { l with r := { l.r with p := some (e + (l.r.gap.getD 0 : Nat)) } }
          { l with r := { l.r with e := some (l.cut (l.r.n.getD 0)) } }
        | none => { l with r := { l.r with e := some (l.cut (l.r.n.getD 0)) } }
    l' :: shiftLines l'.r.e ls

/-- W0 is the end of the last order while the window holds one (R71). -/
def State.followW0 (s : State) : State :=
  match s.lines.getLast? with
  | some l => { s with plan := { s.plan with w0 := l.r.e.getD s.plan.w0 } }
  | none => s

/-! ### Grade-splice targets in the slots (R81, R83) -/

/-- The fire point of a target at boundary position `b` (R81). -/
def State.targetFire (s : State) (x : Stream) (b : Pos) : Pos := b - s.profile.line.g - s.seamOffset x

/-- The slot of a stream changed. -/
def State.setSlot (s : State) (x : Stream) (v : Option Slot) : State := s.setStream x { s.stream x with slot := v }

/-- The order whose boundary's target a slot holds, while that order is in the window (R82, log 29). -/
def Slot.target? (v : Slot) : Option Nat := if v.kind == .grade && !v.departed then v.boundary else none

/-- B of a GRADE slot: the start of the order after its boundary, or where it stood when that order left the window (log
29). -/
def State.boundaryOf (s : State) (v : Slot) : Pos :=
  (((v.target?.bind s.windowOrder?).bind fun w => s.order? w.id).bind OrderRec.p).getD v.boundaryPos

/-- A GRADE slot in PLANNED, COMMITTED or FIRED set anew: B, and, unless it is re-aimed, its points, which follow B and K_s
(R83, R107). -/
def State.refreshSlot (s : State) (x : Stream) : State :=
  match (s.stream x).slot with
  | none => s
  | some v =>
    if v.kind == .grade && v.state != .fault then
      let b := s.boundaryOf v
      let v := { v with boundaryPos := b }
      if v.reaimed then s.setSlot x (some v)
      else
        let f := s.targetFire x b
        s.setSlot x (some { v with firePoint := f, commitPoint := f - (s.streamProfile x).commitLead })
    else s

/-- Every stream's slot set anew. -/
def State.refreshSlots (s : State) : State := Stream.all.foldl State.refreshSlot s

/-- The plan moved behind the ends as they stand: starts, W0 and slot points (R71, R78, R83). -/
def State.shiftPlan (s : State) : State := (s.writeLines (shiftLines none s.lines)).followW0.refreshSlots

/-! ### Pinning (R75 to R77) -/

/-- The line before an order in the window. -/
def lineBefore (id : Nat) : Option Line → List Line → Option Line
  | _, [] => none
  | k, l :: ls => if l.w.id == id then k else lineBefore id (some l) ls

/-- The line after an order in the window. -/
def lineAfter (id : Nat) : List Line → Option Line
  | l :: m :: ls => if l.w.id == id then some m else lineAfter id (m :: ls)
  | _ => none

/-- A line's planned double-slit span inserted into the main track (R77, R89). -/
def State.insertSpan (s : State) (l : Line) : State :=
  match s.plannedSpan l with
  | some (a, b) => (s.modifyWindow l.w.id fun w => { w with spanInserted := true }).insertExtent (.closed a b .doubleSlit)
  | none => s

/-- The spans of earlier boundaries and of the order's own, for counting one order. -/
def State.spansUpTo (s : State) (id : Nat) : List Line → List (Pos × Pos)
  | [] => []
  | l :: ls => if l.w.id == id then [] else (s.plannedSpan l).toList ++ s.spansUpTo id ls

/-- A line pinned: N with its margin, E, and the end state (R76, steps 2 and 3). -/
def Line.pin (l : Line) (withMargin : Bool) : Line :=
  let m := if withMargin then l.r.fig.m else 0
  let n := max (l.r.n.getD 0) (l.r.fig.t + min (l.r.rejects.getD 0 + m) l.r.fig.a)
  { l with r := { l.r with n := some n, e := some (l.cut n), pinned := true } }

/-- A line counted at its final start, behind its predecessor's end (R76, step 1). -/
def State.countFinal (s : State) (l : Line) : Line :=
  s.countLine ((lineBefore l.w.id none s.lines).bind fun k => k.r.e) (s.spansUpTo l.w.id s.lines) l

/-- One order's end pinned (R76, steps 1 to 3); its margin is taken as 0 at pin point (f). -/
def State.pinOne (s : State) (id : Nat) (withMargin : Bool) : State :=
  match s.lines.find? fun l => l.w.id == id with
  | none => s
  | some l =>
    if l.r.pinned then s
    else
      let s := ((s.writeLines [(s.countFinal l).pin withMargin]).shiftPlan.raise .pinned).replan
      match lineAfter id s.lines with
      | some k => s.insertSpan k
      | none => s

/-- The orders of the window up to and including one. -/
def idsThrough (id : Nat) : List WindowOrder → List Nat
  | [] => []
  | w :: ws => if w.id == id then [w.id] else w.id :: idsThrough id ws

/-- The end of an order pinned, every earlier OPEN end first with its own margin (R76). -/
def State.pinEnd (s : State) (id : Nat) (withMargin : Bool := true) : State :=
  if (s.windowOrder? id).isSome then
    (idsThrough id s.plan.window).foldl (fun t k => t.pinOne k (withMargin || k != id)) s
  else s

/-- The boundary at an order's start pinned: its predecessor's end. At a start planned against the tail or a departed
order this changes nothing (R75). -/
def State.pinStart (s : State) (id : Nat) : State :=
  match lineBefore id none s.lines with
  | some k => s.pinEnd k.w.id
  | none => s

/-- Whether the boundary at an order's start is OPEN. -/
def State.startOpen (s : State) (id : Nat) : Bool :=
  match lineBefore id none s.lines with
  | some k => !k.r.pinned
  | none => false

/-- Whether an order's start is pinned: no predecessor in the window, or one whose end is PINNED (03 section 3.5). -/
def State.startPinned (s : State) (id : Nat) : Bool := !s.startOpen id

/-- The planned spans of boundaries already pinned go into the main track (R77, R89, log 14). -/
def State.insertPinnedSpans (s : State) : State :=
  s.boundaries.foldl (fun t x => if t.startPinned x.1.w.id then t.insertSpan x.1 else t) s

/-! ### Waiting targets and their hand-in (R82, R84, R108) -/

/-- Whether a stream changes grade at a boundary (R81). -/
def State.gradeChanges (s : State) (prev : PrevFigures) (l : Line) (x : Stream) : Bool :=
  (s.streamProfile x).active && prev.grades.get x != l.r.fig.grades.get x

/-- Whether the stream's slot holds the target of an order's boundary. -/
def State.targetInSlot (s : State) (x : Stream) (id : Nat) : Bool :=
  (s.stream x).slot.bind Slot.target? == some id

/-- Whether a boundary's target for a stream is waiting (R82). -/
def State.targetWaits (s : State) (prev : PrevFigures) (l : Line) (x : Stream) : Bool :=
  s.gradeChanges prev l x && !(l.w.targetSpent.get x) && !s.targetInSlot x l.w.id

/-- A boundary's target for a stream marked served or spent (R108, R116). -/
def State.spendTarget (s : State) (id : Nat) (x : Stream) : State :=
  s.modifyWindow id fun w => { w with targetSpent := w.targetSpent.set x true }

/-- The waiting targets of a stream offered in window order: those whose grade already runs are served, and the first
other one is handed in (R82, R108). -/
def State.offerFrom (x : Stream) : List (Line × PrevFigures) → State → State
  | [], s => s
  | (l, prev) :: ls, s =>
    if s.targetWaits prev l x then
      let g := l.r.fig.grades.get x
      if g = (s.stream x).runningGrade then State.offerFrom x ls (s.spendTarget l.w.id x)
      else
        let f := s.targetFire x l.start
        s.setSlot x (some
          { state := .planned, kind := .grade, boundary := some l.w.id, boundaryPos := l.start, grade := g
            firePoint := f, commitPoint := f - (s.streamProfile x).commitLead })
    else State.offerFrom x ls s

/-- The planner's waiting targets offered to a stream: only in TRACKING, to a FREE slot of an INTACT stream (R108, R126). -/
def State.offerTargets (s : State) (x : Stream) : State :=
  if s.tracking && (s.stream x).slot.isNone && !(s.stream x).broken then State.offerFrom x s.boundaries s else s

/-- A PLANNED grade target whose grades no longer differ at its boundary is withdrawn, and the slot is freed (R84). -/
def State.withdrawTarget (s : State) (x : Stream) : State :=
  match (s.stream x).slot with
  | none => s
  | some v =>
    if v.state == .planned then
      match s.boundaries.find? fun b => some b.1.w.id == v.target? with
      | some (l, prev) => if s.gradeChanges prev l x then s else (s.setSlot x none).push [.slotFree x]
      | none => s
    else s

/-! ### Recipe triggers (R85, R86) -/

/-- The trigger point of an entry at a boundary position (R85). -/
def triggerPoint (b : Pos) (e : EntryProfile) : Pos := b - e.dFar - e.changeLead

/-- A boundary's triggers: entry number, point and whether it has fired. R81, R85 and R93 give them no order of their own; that
they are listed by ascending entry number is the model's choice (log 61). -/
def State.triggersAt (s : State) (l : Line) (prev : PrevFigures) : List (Nat × Pos × Bool) :=
  if Stream.all.any fun x => s.gradeChanges prev l x then
    entryNumbers.filterMap fun n =>
      match nth1 s.profile.entries n with
      | some e => if e.enable then some (n, triggerPoint l.start e, (nth1 l.w.triggerFired n).getD false) else none
      | none => none
  else []

/-- The triggers reached and not fired: point, entry number and order id. -/
def State.dueTriggers (s : State) : List (Pos × Nat × Nat) :=
  s.boundaries.flatMap fun x =>
    (s.triggersAt x.1 x.2).filterMap fun t =>
      if !t.2.2 && t.2.1 ≤ s.knife then some (t.2.1, t.1, x.1.w.id) else none

/-- The earlier of two triggers: ascending point, then ascending entry number (R85). -/
def earlierTrigger (x y : Pos × Nat × Nat) : Pos × Nat × Nat :=
  if x.1 < y.1 then x else if y.1 < x.1 then y else if x.2.1 ≤ y.2.1 then x else y

/-- The first trigger that is due fires (R85, acts 1 to 3); the rest follow. -/
def State.fireTrigger (s : State) : State :=
  match s.dueTriggers with
  | [] => s
  | t :: ts =>
    let t := ts.foldl earlierTrigger t
    let s := s.modifyWindow t.2.2 fun w => { w with triggerFired := modify1 w.triggerFired t.2.1 fun _ => true }
    let s := { s with plan := { s.plan with pendingChange := modify1 s.plan.pendingChange t.2.1 fun _ => some t.2.2 } }
    ((s.raise .stationChange).pinStart t.2.2).push [.triggers]

/-! ### Filling the window (R70, R78 to R80) -/

/-- The tools of a station that are in service (R129). -/
def inService (ts : List Tool) : Nat := (ts.filter fun t => t.state != .out).length

/-- Whether a layout can be placed with a station's tools in service (R53, R70, R131). -/
def StationRec.canPlace (st : StationRec) (l : Layout) : Bool :=
  l.slits.length ≤ inService st.slits && l.scores.length ≤ inService st.scores

/-- The figures the next order to enter is planned against (R68, R71). -/
def State.entryPrev (s : State) : Option PrevFigures :=
  match s.lines.getLast? with
  | some l => some l.figures
  | none => s.plan.tail

/-- A whole number of waste lengths that is at least `d` (R78, R79). -/
def wasteCeil (d : Int) (wg : Nat) : Nat := if wg = 0 then 0 else (d.toNat + wg - 1) / wg

/-- The position of the last waste cut released beyond `base`, or `base` (R78, R80). -/
def State.wasteFloor (s : State) (base : Pos) : Pos := max base s.dry.cursor

/-- The fire points of the grade splices of a stream that are in its slot or waiting, for the boundaries of the window (R80,
log 38). -/
def State.gradeFires (s : State) (x : Stream) : List Pos :=
  s.boundaries.filterMap fun b =>
    if s.targetInSlot x b.1.w.id then
      match (s.stream x).slot with
      | some v => if v.state == .fault then none else some v.firePoint
      | none => none
    else if s.targetWaits b.2 b.1 x then some (s.targetFire x b.1.start)
    else none

/-- The free count of a stream (R80). -/
def State.freeCount (s : State) (x : Stream) : Pos :=
  match s.gradeFires x with
  | [] => s.streamPos x
  | f :: fs => max (s.streamPos x) (fs.foldl max f + (s.streamProfile x).doneWindow)

/-- The required start of an order against the figures before it: the greatest term of its grade splices (R79, steps 1, 2). -/
def State.requiredStart (s : State) (prev : PrevFigures) (r : OrderRec) : Option Pos :=
  let terms := (Stream.all.filter fun x => (s.streamProfile x).active && prev.grades.get x != r.fig.grades.get x).map
    fun x => s.freeCount x + (s.streamProfile x).commitLead + s.seamOffset x + s.profile.line.g
  match terms with
  | [] => none
  | t :: ts => some (ts.foldl max t)

/-- B_min of a gap decision (R79, step 3; R80). -/
def State.minStart (s : State) (req : Option Pos) : Pos :=
  let base := s.plan.w0
  let floor := if s.plan.window.isEmpty then max (s.wasteFloor base) s.knife else s.wasteFloor base
  match req with
  | some b => max b floor
  | none => floor

/-- The gap decision: the state after a pin it may need, and the number of waste sheets before the order (R79). -/
def State.gapDecision (s : State) (prev : PrevFigures) (r : OrderRec) : State × Nat :=
  let req := s.requiredStart prev r
  if s.minStart req ≤ s.plan.w0 then (s, 0)
  else
    let s :=
      match s.plan.window.getLast? with
      | some k => s.pinEnd k.id
      | none => s
    (s, wasteCeil (s.minStart req - s.plan.w0) s.profile.line.wg)

/-- The waste sheets before an order placed without a predecessor: the first point of the grid of W0 not less than W0,
L and the last waste cut released (R78, log 12). -/
def State.firstGap (s : State) : Nat :=
  wasteCeil (max (s.wasteFloor s.plan.w0) s.knife - s.plan.w0) s.profile.line.wg

/-- A blocked order is written with its cause; BLOCKED is raised when the cause changes from NONE (R50, R70). -/
def State.block (s : State) (r : OrderRec) (b : Blocked) (st : Option Station) : State :=
  (s.modifyOrder r.fig.id fun r => { r with blocked := b, station := st }).raiseIf (r.blocked == .none) .blocked

/-- An order of the window whose start L has reached enters CUTTING (R49). -/
def State.startCutting (s : State) (id : Nat) : State :=
  match s.order? id with
  | some r =>
    if r.phase == .planned && r.p.getD 0 ≤ s.knife then
      (s.modifyOrder id fun r => { r with phase := .cutting }).raise .started
    else s
  | none => s

/-- Every order of the window is tried for CUTTING at a counter update (R49). -/
def State.cutting (s : State) : State := s.plan.window.foldl (fun t w => t.startCutting w.id) s

/-- The swap an order enters with, given its station: that of its boundary, or that of an order without a predecessor
(R88, R149). -/
def State.entrySwap (s : State) (st : Station) : Option PrevFigures → Swap
  | some p => s.swapAt p st {}
  | none => { kind := .first, drop := some { station := .a }, lifts := s.downStations.map fun x => { station := x } }

/-- An order that is entering put at the end of the window, behind `waste` waste sheets; waste cuts already taken beyond
W0 become those of its gap (R78, R80). -/
def State.joinWindow (s : State) (id : Nat) (prev : Option PrevFigures) (st : Station) (waste : Nat) : State :=
  let gap := waste * s.profile.line.wg
  let w : WindowOrder :=
    { id := id, firstPlaced := prev.isNone, prev := if s.plan.window.isEmpty then prev else none
      gapCuts := s.dry.wasteCuts, swap := s.entrySwap st prev }
  let s := s.modifyOrder id fun r =>
    { r with gap := some gap, wasteBefore := waste, p := some (s.plan.w0 + (gap : Nat)), n := some r.fig.t }
  { s with plan := { s.plan with window := s.plan.window ++ [w] }, dry := { s.dry with wasteCuts := 0 } }

/-- The order that has joined counted, and its notices (R70, R74, R78, R49). An order's entry is none of R69's events: that a
recomputation becomes due after it all the same, before the next QUEUED record is examined, so that the targets of the new
boundary are handed in or served before the next gap decision, is the model's choice (log 63). -/
def State.countEntered (s : State) (id : Nat) (hasGap : Bool) : State :=
  let s := (s.writeLines ((s.lines.filter fun l => l.w.id == id).map
    (s.countLine none (s.spansUpTo id s.lines)))).followW0
  (((s.raiseIf hasGap .gap).raise .planned).startCutting id).replan

/-- The gap decision of an entering order (R78, R79). -/
def State.entryGap (s : State) (r : OrderRec) : Option PrevFigures → State × Nat
  | some p => s.gapDecision p r
  | none => (s, s.firstGap)

/-- An order taken into the window: its record, its place, its first count, its notices (R70, R78, R79). -/
def State.takeOrder (s : State) (r : OrderRec) (prev : Option PrevFigures) (st : Station) : State :=
  let id := r.fig.id
  let s := State.watchQueued s
    (s.modifyOrder id fun r => { r with phase := .planned, blocked := .none, station := some st })
  let g := s.entryGap r prev
  (g.1.joinWindow id prev st g.2).countEntered id (g.2 != 0 && g.1.profile.line.wg != 0)

/-- The window filled by at most one order, or the first QUEUED order blocked (R70). What follows an entry, the filling by the
next order included, comes at the recomputation it makes due (log 63). -/
def State.fillOne (s : State) : State :=
  if s.plan.window.length < Config.windowMax then
    match s.book.find? fun r => r.phase == .queued with
    | none => s
    | some r =>
      let prev := s.entryPrev
      let st := chooseStation prev r.fig.layout
      if !s.profile.formatPasses r.fig then s.block r .format none
      else if !(s.station st).canPlace r.fig.layout then s.block r .heads (some st)
      else s.takeOrder r prev st
  else s

/-! ### Recomputation (R69) -/

/-- The acts that follow a recomputation: slots whose commit point is reached (R83, R107), triggers reached (R85), the
stations' demands (R130), lapses (R148), and the release test (R156). The manual orders none of these among themselves:
that the commit points of several streams are taken from S1 to S5, so that a pin by an earlier stream can move a later one's
commit point away, is the model's choice (log 66), that station A's demand is taken before station B's is log 51, that demands
come before lapses and lapses before the release test is log 52. -/
def recomputeActs : List Task :=
  Stream.all.map Task.commitTest ++ [.triggers, .demand .a, .demand .b, .lapse .a, .lapse .b, .release]

/-- The targets of the window's boundaries set anew: in the slots, withdrawn, and handed in (R82 to R84). -/
def State.setTargets (s : State) : State :=
  Stream.all.foldl State.offerTargets (Stream.all.foldl State.withdrawTarget s.refreshSlots)

/-- The station and the swap of each order of the window (R87, R88). -/
def State.setSwaps (s : State) : State := s.writeLines (s.replanLines none s.lines)

/-- One recomputation: the orders placed, counted and extended; W0; the targets and the swaps of every boundary, with the
spans of the pinned ones; and the filling of the window (R69). In SETUP none is made. -/
def State.recompute (s : State) : State :=
  if s.tracking then
    let s := (s.writeLines (s.countLines none [] s.lines)).followW0
    s.setTargets.setSwaps.insertPinnedSpans.fillOne.push recomputeActs
  else s

/-! ### Amending and cancelling against the plan (R52, R53, R56, R57, R90) -/

/-- Whether a line's station setup has begun (R52). -/
def Line.setupBegun (l : Line) : Bool := l.w.setupOn.isSome && l.w.setupOn == l.r.station

/-- The station a planned order would use with a new layout (R53, R87). -/
def State.stationFor (s : State) (l : Line) (layout : Layout) : Station :=
  l.chosenStation (prevFigures (lineBefore l.w.id none s.lines) l) layout

/-- The plan's boundary at an order's start made new: targets, triggers, swap and span dissolved (R90). -/
def WindowOrder.dissolve (w : WindowOrder) : WindowOrder :=
  { w with
    targetSpent := ⟨false, false, false, false, false⟩, triggerFired := List.replicate 12 false
    swap := {}, replan := none, spanInserted := false }

/-- The PLANNED targets of dissolved boundaries withdrawn from a stream's slot (R84). -/
def State.dropTargets (s : State) (ids : List Nat) (x : Stream) : State :=
  match (s.stream x).slot with
  | some v =>
    if v.state == .planned && ids.any fun i => v.target? == some i then
      (s.setSlot x none).push [.slotFree x]
    else s
  | none => s

/-- A PLANNED order whose start is not pinned leaves the window; its successor takes its start, and the new boundary its
station choice and swap, before the recomputation (R56, R90). -/
def State.cancelUnpinned (s : State) (id : Nat) : State :=
  let c := s.lines.find? fun l => l.w.id == id
  let after := lineAfter id s.lines
  let ids := id :: (after.map fun l => l.w.id).toList
  let s :=
    match c, after with
    | some c, some k =>
      (s.modifyOrder k.w.id fun r =>
        { r with p := c.r.p, gap := c.r.gap, wasteBefore := c.r.wasteBefore }).modifyWindow k.w.id WindowOrder.dissolve
    | _, _ => s
  let s := { s with plan := { s.plan with window := s.plan.window.filter fun w => w.id != id } }
  let s := s.modifyOrder id fun r =>
    { r with
      phase := .cancelled, blocked := .none, station := none, p := none, e := none, n := none, gap := none
      rejects := none, wasteBefore := 0, result := some (resultOf .cancelledByPlan r.fig.t 0) }
  (Stream.all.foldl (fun t x => t.dropTargets ids x) s.setSwaps.shiftPlan).replan

/-- An order cancelled after start: its end is pinned without its margin and it keeps its span (R57, R91). R168 makes the close
test when a cut leaves the set or is dropped and when a head departs; that it is made here too, so that a head whose cuts have
all been dealt with by then leaves the window at once (R58), is the model's choice (log 69). -/
def State.cancelAfterStart (s : State) (id : Nat) : State :=
  let s := s.modifyOrder id fun r =>
    { r with phase := .cancelled, result := some (resultOf .cancelledAfterStart r.fig.t r.counts.good) }
  ((s.pinEnd id false).replan).push [.close id]

/-- A QUEUED order withdrawn (R55). -/
def State.cancelQueued (s : State) (id : Nat) : State :=
  let s' := s.modifyOrder id fun r =>
    { r with
      phase := .cancelled, blocked := .none, station := none
      result := some (resultOf .cancelledByPlan r.fig.t 0) }
  (State.watchQueued s s').replan

end Sys2Proof.Machine
end

