-- ==== Sys2Proof/Machine/Slitter.lean ====
section
/-! DEFINITION. The Slitter Station Unit: demand, assignment, setups, tool service, lifts and drops, late swaps (06). -/

namespace Sys2Proof.Machine

/-! ### Tools and the move list (R129, R134) -/

def StationRec.tools (r : StationRec) : ToolKind → List Tool
  | .slit => r.slits
  | .score => r.scores

def StationRec.setTools (r : StationRec) (k : ToolKind) (ts : List Tool) : StationRec :=
  match k with
  | .slit => { r with slits := ts }
  | .score => { r with scores := ts }

/-- A station's tool of a kind and number. -/
def State.tool? (s : State) (st : Station) (k : ToolKind) (n : Nat) : Option Tool := nth1 ((s.station st).tools k) n

/-- A station's tool changed. -/
def State.modifyTool (s : State) (st : Station) (k : ToolKind) (n : Nat) (f : Tool → Tool) : State :=
  let r := s.station st
  s.setStation st (r.setTools k (modify1 (r.tools k) n f))

/-- Whether a tool is assigned: MOVING or PLACED (R129). -/
def Tool.assigned (t : Tool) : Bool := t.state == .moving || t.state == .placed

/-- Whether a measured position lies within place_tolerance of a target (R133, R136). -/
def within (tolerance measured target : Nat) : Bool := measured ≤ target + tolerance && target ≤ measured + tolerance

/-- Whether an entry is that of a tool. -/
def MoveEntry.isFor (m : MoveEntry) (st : Station) (k : ToolKind) (n : Nat) : Bool :=
  m.station == st && m.kind == k && m.number == n

/-- The move list without the entries that `p` picks. -/
def State.dropMoves (s : State) (p : MoveEntry → Bool) : State :=
  { s with slitter := { s.slitter with moves := s.slitter.moves.filter fun m => !p m } }

/-- Untaken entries joined at the end of the list; MOVES_READY is raised when there are any (R134). -/
def State.joinMoves (s : State) (ms : List MoveEntry) : State :=
  ({ s with slitter := { s.slitter with moves := s.slitter.moves ++ ms } }).raiseIf (!ms.isEmpty) .movesReady

/-- A tool that was MOVING becomes UNKNOWN, its target absent (R133, R139, R151, log 23). -/
def Tool.lose (t : Tool) : Tool := if t.state == .moving then { t with state := .unknown, target := none } else t

/-- Every MOVING tool of a station made UNKNOWN, and the station's entries removed (R133, R137, R139, R143). -/
def State.loseMoves (s : State) (st : Station) : State :=
  let r := s.station st
  (s.setStation st { r with slits := r.slits.map Tool.lose, scores := r.scores.map Tool.lose }).dropMoves
    fun m => m.station == st

/-! ### Assignment (R131) -/

/-- The positions given to the tools of one kind, ascending, skipping tools that are OUT (R131). -/
def assign : List Tool → List Nat → List (Option Nat)
  | [], _ => []
  | t :: ts, ps =>
    if t.state == .out then none :: assign ts ps
    else
      match ps with
      | [] => none :: assign ts []
      | p :: ps => some p :: assign ts ps

/-- A tool under a new assignment, and whether a move for it joins the list. `keep` says that a tool whose target is
unchanged keeps its state, attempts and entry (R137); at a setup start it does not (R133, steps 4 and 5). That the attempts of a
tool newly PARKED at a recomputed assignment become 0, as R133 step 4 has them at a setup start, is the model's choice (log
60). -/
def Tool.reassign (t : Tool) (tolerance : Nat) (keep : Bool) (p : Option Nat) : Tool × Bool :=
  if t.state == .out then (t, false)
  else
    match p with
    | none => ({ t with state := .parked, target := none, attempts := 0 }, false)
    | some x =>
      if keep && t.assigned && t.target == some x then (t, false)
      else if t.state == .placed && (t.measured.map fun m => within tolerance m x).getD false then
        ({ t with target := some x, attempts := 0 }, false)
      else ({ t with state := .moving, target := some x, attempts := 0 }, true)

/-- The tools of one kind under a new assignment. -/
def reassignTools (tolerance : Nat) (keep : Bool) (ts : List Tool) (ps : List Nat) : List (Tool × Bool) :=
  (ts.zip (assign ts ps)).map fun x => x.1.reassign tolerance keep x.2

/-- The entries that join for the tools of one kind. -/
def joining (st : Station) (k : ToolKind) (ts : List (Tool × Bool)) : List MoveEntry :=
  (ts.zipIdx 1).filterMap fun x =>
    if x.1.2 then some ⟨st, k, x.2, x.1.1.target.getD 0, 1, false⟩ else none

/-- Whether an entry's tool still owes that move: it is MOVING and no new move for it joins. -/
def stillOwed (st : Station) (slits scores : List (Tool × Bool)) (m : MoveEntry) : Bool :=
  if m.station == st then
    match nth1 (match m.kind with | .slit => slits | .score => scores) m.number with
    | some x => x.1.state == .moving && !x.2
    | none => false
  else true

/-- A layout assigned to a station's tools: tools, entries removed and entries joined (R131, R133, R137). -/
def State.assignLayout (s : State) (st : Station) (l : Layout) (keep : Bool) : State :=
  let r := s.station st
  let tol := s.profile.slitter.placeTolerance
  let slits := reassignTools tol keep r.slits l.slits
  let scores := reassignTools tol keep r.scores l.scores
  ((s.setStation st { r with slits := slits.map Prod.fst, scores := scores.map Prod.fst }).dropMoves
    fun m => !stillOwed st slits scores m).joinMoves (joining st .slit slits ++ joining st .score scores)

/-- Whether a station owes a move. -/
def StationRec.owes (r : StationRec) : Bool := (r.slits ++ r.scores).any fun t => t.state == .moving

/-- A station becomes FAILED: its layout cannot be placed (R133, R137). -/
def State.failStation (s : State) (st : Station) : State :=
  let s := s.loseMoves st
  (s.setStation st { s.station st with state := .failed, current := .fail }).raise .setupFailed

/-! ### Late swaps (R145 to R148) -/

/-- The first cut of an order at which a swap can be placed again: X - D_A is at least L + swap_lead (R147). -/
def State.replanCut (s : State) (r : OrderRec) : Option Pos :=
  let cuts := (List.range (r.n.getD 0)).map fun k => cutPosition (r.p.getD 0) r.fig.sf (k + 1)
  cuts.find? fun x => s.knife + s.profile.line.swapLead ≤ x - s.profile.slitter.dA

/-- A late swap lapses: its claim is closed at E and its order is marked (R148). The station's demand is set anew at the
recomputation this makes due (R130), behind the DROP that R149 then plans. -/
def State.lapseSwap (s : State) (st : Station) (l : LateSwap) : State :=
  let e := ((s.order? l.order).bind OrderRec.e).getD l.position
  let s := s.closeClaim (.slitNotReady st) e
  let s := s.modifyWindow l.order fun w => { w with lapsed := true }
  (s.setStation st { s.station st with late := none }).replan

/-- A late swap resolved at cut X: the pair is planned again, the claim is closed at X (R147, steps 1 to 4). -/
def State.resolveSwap (s : State) (st : Station) (l : LateSwap) (x : Pos) : State :=
  let pair : Replan := { x := x, drop := { station := st }, lift := l.old.map fun o => { station := o } }
  let s := s.modifyWindow l.order fun w => { w with replan := some pair }
  let s := s.closeClaim (.slitNotReady st) x
  let s :=
    if st = .a && l.old = some .b then s.insertExtent (.closed x (x + s.doubleSlitLength) .doubleSlit) else s
  (s.setStation st { s.station st with late := none }).replan

/-- Whether a station is ready for an order: READY with that order's layout (R128). -/
def State.readyFor (s : State) (st : Station) (id : Nat) : Bool :=
  (s.station st).state == .ready && (s.order? id).isSome &&
    (s.station st).layout == (s.order? id).map fun r => r.fig.layout

/-- The late swap of a station that has become ready for its order is resolved, or lapses where no cut qualifies (R147,
R148). -/
def State.settleSwap (s : State) (st : Station) : State :=
  match (s.station st).late with
  | none => s
  | some l =>
    if s.readyFor st l.order then
      match (s.order? l.order).bind s.replanCut with
      | some x => s.resolveSwap st l x
      | none => s.lapseSwap st l
    else s

/-- The lapse test (R148). -/
def State.lapseTest (s : State) (st : Station) : State :=
  match (s.station st).late with
  | none => s
  | some l =>
    match s.order? l.order with
    | some r =>
      if r.e.getD 0 - s.profile.slitter.dA < s.knife + s.profile.line.swapLead then s.lapseSwap st l else s
    | none => s.lapseSwap st l

/-- A pending swap record withdrawn; the released ones stay. -/
def SwapRec.withdraw (r : SwapRec) : SwapRec := if r.status == .pending then { r with status := .withdrawn } else r

/-- Whether a LIFT is the pair of a swap's DROP: not that of an order without a predecessor, nor that of the DROP's own
station (R88, R149, log 15). -/
def Swap.paired (w : Swap) (l : SwapRec) : Bool :=
  w.kind != .first && w.drop.map SwapRec.station != some l.station

/-- A swap whose DROP goes late: the DROP and its unreleased pair withdrawn (R146, step 2). -/
def Swap.goLate (w : Swap) : Swap :=
  { w with drop := w.drop.map SwapRec.withdraw, lifts := w.lifts.map fun l => if w.paired l then l.withdraw else l }

/-- The old station of a swap whose DROP goes late: that of its unreleased pair (R146, step 2). -/
def Swap.oldStation (w : Swap) : Option Station :=
  (w.lifts.find? fun l => w.paired l && l.status == .pending).map SwapRec.station

/-- The same for a replanned pair. -/
def Replan.goLate (p : Replan) : Replan := { p with drop := p.drop.withdraw, lift := p.lift.map SwapRec.withdraw }

def Replan.oldStation (p : Replan) : Option Station :=
  match p.lift with
  | some l => if l.status == .pending then some l.station else none
  | none => none

/-- A late swap is taken for the DROP of a station at an order's start, or of its replanned pair (R146). -/
def State.takeLateSwap (s : State) (st : Station) (id : Nat) (replanned : Bool) : State :=
  let s :=
    match (s.station st).late with
    | some l => s.lapseSwap st l
    | none => s
  let s := s.pinStart id
  match s.windowOrder? id, s.order? id with
  | some w, some r =>
    let old := if replanned then w.replan.bind Replan.oldStation else w.swap.oldStation
    let pos := if replanned then (w.replan.map Replan.x).getD (r.p.getD 0) else r.p.getD 0
    let s := s.modifyWindow id fun w =>
      if replanned then { w with replan := w.replan.map Replan.goLate } else { w with swap := w.swap.goLate }
    let s := s.insertExtent (.opened pos .slitNotReady (.slitNotReady st))
    let s := s.setStation st { s.station st with late := some ⟨id, old, pos⟩ }
    (s.raise .swapLate).replan
  | _, _ => s

/-! ### Setup (R132, R133, R137, R138) -/

/-- A station becomes READY by setup (R138); a late swap it holds is settled. -/
def State.becomeReady (s : State) (st : Station) : State :=
  ((s.setStation st { s.station st with state := .ready, current := .pass }).raise .setupDone).settleSwap st

/-- A setup starts for a demand (R133, steps 1 to 6). -/
def State.startSetup (s : State) (st : Station) (d : Demand) : State :=
  let r := s.station st
  let s := s.setStation st { r with
    previous := r.current, current := .none, layout := some d.layout, order := some d.order }
  let s := s.modifyWindow d.order fun w => { w with setupOn := some st }
  let s := s.dropMoves fun m => m.station == st
  if (s.station st).canPlace d.layout then
    let s := s.assignLayout st d.layout false
    if (s.station st).owes then s.setStation st { s.station st with state := .setting } else s.becomeReady st
  else s.failStation st

/-- The assignment of the held layout computed again after a tool has left service (R137). -/
def State.reassignHeld (s : State) (st : Station) : State :=
  match (s.station st).layout with
  | none => s
  | some l =>
    if (s.station st).canPlace l then
      let s := s.assignLayout st l true
      if (s.station st).owes then s.setStation st { s.station st with state := .setting }
      else if (s.station st).state == .setting then s.becomeReady st
      else s
    else s.failStation st

/-- A setup starts if the station has a demand (R132). -/
def State.setupForDemand (s : State) (st : Station) : State :=
  match (s.station st).demand with
  | some d => s.startSetup st d
  | none => s

/-! ### Demand (R130, R139) -/

/-- Whether a drop of a station is still to come for an order of the window (R130). -/
def State.dropToCome (s : State) (st : Station) (w : WindowOrder) : Bool :=
  let isPending := fun (r : SwapRec) => r.station == st && r.status == .pending
  (w.swap.drop.map isPending).getD false || (w.replan.map fun p => isPending p.drop).getD false ||
  s.dry.released.any (fun r => r.kind == .drop && r.station == some st && r.order == w.id) ||
  ((s.station st).late.map fun l => l.order == w.id).getD false

/-- The demand of a station as the plan gives it (R130). -/
def State.demandOf (s : State) (st : Station) : Option Demand :=
  (s.lines.find? fun l => s.dropToCome st l.w).map fun l => ⟨l.w.id, l.r.fig.layout⟩

/-- What a change of demand does to a station (R132, R139, log 28). -/
def State.demandChanged (s : State) (st : Station) (new : Option Demand) : State :=
  let r := s.station st
  match r.state, new with
  | .idle, none => s
  | .idle, some d => s.startSetup st d
  | .setting, none =>
    let s := s.loseMoves st
    s.setStation st { s.station st with state := .idle }
  | .setting, some d =>
    if r.layout = some d.layout then
      (s.setStation st { r with order := some d.order }).modifyWindow d.order fun w => { w with setupOn := some st }
    else s.startSetup st d
  | .ready, none => s
  | .ready, some d =>
    if r.layout = some d.layout then
      let s := s.setStation st { r with order := some d.order, previous := r.current, current := .pass }
      let s := s.modifyWindow d.order fun w => { w with setupOn := some st }
      (s.raise .setupDone).settleSwap st
    else s.startSetup st d
  | .failed, none => s.setStation st { r with state := .idle }
  | .failed, some d => s.startSetup st d
  | .down, _ => s

/-- A station's demand set anew; a change of it is acted on (R130). In SETUP there is no demand (R151). -/
def State.setDemand (s : State) (st : Station) : State :=
  if s.tracking then
    let new := s.demandOf st
    if new = (s.station st).demand then s
    else (s.setStation st { s.station st with demand := new }).demandChanged st new
  else s

/-! ### Down and up (R143, R144) -/

/-- A DROP of a station is executed or declared unconfirmed (R143, log 24). -/
def State.dropStation (s : State) (st : Station) : State :=
  let r := s.station st
  let s :=
    if r.state == .ready || r.state == .down then s
    else (s.loseMoves st).insertExtent
      (.opened (s.knife + s.stationDistance st) .toolLost (.toolLost st))
  (s.setStation st { s.station st with state := .down }).push [.demand st]

/-- A LIFT of a station is executed or declared unconfirmed (R144). -/
def State.liftStation (s : State) (st : Station) : State :=
  if (s.station st).state == .down then
    let s := s.setStation st { s.station st with state := .idle }
    (s.closeClaim (.toolLost st) (s.knife + s.stationDistance st)).setupForDemand st
  else s

/-! ### Tool reports and service (R136, R137, R140, R141) -/

/-- A tool goes OUT: target absent, entry removed. -/
def State.retireTool (s : State) (st : Station) (k : ToolKind) (n : Nat) : State :=
  (s.modifyTool st k n fun t => { t with state := .out, target := none }).dropMoves fun m => m.isFor st k n

/-- A measured position reported for a MOVING tool (R136, R137). -/
def State.placeTool (s : State) (st : Station) (k : ToolKind) (n measured : Nat) (t : Tool) : State :=
  let target := t.target.getD 0
  if within s.profile.slitter.placeTolerance measured target then
    let s := s.modifyTool st k n fun t => { t with state := .placed, measured := some measured }
    let s := s.dropMoves fun m => m.isFor st k n
    if (s.station st).state == .setting && !(s.station st).owes then s.becomeReady st else s
  else
    let attempts := t.attempts + 1
    let s := s.modifyTool st k n fun t => { t with attempts := attempts, measured := some measured }
    if attempts < s.profile.slitter.placeAttempts then
      (s.dropMoves fun m => m.isFor st k n).joinMoves [⟨st, k, n, target, attempts + 1, false⟩]
    else (((s.retireTool st k n).raise .toolOut).reassignHeld st).replan

/-- A tool taken out of service by Tool Out (R140). -/
def State.takeToolOut (s : State) (st : Station) (k : ToolKind) (n : Nat) (t : Tool) : State :=
  let r := s.station st
  let s := (s.retireTool st k n).modifyTool st k n fun t => { t with attempts := 0 }
  let s :=
    match r.state with
    | .idle => s
    | .failed => s
    | .setting => s.reassignHeld st
    | .ready =>
      if t.assigned then if r.demand.isSome then s.setupForDemand st else s.reassignHeld st
      else s
    | .down =>
      if t.assigned then s.insertExtent (.opened (s.knife + s.stationDistance st) .toolLost (.toolLost st)) else s
  s.replan

/-- A tool returned to service by Tool In (R141). -/
def State.takeToolIn (s : State) (st : Station) (k : ToolKind) (n : Nat) : State :=
  let s := s.modifyTool st k n fun t => { t with state := .unknown, target := none, measured := none, attempts := 0 }
  let s :=
    if (s.station st).state == .failed then
      if (s.station st).demand.isSome then s.setupForDemand st
      else s.setStation st { s.station st with state := .idle }
    else s
  s.replan

end Sys2Proof.Machine
end

