-- ==== Sys2Proof/Machine/Dry.lean ====
section
/-! DEFINITION. The Dry Action List: the pending plan, release, reports, unconfirmed records, overruns, the close test and
the departure of orders (07). -/

namespace Sys2Proof.Machine

/-! ### The pending plan (R153, R154), derived from the window -/

/-- Where a pending record comes from: the swap at an order's start, a replanned pair, the gap before an order, an
order's cuts, the waste grid beyond W0, or the swap of an order that has left the window. -/
inductive Source where
  | swap | replan | gap | cuts | waste | stray
  deriving DecidableEq, Repr

/-- A record of the pending plan. `order` is the order its release or overrun acts on; a waste cut of a gap names that of
the order behind the gap here, and id 0 once released. -/
structure PendingRec where
  kind : ActionKind
  source : Source
  position : Pos
  order : Nat
  station : Option Station := none
  sheet : Option Nat := none
  overrun : Bool := false
  deriving DecidableEq, Repr

/-- The rank of a kind at equal positions: LIFT, DROP, CUT (R156). -/
def ActionKind.rank : ActionKind → Nat
  | .lift => 0
  | .drop => 1
  | .cut => 2

/-- Whether a record comes after another in release order (R156). -/
def PendingRec.after (x y : PendingRec) : Bool :=
  if x.position = y.position then
    if x.kind.rank = y.kind.rank then x.station == some .b && y.station == some .a else y.kind.rank < x.kind.rank
  else y.position < x.position

/-- The first of some records in release order (R156). -/
def firstOf : List PendingRec → Option PendingRec
  | [] => none
  | x :: xs => some (xs.foldl (fun m y => if m.after y then y else m) x)

/-- The pending records of a swap record at a point of the plan (R88, R147). -/
def State.swapRecs (s : State) (source : Source) (kind : ActionKind) (order : Nat) (at_ : Pos) (rs : List SwapRec) :
    List PendingRec :=
  (rs.filter fun r => r.status == .pending).map fun r =>
    { kind := kind, source := source, position := at_ - s.stationDistance r.station, order := order
      station := some r.station, overrun := r.overrun }

/-- The pending LIFT and DROP records of a line: those of the swap at its start and of its replanned pair. -/
def State.moveRecs (s : State) (l : Line) : List PendingRec :=
  s.swapRecs .swap .lift l.w.id l.start l.w.swap.lifts ++ s.swapRecs .swap .drop l.w.id l.start l.w.swap.drop.toList ++
  match l.w.replan with
  | some p => s.swapRecs .replan .lift l.w.id p.x p.lift.toList ++ s.swapRecs .replan .drop l.w.id p.x [p.drop]
  | none => []

/-- The next waste cut of the gap before a line (R78). -/
def State.gapRec (s : State) (l : Line) : List PendingRec :=
  if l.w.gapCuts < l.r.wasteBefore then
    [{ kind := .cut, source := .gap, order := l.w.id
       position := l.start - (l.r.gap.getD 0 : Nat) + (((l.w.gapCuts + 1) * s.profile.line.wg : Nat) : Int) }]
  else []

/-- The next cut of a line (R72). -/
def Line.cutRec (l : Line) : List PendingRec :=
  if l.w.cuts < l.r.n.getD 0 then
    [{ kind := .cut, source := .cuts, order := l.w.id, position := l.cut (l.w.cuts + 1), sheet := some (l.w.cuts + 1) }]
  else []

/-- The next waste cut beyond W0 (R71). -/
def State.wasteRec (s : State) : PendingRec :=
  { kind := .cut, source := .waste, order := 0
    position := s.plan.w0 + (((s.dry.wasteCuts + 1) * s.profile.line.wg : Nat) : Int) }

/-- A LIFT that has outlasted its order's place in the window (log 30). -/
def StrayLift.pendingRec (x : StrayLift) : PendingRec :=
  { kind := .lift, source := .stray, position := x.position, order := x.order, station := some x.station
    overrun := x.overrun }

/-- The records that may come first in the pending plan: every LIFT and DROP, and the next cut of each run of cuts. In
SETUP the pending plan is empty (R172). -/
def State.candidates (s : State) : List PendingRec :=
  if s.tracking then
    s.dry.strays.map StrayLift.pendingRec ++
      s.lines.flatMap (fun l => s.moveRecs l ++ s.gapRec l ++ l.cutRec) ++ [s.wasteRec]
  else []

/-- The number of records in the pending plan; of the unending waste cuts beyond W0, those up to 2^40 - 1 (R171, log 11). -/
def State.pendingCount (s : State) : Nat :=
  if s.tracking then
    s.dry.strays.length + (s.lines.map fun l =>
      (s.moveRecs l).length + (l.r.wasteBefore - l.w.gapCuts) + (l.r.n.getD 0 - l.w.cuts)).sum +
    (if s.profile.line.wg = 0 then 0
     else ((Config.counterMax : Int) - s.plan.w0).toNat / s.profile.line.wg - s.dry.wasteCuts)
  else 0

/-! ### The plan after a record has left the pending plan -/

/-- A swap record of a station with its status changed. -/
def SwapRec.mark (st : Option Station) (v : SwapStatus) (r : SwapRec) : SwapRec :=
  if some r.station == st && r.status == .pending then { r with status := v } else r

/-- A window order whose LIFT or DROP has been released. -/
def WindowOrder.releaseMove (w : WindowOrder) (p : PendingRec) : WindowOrder :=
  let m := SwapRec.mark p.station .released
  match p.source, p.kind with
  | .swap, .lift => { w with swap := { w.swap with lifts := w.swap.lifts.map m } }
  | .swap, .drop => { w with swap := { w.swap with drop := w.swap.drop.map m } }
  | .replan, .lift => { w with replan := w.replan.map fun q => { q with lift := q.lift.map m } }
  | .replan, .drop => { w with replan := w.replan.map fun q => { q with drop := m q.drop } }
  | _, _ => w

/-- A window order whose LIFT has been marked overrun (R167). -/
def WindowOrder.markOverrun (w : WindowOrder) (p : PendingRec) : WindowOrder :=
  let m := fun (r : SwapRec) => if some r.station == p.station && r.status == .pending then { r with overrun := true } else r
  match p.source with
  | .swap => { w with swap := { w.swap with lifts := w.swap.lifts.map m } }
  | .replan => { w with replan := w.replan.map fun q => { q with lift := q.lift.map m } }
  | _ => w

/-- A cut leaves the pending plan: the next cut of its run takes its place. -/
def State.passCut (s : State) (p : PendingRec) : State :=
  match p.source with
  | .gap => s.modifyWindow p.order fun w => { w with gapCuts := w.gapCuts + 1 }
  | .cuts => s.modifyWindow p.order fun w => { w with cuts := w.cuts + 1 }
  | .waste => { s with dry := { s.dry with wasteCuts := s.dry.wasteCuts + 1 } }
  | .swap => s
  | .replan => s
  | .stray => s

/-! ### Sequence numbers and the released set (R155, R160) -/

/-- The untaken records of the released set (R160). -/
def DryList.untaken (d : DryList) : Nat := (d.released.filter fun r => !r.taken).length

/-- The counter after a number has been given (R155). -/
def DryList.advance (d : DryList) : DryList :=
  if d.sequence = Config.sequenceMax then { d with sequence := 1, wrapped := true } else { d with sequence := d.sequence + 1 }

/-- Whether a number has been given out (R155). -/
def DryList.givenOut (d : DryList) (q : Nat) : Bool := d.wrapped || (1 ≤ q && q < d.sequence)

/-- A record joins the released set untaken, with the next sequence number; ACTIONS_READY is raised when the number of
untaken records rises from 0 (R156, R160). -/
def State.joinReleased (s : State) (r : ActionRec) : State :=
  let first := s.dry.untaken == 0
  let d := { s.dry.advance with released := s.dry.released ++ [{ r with sequence := s.dry.sequence, taken := false }] }
  ({ s with dry := d }).raiseIf first .actionsReady

/-- The deadline of a record released now (R156). -/
def State.deadline (s : State) (position : Pos) : Pos := max position s.knife + (s.profile.line.execTolerance : Int)

/-! ### Release of a cut (R158, R159) -/

/-- What a cut's release fixes: its disposition, its causes and whether it is MERGED (R158). -/
def State.dispose (s : State) (p : PendingRec) : Disposition × List Cause × Bool :=
  let cancelled := ((s.order? p.order).map fun r => r.phase == .cancelled).getD false
  if p.source != .cuts || cancelled then (.waste, [], false)
  else if s.dry.merge then (.reject, s.causesOver s.dry.cursor p.position, true)
  else if s.overlapped s.dry.cursor p.position then (.reject, s.causesOver s.dry.cursor p.position, false)
  else (.good, [], false)

/-- The window order after a cut of it has been released: cut and reject counts, and the stack state (R159, R73). -/
def WindowOrder.releaseCut (w : WindowOrder) (d : Disposition) (q : Nat) : WindowOrder :=
  match d with
  | .good =>
    if q ≤ w.stackCount + 1 then { w with stackNumber := w.stackNumber + 1, stackCount := 0 }
    else { w with stackCount := w.stackCount + 1 }
  | .reject => { w with rejectsReleased := w.rejectsReleased + 1 }
  | .waste => w

/-- The record a cut's release makes (R153, R158, R159). -/
def State.cutAction (s : State) (p : PendingRec) : ActionRec :=
  let f := s.dispose p
  let w := s.windowOrder? p.order
  let r := s.order? p.order
  let good := f.1 == .good
  { kind := .cut, sequence := 0, position := p.position, deadline := s.deadline p.position
    order := if p.source == .cuts then p.order else 0
    sheet := p.sheet, sheetStart := some s.dry.cursor, disposition := some f.1
    stackNumber := if good then w.map WindowOrder.stackNumber else none
    sheetInStack := if good then w.map fun w => w.stackCount + 1 else none
    lastOfStack := good && (match w, r with
      | some w, some r => r.fig.q ≤ w.stackCount + 1
      | _, _ => false)
    lastOfOrder := p.source == .cuts && p.sheet == r.bind OrderRec.n
    merged := f.2.2, causes := f.2.1 }

/-- A cut released (R158, R159), handed to the planner (R157); behind the recomputation the release test is made again, ahead
of every act that was due before (R156). -/
def State.releaseCut (s : State) (p : PendingRec) : State :=
  let act := s.cutAction p
  let q := ((s.order? p.order).map fun r => r.fig.q).getD 1
  let s := s.joinReleased act
  let s := { s with dry := { s.dry with cursor := p.position, merge := false } }
  let s :=
    if p.source == .cuts then s.modifyWindow p.order fun w => w.releaseCut (act.disposition.getD .waste) q else s
  (s.passCut p).replan.push [.release]

/-! ### Release of a lift or drop (R157) -/

/-- A lift or drop released. -/
def State.releaseMove (s : State) (p : PendingRec) : State :=
  let s := s.joinReleased
    { kind := p.kind, sequence := 0, position := p.position, deadline := s.deadline p.position
      station := p.station, order := p.order }
  let s := { s with dry := { s.dry with strays := s.dry.strays.filter fun x => x.pendingRec != p } }
  (s.modifyWindow p.order fun w => w.releaseMove p).push [.release]

/-- A LIFT or DROP whose turn has come, its start pinned: a DROP is put to the slitter gate (R145, R157). -/
def State.gateMove (s : State) (p : PendingRec) : State :=
  match p.kind, p.station with
  | .drop, some st =>
    if s.readyFor st p.order then s.releaseMove p
    else (s.takeLateSwap st p.order (p.source == .replan)).push [.release]
  | _, _ => s.releaseMove p

/-! ### The release test (R156, R157) -/

/-- Whether a cut is its order's final cut while the order's end is OPEN (R157, pin point (d)). -/
def State.finalOpen (s : State) (p : PendingRec) : Bool :=
  p.source == .cuts && ((s.order? p.order).map fun r => !r.pinned && p.sheet == r.n).getD false

/-- Whether a record may be released now: within L + H, not beyond 2^40 - 1, and room in the released set (R156). -/
def State.mayRelease (s : State) (p : PendingRec) : Bool :=
  p.position ≤ s.knife + s.profile.line.h && p.position ≤ Config.counterMax &&
  s.dry.released.length < Config.releasedMax

/-- One release test: the first record of the pending plan is released, or meets its pin or its gate; the acts it makes
due make the test again (R156, R157). -/
def State.releaseTest (s : State) : State :=
  match firstOf s.candidates with
  | none => s
  | some p =>
    if s.mayRelease p then
      match p.kind with
      | .cut => if s.finalOpen p then (s.pinEnd p.order).push [.release] else s.releaseCut p
      | .lift => if s.startOpen p.order then (s.pinStart p.order).push [.release] else s.gateMove p
      | .drop => if s.startOpen p.order then (s.pinStart p.order).push [.release] else s.gateMove p
    else s

/-! ### Records leaving the released set (R163, R164) -/

/-- The acts after a record has left the released set: the expiry test, the close test for a cut of an order, and the
release test (R163). -/
def afterRemoval (r : ActionRec) : List Task :=
  .expiry :: (if r.kind == .cut && r.order != 0 then [.close r.order] else []) ++ [.release]

/-- The released set without a record. -/
def State.dropReleased (s : State) (sequence : Nat) : State :=
  { s with dry := { s.dry with released := s.dry.released.filter fun r => r.sequence != sequence } }

/-- The counts an executed cut adds to (R59, R163). -/
def ActionRec.count (r : ActionRec) (c : OrderCounts) : OrderCounts :=
  match r.disposition with
  | some .good =>
    { c with good := bump c.good, stacksDone := if r.lastOfStack then bump c.stacksDone else c.stacksDone }
  | some .reject => { c with reject := bump c.reject }
  | some .waste => { c with waste := bump c.waste }
  | none => c

/-- An order's counts changed (R59); those of a record that has left the window are kept. -/
def State.countOrder (s : State) (id : Nat) (f : OrderCounts → OrderCounts) : State :=
  if (s.windowOrder? id).isSome then s.modifyOrder id fun r => r.recount f else s

/-- A lift or drop handed to the Slitter Station Unit (R143, R144, R163). -/
def State.moveStation (s : State) (r : ActionRec) : State :=
  match r.kind, r.station with
  | .drop, some st => s.dropStation st
  | .lift, some st => s.liftStation st
  | _, _ => s

/-- A record executed (R163). -/
def State.execute (s : State) (r : ActionRec) (measured : Nat) : State :=
  let s := s.dropReleased r.sequence
  let s :=
    if r.kind == .cut then
      (s.raiseIf (s.profile.line.execTolerance < ((measured : Int) - r.position).natAbs) .actionOff).countOrder r.order r.count
    else s.moveStation r
  s.push (afterRemoval r)

/-- The first released record whose deadline L has passed is declared unconfirmed (R164); the next follows. -/
def State.declare (s : State) : State :=
  match s.dry.released.find? fun r => r.deadline < s.knife with
  | none => s
  | some r =>
    let s := s.dropReleased r.sequence
    let s :=
      if r.kind == .cut then s.countOrder r.order fun c => { c with unconfirmed := bump c.unconfirmed }
      else s.moveStation r
    (s.raise .actionUnconfirmed).push (afterRemoval r ++ [.declare])

/-! ### Overruns (R165 to R167) -/

/-- A cut dropped: the merged sheet grows, and a cut of an order counts as dropped and as a reject (R166). -/
def State.dropCut (s : State) (p : PendingRec) : State :=
  let s := s.passCut p
  let s :=
    if p.source == .cuts then
      (s.countOrder p.order fun c => { c with dropped := bump c.dropped }).modifyWindow p.order
        fun w => { w with rejectsOverrun := w.rejectsOverrun + 1 }
    else s
  let s := { s with dry := { s.dry with merge := true } }
  s.replan.push (if p.source == .cuts then [.close p.order] else [])

/-- The overrun of a LIFT: it stays, marked; a DOWN station goes on cutting (R167). -/
def State.overrunLift (s : State) (p : PendingRec) (st : Station) : State :=
  let strays := s.dry.strays.map fun x => if x.pendingRec = p then { x with overrun := true } else x
  let s := { s with dry := { s.dry with strays := strays } }
  let s := s.modifyWindow p.order fun w => w.markOverrun p
  if (s.station st).state == .down then
    s.insertExtent (.opened (p.position + s.stationDistance st) .toolLost (.toolLost st))
  else s

/-- The overrun of a record of the pending plan. -/
def State.overrunRec (s : State) (p : PendingRec) : State :=
  match p.kind, p.station with
  | .lift, some st => s.overrunLift p st
  | .drop, some st => (s.takeLateSwap st p.order (p.source == .replan)).settleSwap st
  | _, _ => (if s.finalOpen p then s.pinEnd p.order else s).dropCut p

/-- The first record of the pending plan that L has passed, not yet taken as an overrun, is taken (R165); the next
follows. -/
def State.overrun (s : State) : State :=
  match firstOf (s.candidates.filter fun p => !p.overrun && p.position < s.knife) with
  | none => s
  | some p => ((s.overrunRec p).raise .actionOverrun).push [.overrun]

/-! ### The close test and departures (R58, R60, R92, R168) -/

/-- A slot that holds the target of the boundary at an order's start keeps B when that order leaves the window (log 29). -/
def State.departTarget (s : State) (id : Nat) (x : Stream) : State :=
  match (s.stream x).slot with
  | some v => if v.target? = some id then s.setSlot x (some { v with departed := true }) else s
  | none => s

/-- The head leaves the window: its figures pass to the new head or to the tail, and the new head is tested (R71, R92,
R168). A late swap it still holds lapses with it (log 16, log 39). A LIFT of it that is still pending stays so (log 30); that a
DROP of its replanned pair (R147) that is still pending leaves the pending plan with it is the model's choice (log 65). -/
def State.leaveHead (s : State) : State :=
  match s.lines, s.plan.window with
  | l :: _, _ :: ws =>
    let s := [Station.a, .b].foldl (fun t st =>
      match (t.station st).late with
      | some x => if x.order == l.w.id then t.lapseSwap st x else t
      | none => t) s
    let lapsed := (s.windowOrder? l.w.id).map WindowOrder.lapsed
    let f : PrevFigures := { l.figures with lapsed := lapsed.getD l.w.lapsed }
    let plan :=
      match ws with
      | [] => { s.plan with window := [], tail := some { f with lapsed := false }, w0 := l.r.e.getD s.plan.w0 }
      | w :: ws => { s.plan with window := { w with prev := some f } :: ws }
    let left := (s.lines.take 1).flatMap fun l => (s.moveRecs l).filterMap fun p =>
      match p.kind, p.station with
      | .lift, some st => some (StrayLift.mk p.order st p.position p.overrun)
      | _, _ => none
    let s := { s with plan := plan, dry := { s.dry with strays := s.dry.strays ++ left } }
    let s := Stream.all.foldl (fun t x => t.departTarget l.w.id x) s
    s.replan.push ((plan.window.take 1).map fun w => Task.close w.id)
  | _, _ => s

/-- Whether every cut of the order at the head has been dealt with (R60, R168). -/
def State.dealtWith (s : State) (w : WindowOrder) (r : OrderRec) : Bool :=
  r.pinned && r.n.getD 0 ≤ w.cuts && !s.dry.released.any fun x => x.kind == .cut && x.order == w.id

/-- The close test of an order (R60, R61, R58, R168). -/
def State.closeTest (s : State) (id : Nat) : State :=
  match s.plan.window.head?, s.order? id with
  | some w, some r =>
    if w.id == id && s.dealtWith w r then
      match r.phase with
      | .cutting =>
        let s := (s.modifyOrder id OrderRec.close).raise .closed
        (s.raiseIf (r.counts.good < r.fig.t) .short).leaveHead
      | .cancelled => s.leaveHead
      | _ => s
    else s
  | _, _ => s

/-! ### Taking and quality (R161, R169, R170) -/

/-- The records Take Actions gives: up to 4 untaken ones of lowest place (R161). -/
def DryList.toTake (d : DryList) : List ActionRec := (d.released.filter fun r => !r.taken).take 4

/-- Those records made taken (R161). -/
def DryList.take (d : DryList) : DryList :=
  let qs := d.toTake.map ActionRec.sequence
  { d with released := d.released.map fun r => if qs.contains r.sequence then { r with taken := true } else r }

/-- Every taken record made untaken, ACTIONS_READY raised when the number of them rises from 0 (R170). -/
def State.untake (s : State) : State :=
  let rises := s.dry.untaken == 0 && !s.dry.released.isEmpty
  let d := { s.dry with released := s.dry.released.map fun (r : ActionRec) => { r with taken := false } }
  ({ s with dry := d }).raiseIf rises .actionsReady

/-- The released cuts whose span meets the stretch (x, y] (R169). -/
def DryList.covered (d : DryList) (x y : Pos) : List ActionRec :=
  d.released.filter fun r =>
    match r.kind, r.sheetStart with
    | .cut, some b => b < y && x < r.position
    | _, _ => false

end Sys2Proof.Machine
end

