-- ==== Sys2Proof/Machine/Splice.lean ====
section
/-! DEFINITION. The Splice Sequencer: arms, the splice slot from commit to done, run-out, breaks, and the stand link (05). -/

namespace Sys2Proof.Machine

/-! ### Arms (R97, R98, R106) -/

def State.arm (s : State) (x : Stream) (arm : Arm) : ArmRec := (s.stream x).arms.get arm

/-- The ready lamp is lit while the arm is READY (R97). -/
def ArmRec.lamp (r : ArmRec) : Bool := r.state == .ready

/-- The drive enable set; its delay timer starts at 0 (R98, R106). An enable already set keeps its timer. -/
def ArmRec.enable (r : ArmRec) : ArmRec := if r.driveEnable then r else { r with driveEnable := true, delay := 0 }

/-- The drive enable cleared (R98, R106). -/
def ArmRec.disable (r : ArmRec) : ArmRec := { r with driveEnable := false, delay := 0 }

/-- An arm made EMPTY: drive enable cleared, declaration and start count dropped (R104, R105). -/
def ArmRec.emptied (r : ArmRec) : ArmRec := { r.disable with state := .empty, declaration := none, startCount := none }

/-- An arm made STOPPING: drive enable cleared, start count kept (R97, R106). -/
def ArmRec.stop (r : ArmRec) : ArmRec := { r.disable with state := .stopping }

/-- An arm made RUNNING from a start count: drive enable set (R106, R115, R123, R124). -/
def ArmRec.run (r : ArmRec) (start : Nat) : ArmRec := { r.enable with state := .running, startCount := some start }

/-- An arm record stored; a change of its drive enable or ready lamp makes a write pending for an active stream (R99). -/
def State.setArm (s : State) (x : Stream) (arm : Arm) (r : ArmRec) : State :=
  let old := s.arm x arm
  let changed := old.driveEnable != r.driveEnable || old.lamp != r.lamp
  let st := s.stream x
  s.setStream x { st with
    arms := st.arms.set arm r
    writePending := st.writePending || (changed && (s.streamProfile x).active) }

/-- An arm's declared grade is `g` (R110). -/
def ArmRec.holds (r : ArmRec) (g : Nat) : Bool := r.declaration.map Declaration.grade == some g

/-- The consumed length of an arm: the stream counter less the start count, 0 while none is present (R97). -/
def State.consumed (s : State) (x : Stream) (r : ArmRec) : Nat :=
  match r.startCount with
  | some c => s.streamCount x - c
  | none => 0

/-- The delay of a DELAY mode in ticks (R98). -/
def DriveMode.delay? : DriveMode → Option Nat
  | .input => none
  | .delay100 => some 100
  | .delay200 => some 200
  | .delay400 => some 400
  | .delay800 => some 800

/-- Whether an arm's drive is good (R98). -/
def State.driveGood (s : State) (x : Stream) (arm : Arm) : Bool :=
  let r := s.arm x arm
  match (s.streamProfile x).driveMode.delay? with
  | none => r.driveGood.level
  | some d => r.driveEnable && d ≤ r.delay

/-- Whether a COMMITTED or FIRED slot has chosen an arm. -/
def State.chosenBy (s : State) (x : Stream) (arm : Arm) (st : SlotState) : Bool :=
  match (s.stream x).slot with
  | some v => v.state == st && v.chosen == some arm
  | none => false

/-- An EMPTY arm becomes LOADED when declared, present and latched (R103). -/
def State.tryLoad (s : State) (x : Stream) (arm : Arm) : State :=
  let r := s.arm x arm
  if r.state == .empty && r.declaration.isSome && r.present.level && r.latched.level then
    s.setArm x arm { r with state := .loaded }
  else s

/-! ### Commit (R110 to R112) -/

/-- The slot's speed is above splice_max_speed (R110, R113, R14). -/
def State.tooFast (s : State) (x : Stream) : Bool := (s.streamProfile x).spliceMaxSpeed < s.streamSpeed x

/-- The arm that a slot would choose, if the commit requirement is met (R110, step 2). -/
def State.requirement (s : State) (x : Stream) (grade : Nat) : Option Arm :=
  let st := s.stream x
  match st.running with
  | some arm =>
    if s.tracking && !st.broken && !st.linkFault && (s.arm x arm.other).state == .ready && (s.arm x arm.other).holds grade
    then some arm.other else none
  | none => none

/-- A slot commits to an arm (R110, step 3). -/
def State.commitSlot (s : State) (x : Stream) (v : Slot) (arm : Arm) : State :=
  let s := s.setArm x arm (s.arm x arm).enable
  let s := (s.setSlot x (some { v with state := .committed, chosen := some arm })).raise .spliceCommit
  s.raiseIf (s.tooFast x) .speedCap

/-- The commit point of a PLANNED slot that is not DEFERRED, once reached (R110): the pin, then commit or DEFERRED. -/
def State.commitTest (s : State) (x : Stream) : State :=
  match (s.stream x).slot with
  | none => s
  | some v =>
    if v.state == .planned && !v.deferred && v.commitPoint ≤ s.streamPos x then
      let s := (v.target?.map s.pinStart).getD s
      let v := (s.stream x).slot.getD v
      match s.requirement x v.grade with
      | some arm => s.commitSlot x v arm
      | none => (s.setSlot x (some { v with deferred := true })).raiseIf (v.kind == .grade) .gradeMissed
    else s

/-- The deferred-commit test (R111): the fire point becomes the counter plus commit_lead (log 18, log 36). -/
def State.deferredTest (s : State) (x : Stream) : State :=
  match (s.stream x).slot with
  | none => s
  | some v =>
    if v.state == .planned && v.deferred then
      match s.requirement x v.grade with
      | some arm =>
        s.commitSlot x
          { v with
            deferred := false, reaimed := v.kind == .grade, commitPoint := s.streamPos x
            firePoint := s.streamPos x + (s.streamProfile x).commitLead } arm
      | none => s
    else s

/-- A splice aborted: its chosen arm's reel has left (R112). -/
def State.abortSplice (s : State) (x : Stream) : State :=
  match (s.stream x).slot with
  | none => s
  | some v =>
    if v.kind == .manual then (s.setSlot x none).push [.slotFree x]
    else s.setSlot x (some { v with state := .planned, deferred := true, chosen := none })

/-! ### Fire, wrong grade, done window (R113, R114, R116) -/

/-- The wrong-grade test (R114). -/
def State.wrongGradeTest (s : State) (x : Stream) : State :=
  match (s.stream x).slot with
  | none => s
  | some v =>
    if v.kind == .grade && (v.state == .planned || v.state == .committed) && !v.wrongGrade &&
        v.boundaryPos < s.streamPos x + s.seamOffset x then
      (s.setSlot x (some { v with wrongGrade := true })).insertExtent
        (.opened v.boundaryPos .wrongGrade (.wrongGrade x))
    else s

/-- Whether a stream's lane is UNSYNCED; S5 has none (R113). -/
def State.laneUnsynced (s : State) (x : Stream) : Bool :=
  match x.lane with
  | some l => (s.lane l).unsynced
  | none => false

/-- A splice fires (R113), with the early-grade extent of an ADVANCED slot (R119). -/
def State.fireSplice (s : State) (x : Stream) (v : Slot) : State :=
  let v := { v with
    state := .fired, fireCount := s.streamCount x, fast := s.tooFast x, unsynced := s.laneUnsynced x }
  let s := s.setStream x { s.stream x with slot := some v, fire := true, fireLeft := Config.fireTicks }
  let seam := s.streamPos x + s.seamOffset x
  let s := if v.wrongGrade then s.closeClaim (.wrongGrade x) seam else s
  if v.advanced then
    s.insertExtent (.closed (s.seamExtent seam x v.fast v.unsynced).2 v.boundaryPos .gradeEarly)
  else s

/-- The fire test of a COMMITTED slot (R113, log 36). -/
def State.fireTest (s : State) (x : Stream) : State :=
  match (s.stream x).slot with
  | none => s
  | some v =>
    match v.chosen with
    | some arm =>
      if v.state == .committed && v.firePoint ≤ s.streamPos x && s.driveGood x arm then s.fireSplice x v else s
    | none => s

/-- The extent of a splice fault, K_s taken at this moment (R116, step 3). -/
def State.insertFault (s : State) (x : Stream) (v : Slot) : State :=
  let f := (v.fireCount : Int) + s.seamOffset x
  let first := (s.seamExtent f x v.fast v.unsynced).1
  let last := (s.seamExtent (f + (s.streamProfile x).doneWindow) x v.fast v.unsynced).2
  s.insertExtent (.closed first last .seam (some ⟨x, v.chosen.getD .a, .unconfirmed, v.fast, v.unsynced⟩))

/-- A splice fault (R116, steps 1 to 3): the slot FAULT, the chosen arm's drive enable cleared, the extent inserted. -/
def State.faultSplice (s : State) (x : Stream) (v : Slot) : State :=
  let arm := v.chosen.getD .a
  let s := s.setSlot x (some { v with state := .fault })
  (s.setArm x arm (s.arm x arm).disable).insertFault x v

/-- The done-window test of a FIRED slot (R116). -/
def State.doneWindowTest (s : State) (x : Stream) : State :=
  match (s.stream x).slot with
  | none => s
  | some v =>
    if v.state == .fired && v.fireCount + (s.streamProfile x).doneWindow < s.streamCount x then
      let s := s.faultSplice x v
      let s := (v.target?.map fun id => s.spendTarget id x).getD s
      s.raise .spliceFault
    else s

/-! ### Done (R115, R117) -/

/-- An accepted done pulse completes a FIRED splice (R115, steps 1 to 5). R111 and R118 order neither of their tests at an arm
that becomes RUNNING: the deferred-commit test first is the model's choice (log 64). -/
def State.completeSplice (s : State) (x : Stream) (v : Slot) : State :=
  let arm := v.chosen.getD .a
  let s :=
    match (s.stream x).running with
    | some r => if r = arm then s else s.setArm x r (s.arm x r).stop
    | none => s
  let s := s.setArm x arm ((s.arm x arm).run v.fireCount)
  let grade := ((s.arm x arm).declaration.map Declaration.grade).getD 0
  let s := s.setStream x { s.stream x with running := some arm, runningGrade := grade, slot := none }
  let s := (v.target?.map fun id => s.spendTarget id x).getD s
  let s :=
    match x.lane with
    | some l => s.enterMark l x arm v.fireCount v.fast v.unsynced
    | none =>
      let r := s.seamExtent ((v.fireCount : Int) + s.seamOffset x) x v.fast false
      s.insertExtent (.closed r.1 r.2 .seam (some ⟨x, arm, .neither, v.fast, false⟩))
  (s.raise .spliceDone).push [.slotFree x, .deferred x, .runout x]

/-- A done pulse (R115), or a stray one, which changes no state of the stream (R117). -/
def State.doneAct (s : State) (x : Stream) : State :=
  match (s.stream x).slot with
  | some v => if v.state == .fired then s.completeSplice x v else s.raise .spliceFault
  | none => s.raise .spliceFault

/-! ### Run-out (R118 to R120) -/

/-- A run-out slot (R118). -/
def runoutSlot (grade : Nat) (fire : Pos) (lead : Nat) : Slot :=
  { state := .planned, kind := .runout, grade := grade, firePoint := fire, commitPoint := fire - lead }

/-- What the run-out test does to a slot that holds a later GRADE splice: the splice is advanced (R119), or becomes a
run-out splice and its target returns to the planner (R120, log 17). -/
def State.runoutConflict (s : State) (x : Stream) (v : Slot) (other : Arm) (fire : Pos) : State :=
  let lead := (s.streamProfile x).commitLead
  let o := s.arm x other
  let s :=
    if (o.state == .loaded || o.state == .ready) && o.holds v.grade then
      s.setSlot x (some { v with
        firePoint := fire, commitPoint := if v.state == .planned then fire - lead else v.commitPoint
        reaimed := true, advanced := true })
    else s.setSlot x (some (runoutSlot (s.stream x).runningGrade fire lead))
  (s.raise .runoutConflict).push [.commitTest x]

/-- The run-out test (R118). -/
def State.runoutTest (s : State) (x : Stream) : State :=
  let st := s.stream x
  let prof := s.streamProfile x
  match st.running with
  | none => s
  | some arm =>
    let r := s.arm x arm
    match r.declaration, r.startCount with
    | some d, some start =>
      let remaining : Int := (d.length : Int) - s.consumed x r
      if s.tracking && !st.broken && remaining ≤ prof.runoutReserve then
        let fire : Pos := (start : Int) + d.length - prof.butt
        match st.slot with
        | none => (s.setSlot x (some (runoutSlot st.runningGrade fire prof.commitLead))).push [.commitTest x]
        | some v =>
          if v.kind == .grade && (v.state == .planned || v.state == .committed) && !v.advanced && fire < v.firePoint
          then s.runoutConflict x v arm.other fire
          else s
      else s
    | _, _ => s

/-- A slot that has become FREE: the waiting targets are offered, then the run-out test is made (R108). -/
def State.slotFreeAct (s : State) (x : Stream) : State := (s.offerTargets x).push [.commitTest x, .runout x]

/-! ### Web breaks and recovery (R122 to R124) -/

/-- A web break (R122, steps 1 to 6). `left` is a READY arm chosen by a FIRED slot, whose reel has left it. -/
def State.breakWeb (s : State) (x : Stream) (left : Option Arm) : State :=
  let s : State :=
    match (s.stream x).slot with
    | some v =>
      if v.state == .fired then s.insertFault x v
      else if v.kind == .grade && v.wrongGrade && (v.state == .planned || v.state == .committed) then
        s.closeClaim (.wrongGrade x) (s.streamPos x + s.seamOffset x)
      else s
    | none => s
  let s := s.setSlot x none
  let stopArm (s : State) (arm : Arm) : State :=
    let r := (s.arm x arm).disable
    if left = some arm then s.setArm x arm r.emptied
    else if r.state == .running then s.setArm x arm (if r.present.level then r.stop else r.emptied)
    else s.setArm x arm r
  let s := stopArm (stopArm s .a) .b
  let s := s.setStream x { s.stream x with broken := true, running := none }
  (s.openBreak x).push [.slotFree x]

/-- Web Restored on an arm that may take the web (R123, steps 1 to 5), with the tests of an arm that becomes RUNNING in the order
of log 64. -/
def State.restoreWeb (s : State) (x : Stream) (arm : Arm) (length : Nat) : State :=
  let s := s.closeBreak x
  let r := s.arm x arm
  let r := { r with
    declaration := r.declaration.map fun d => if length = 0 then d else { d with length := length } }
  let s := s.setArm x arm (r.run (s.streamCount x))
  let grade := (r.declaration.map Declaration.grade).getD 0
  (s.setStream x { s.stream x with running := some arm, runningGrade := grade, broken := false }).push
    [.slotFree x, .deferred x, .runout x]

/-- Stream Recover on an arm that carries the web (R124). Where an arm becomes RUNNING, the deferred-commit test (R111) and the
run-out test (R118) are both made and nothing orders them for a slot that stays PLANNED: the deferred-commit test first is the
model's choice (log 64). -/
def State.recoverStream (s : State) (x : Stream) (arm : Arm) : State :=
  let wasRunning := (s.arm x arm).state == .running
  let s := if wasRunning then s else s.setArm x arm ((s.arm x arm).run (s.streamCount x))
  let o := s.arm x arm.other
  let s :=
    if o.state == .running then s.setArm x arm.other o.stop
    else if o.state == .ready then s.setArm x arm.other o.disable
    else s
  let grade := ((s.arm x arm).declaration.map Declaration.grade).getD 0
  let s := s.setStream x { s.stream x with running := some arm, runningGrade := grade }
  let fault : Bool :=
    match (s.stream x).slot with
    | some v => v.state == .fault
    | none => false
  let s := if fault then s.setSlot x none else s
  let s := if (s.stream x).slot.isNone then s.push [.slotFree x] else s
  if wasRunning then s else s.push [.deferred x, .runout x]

/-! ### The stand link (R99 to R101) -/

/-- The outputs a write carries (R99). -/
def State.standOutputs (s : State) (x : Stream) : StandOutputs :=
  let arm := s.arm x .a
  let b := s.arm x .b
  ⟨arm.driveEnable, b.driveEnable, arm.lamp, b.lamp⟩

/-- The active stream after one, returning from the last to the first (R99). -/
def Profile.nextActive (p : Profile) (x : Stream) : Option Stream :=
  let isActive := fun y => (p.streams.get y).active
  match (Stream.all.filter fun y => x.number < y.number).find? isActive with
  | some y => some y
  | none => Stream.all.find? isActive

def State.setLink (s : State) (l : StandLink) : State := { s with splice := { s.splice with link := l } }

/-- A read of a stream made pending (R99). -/
def State.pendRead (s : State) (x : Stream) : State := s.setStream x { s.stream x with readPending := true }

/-- The scan moved to a stream, whose read becomes pending (R99). -/
def State.scanTo (s : State) (x : Option Stream) : State :=
  let s := s.setLink { s.splice.link with scan := x }
  match x with
  | some y => s.pendRead y
  | none => s

/-- A read of a stream has been made or abandoned: its pending read is cleared, whatever made it pending and whenever, and a
scan at it goes on to the next active stream (R99, R101, log 53). -/
def State.readMade (s : State) (x : Stream) : State :=
  let s := s.setStream x { s.stream x with readPending := false }
  if s.splice.link.interrupt && s.splice.link.scan == some x then s.scanTo (s.profile.nextActive x) else s

/-- An input after a read that shows `shown` at tick `now`; the first successful read takes its level at once (R100). -/
def StandInput.read (i : StandInput) (shown : Bool) (now : Nat) (first : Bool) : StandInput :=
  if first then { level := shown, candidate := none }
  else if shown == i.level then { i with candidate := none }
  else
    match i.candidate with
    | none => { i with candidate := some now }
    | some t => if t + Config.standDebounce ≤ now then { level := shown, candidate := none } else i

/-- An arm's inputs after a read (R100). -/
def ArmRec.read (r : ArmRec) (v : ArmLevels) (now : Nat) (first : Bool) : ArmRec :=
  { r with
    present := r.present.read v.present now first
    latched := r.latched.read v.latched now first
    button := r.button.read v.button now first
    driveGood := r.driveGood.read v.driveGood now first }

/-- An arm's candidate levels discarded (R101). -/
def ArmRec.dropCandidates (r : ArmRec) : ArmRec :=
  { r with
    present := { r.present with candidate := none }
    latched := { r.latched with candidate := none }
    button := { r.button with candidate := none }
    driveGood := { r.driveGood with candidate := none } }

/-- A reel leaves an arm (R104). Its table names no READY arm chosen by a FAULT slot: that such an arm is taken as one not chosen
by a splice, so that it becomes EMPTY, the web is not broken and the slot stays FAULT, is the model's choice (log 67). -/
def State.reelLeaves (s : State) (x : Stream) (arm : Arm) (presentCleared : Bool) : State :=
  let r := s.arm x arm
  match r.state with
  | .empty => s
  | .loaded => s.setArm x arm r.emptied
  | .ready =>
    if s.chosenBy x arm .fired then s.breakWeb x (some arm)
    else if s.chosenBy x arm .committed then (s.setArm x arm r.emptied).abortSplice x
    else s.setArm x arm r.emptied
  | .running => s.breakWeb x none
  | .stopping => if presentCleared then s.setArm x arm r.emptied else s

/-- The events of an arm whose debounced inputs a read has changed, `old` being the record before the read (R103, R104,
R113). The deferred-commit test of an arm that becomes READY and the fire test of a drive that becomes good are only made due
here: that they are carried out behind the events of both arms is the model's choice (log 19). -/
def State.armEvents (s : State) (x : Stream) (arm : Arm) (old : ArmRec) : State :=
  let r := s.arm x arm
  let presentCleared := old.present.level && !r.present.level
  let latchedCleared := old.latched.level && !r.latched.level
  let s := if presentCleared || latchedCleared then s.reelLeaves x arm presentCleared else s
  let s := s.tryLoad x arm
  let pressed := !old.button.level && r.button.level
  let s :=
    if pressed && (s.arm x arm).state == .loaded && (s.stream x).splicerReady.level then
      (s.setArm x arm { s.arm x arm with state := .ready }).push [.deferred x]
    else s
  if !old.driveGood.level && r.driveGood.level then s.push [.fireTest x] else s

/-- A successful transaction clears LINK_FAULT; the deferred-commit test is made when it was set (R101, R111), at a read behind
the events of both arms (log 19). -/
def State.clearFault (s : State) (x : Stream) : State :=
  if (s.stream x).linkFault then (s.setStream x { s.stream x with linkFault := false }).push [.deferred x] else s

/-- A successful read of a stream's expander (R100). That all levels are taken first, that arm A's events come before arm B's, and
that the splice tests come behind both, so that a reel of arm B that leaves at the read in which arm A's drive becomes good
breaks the web before the fire test, is the model's choice (log 19). -/
def State.takeRead (s : State) (x : Stream) (v : StandLevels) : State :=
  let s := s.clearFault x
  let st := s.stream x
  let now := s.lmu.ticks
  let first := !st.seen
  let s := s.setStream x { st with
    arms := ⟨st.arms.a.read v.armA now first, st.arms.b.read v.armB now first⟩
    splicerReady := st.splicerReady.read v.splicerReady now first
    seen := true }
  (s.armEvents x .a st.arms.a).armEvents x .b st.arms.b

/-- LINK_FAULT set after the fourth failed attempt (R101). -/
def State.setFault (s : State) (x : Stream) : State :=
  let st := s.stream x
  (s.setStream x { st with
    linkFault := true
    arms := ⟨st.arms.a.dropCandidates, st.arms.b.dropCandidates⟩
    splicerReady := { st.splicerReady with candidate := none } }).raiseIf (!st.linkFault) .standFault

/-- The transaction a free link starts: the pending write of the lowest stream without LINK_FAULT, or else the pending
read of the lowest stream; only active streams are addressed (R99). -/
def State.nextTransaction (s : State) : Option Transaction :=
  let isActive := fun x => (s.streamProfile x).active
  match Stream.all.find? fun x => isActive x && (s.stream x).writePending && !(s.stream x).linkFault with
  | some x => some ⟨x, true, 0, s.standOutputs x⟩
  | none =>
    match Stream.all.find? fun x => isActive x && (s.stream x).readPending with
    | some x => some ⟨x, false, 0, {}⟩
    | none => none

end Sys2Proof.Machine
end

