-- ==== Sys2Proof/Machine/Encode.lean ====
section
/-! DEFINITION. Frames and records as bytes (10): how values are written, and the layout of every frame the part sends. -/

namespace Sys2Proof.Machine

/-! ### Values (R207) -/

/-- A number in `w` bytes, little-endian. -/
def le : Nat → Nat → List Byte
  | 0, _ => []
  | w + 1, v => BitVec.ofNat 8 v :: le w (v / 256)

/-- A field of all ones. -/
def absentField (w : Nat) : List Byte := List.replicate w 255

/-- A numeric field that may be absent. -/
def opt (w : Nat) : Option Nat → List Byte
  | some v => le w v
  | none => absentField w

/-- A position along the web; the bytes of one below 0 are a free value (log 10). -/
def pos (p : Pos) : List Byte := if p < 0 then le 6 (Config.negativePosition p).toNat else le 6 p.toNat

/-- A position that may be absent. -/
def optPos : Option Pos → List Byte
  | some p => pos p
  | none => absentField 6

/-- A signed offset in six bytes, two's complement. -/
def signed (v : Int) : List Byte := le 6 (BitVec.ofInt 48 v).toNat

/-- A bit map of flags, the first being bit 0. -/
def flags : List Bool → Nat
  | [] => 0
  | b :: bs => b.toNat + 2 * flags bs

/-- Yes or no. -/
def yes (b : Bool) : List Byte := le 1 b.toNat

def causeBits (c : List Cause) : Nat := flags (Cause.all.map fun x => c.contains x)

def claimBits (c : List Claim) : Nat := flags (Claim.all.map fun x => c.contains x)

def armCode : Option Arm → Nat
  | none => 0
  | some .a => 1
  | some .b => 2

def stationCode : Option Station → Nat
  | none => 0
  | some .a => 1
  | some .b => 2

def toolKindCode : ToolKind → Nat
  | .slit => 1
  | .score => 2

def PartState.code : PartState → Nat
  | .setup => 0
  | .tracking => 1

def Phase.code : Phase → Nat
  | .queued => 1
  | .planned => 2
  | .cutting => 3
  | .closed => 4
  | .cancelled => 5

def Blocked.code : Blocked → Nat
  | .none => 0
  | .heads => 1
  | .format => 2

def ResultCause.code : ResultCause → Nat
  | .complete => 1
  | .short => 2
  | .cancelledByPlan => 3
  | .cancelledAfterStart => 4
  | .lineCleared => 5

def ArmState.code : ArmState → Nat
  | .empty => 1
  | .loaded => 2
  | .ready => 3
  | .running => 4
  | .stopping => 5

/-- The code of a slot's state; a FREE slot has code 1. -/
def SlotState.code : SlotState → Nat
  | .planned => 2
  | .committed => 3
  | .fired => 4
  | .fault => 5

def SlotKind.code : SlotKind → Nat
  | .grade => 1
  | .runout => 2
  | .manual => 3

def StationState.code : StationState → Nat
  | .idle => 1
  | .setting => 2
  | .ready => 3
  | .down => 4
  | .failed => 5

def SetupResult.code : SetupResult → Nat
  | .none => 1
  | .pass => 2
  | .fail => 3

def ToolState.code : ToolState → Nat
  | .unknown => 1
  | .parked => 2
  | .moving => 3
  | .placed => 4
  | .out => 5

def RecogState.code : RecogState → Nat
  | .guard => 1
  | .armed => 2
  | .active => 3
  | .trailing => 4

def ActionKind.code : ActionKind → Nat
  | .cut => 1
  | .lift => 2
  | .drop => 3

def Disposition.code : Disposition → Nat
  | .good => 1
  | .reject => 2
  | .waste => 3

def EntryKind.code : EntryKind → Nat
  | .preheater => 1
  | .glueUnit => 2
  | .hotPlate => 3

/-! ### Frames (R206) -/

/-- A frame with its length byte, or with the extended length where the count is above 255. -/
def frameBytes (kind : Nat) (tag : Byte) (payload : List Byte) : List Byte :=
  let n := payload.length + 2
  (if n ≤ 255 then le 1 n else 0 :: le 2 n) ++ BitVec.ofNat 8 kind :: tag :: payload

/-- The kind of a DONE reply: the request's kind plus 80h. -/
def doneKind (kind : Nat) : Nat := kind + 0x80

/-- A DONE reply. -/
def doneReply (kind : Nat) (tag : Byte) (payload : List Byte) : Frame := .reply (doneKind kind) tag payload

/-- A REFUSED reply: request kind, cause and section. -/
def refusedReply (kind : Nat) (tag : Byte) (cause sectionCode : Nat) : Frame :=
  .reply 0xFE tag (le 1 kind ++ le 1 cause ++ le 1 sectionCode)

/-- A port's raw flags as a set of class numbers (R187). -/
def PortRec.rawFlags (p : PortRec) : Nat := flags (p.classes.map NoticeClass.raw)

/-- The bytes of a frame chosen to go out (R175, R187). -/
def PortRec.frameOut (p : PortRec) : Frame → List Byte
  | .reply kind tag payload => frameBytes kind tag payload
  | .notice n => frameBytes 0xFD 0 (le 1 n ++ le 2 p.rawFlags)

/-- The idle frame: part state, REQUEST_DROPPED raw flag and out-queue count (R177). -/
def idleBytes (part : PartState) (dropped : Bool) (count : Nat) : List Byte :=
  frameBytes 0xFF 0 (le 1 part.code ++ yes dropped ++ le 1 count)

/-- The place of the idle frame's count, which is filled as its byte begins to go out (R177). -/
def idleCountPlace : Nat := 5

/-! ### Order and layout records (R209) -/

/-- `n` cross-machine positions; those past the list are absent. -/
def crossPositions : Nat → List Nat → List Byte
  | 0, _ => []
  | n + 1, [] => absentField 2 ++ crossPositions n []
  | n + 1, p :: ps => le 2 p ++ crossPositions n ps

def layoutBytes (l : Layout) : List Byte :=
  le 1 l.slits.length ++ le 1 l.scores.length ++ crossPositions 8 l.slits ++ crossPositions 10 l.scores

/-- The order record of 128 bytes. -/
def orderBytes (r : OrderRec) (index : Nat) : List Byte :=
  le 4 r.fig.id ++ le 1 index ++ Stream.all.flatMap (fun x => le 1 (r.fig.grades.get x)) ++
  le 4 r.fig.sf ++ le 4 r.fig.t ++ le 2 r.fig.a ++ le 1 r.fig.m ++ le 2 r.fig.q ++ layoutBytes r.fig.layout ++
  le 1 r.phase.code ++ yes r.pinned ++ le 1 r.blocked.code ++ le 1 (stationCode r.station) ++
  optPos r.p ++ optPos r.e ++ opt 4 r.n ++ opt 6 r.gap ++ le 4 r.wasteBefore ++ opt 4 r.rejects ++
  le 4 r.counts.good ++ le 4 r.counts.reject ++ le 4 r.counts.unconfirmed ++ le 4 r.counts.waste ++
  le 4 r.counts.dropped ++ le 4 r.counts.stacksDone ++
  match r.result with
  | some v => le 1 v.cause.code ++ le 4 v.shortfall ++ le 4 v.overs
  | none => le 1 0 ++ absentField 4 ++ absentField 4

/-- The summary of an order that Read Book gives. -/
def summaryBytes (r : OrderRec) : List Byte :=
  le 4 r.fig.id ++ le 1 r.phase.code ++ yes r.pinned ++ le 1 r.blocked.code ++
  le 1 ((r.result.map fun v => v.cause.code).getD 0)

/-- The Read Book reply (R65). -/
def bookBytes (book : List OrderRec) (first : Nat) : List Byte :=
  let given := (book.drop first).take 8
  le 1 book.length ++ le 1 first ++ le 1 given.length ++ given.flatMap summaryBytes

/-! ### The map (R41, R209) -/

def confirmationFlags : Confirmation → List Bool
  | .neither => [false, false]
  | .confirmed => [true, false]
  | .unconfirmed => [false, true]

def seamBytes : Option SeamPart → List Byte
  | some x =>
    le 1 x.stream.number ++ le 1 (armCode (some x.arm)) ++ le 1 (flags (confirmationFlags x.confirmation ++ [x.fast, x.unsynced]))
  | none => le 1 0 ++ le 1 0 ++ le 1 0

/-- The extent record of 25 bytes. Only an OPEN extent holds claims (R20); the bytes of a closed one's are a free value (log
56). -/
def extentBytes (x : Extent) : List Byte :=
  pos x.start ++ optPos x.finish ++ optPos x.held ++ le 2 (causeBits x.causes) ++
  le 2 (if x.finish = none then claimBits x.claims else Config.absentClaims.toNat) ++ seamBytes x.seam

/-- The Read Map reply of the main section. -/
def mainMapBytes (track : List Extent) (first : Nat) : List Byte :=
  let given := (track.drop first).take 8
  le 1 track.length ++ le 1 first ++ le 1 given.length ++ given.flatMap extentBytes

/-- A lane mark of 15 bytes with its predicted position. -/
def State.markBytes (s : State) (m : LaneMark) : List Byte :=
  le 1 m.stream.number ++ le 1 (armCode (some m.arm)) ++ le 6 m.count ++ le 1 (flags [m.fast, m.unsynced]) ++ pos (s.predicted m)

/-- The Read Map reply of a lane section. -/
def State.laneMapBytes (s : State) (l : Lane) : List Byte :=
  let r := s.lane l
  signed r.offset ++ yes r.unsynced ++ le 1 r.recogniser.state.code ++ opt 6 r.recogniser.p0 ++ opt 6 r.recogniser.i0 ++
  le 1 r.marks.length ++ r.marks.flatMap s.markBytes

/-! ### Actions, moves, station changes (R86, R135, R161, R209) -/

/-- The action record of 42 bytes. R207 gives no form for an absent flag: LAST_OF_STACK, LAST_OF_ORDER and MERGED of a LIFT or
a DROP are 0 (log 34). -/
def actionBytes (r : ActionRec) : List Byte :=
  le 1 r.kind.code ++ le 4 r.sequence ++ pos r.position ++ pos r.deadline ++
  le 1 (flags [r.taken, r.lastOfStack, r.lastOfOrder, r.merged]) ++ le 1 (stationCode r.station) ++ le 4 r.order ++
  opt 4 r.sheet ++ optPos r.sheetStart ++ le 1 ((r.disposition.map Disposition.code).getD 0) ++ opt 4 r.stackNumber ++
  opt 2 r.sheetInStack ++
  le 2 (if r.disposition = some .reject then causeBits r.causes else Config.absentCauses.toNat)

def moveBytes (m : MoveEntry) : List Byte :=
  le 1 (stationCode (some m.station)) ++ le 1 (toolKindCode m.kind) ++ le 1 m.number ++ le 2 m.target ++ le 1 m.attempt

/-- The entries of the station change table that hold an id: entry number, kind and id (R86). -/
def State.changes (s : State) : List (Nat × EntryKind × Nat) :=
  entryNumbers.filterMap fun n =>
    match nth1 s.plan.pendingChange n, nth1 s.profile.entries n with
    | some (some id), some e => some (n, e.kind, id)
    | _, _ => none

def changeBytes (x : Nat × EntryKind × Nat) : List Byte := le 1 x.1 ++ le 1 x.2.1.code ++ le 4 x.2.2

/-- A list of records with its count before it. -/
def counted {α : Type} (f : α → List Byte) (l : List α) : List Byte := le 1 l.length ++ l.flatMap f

/-! ### Streams and stations (R125, R150, R209) -/

/-- Whether a slot's required grade and points are present (R107). -/
def Slot.holdsPoints (v : Slot) : Bool := v.state != .fault

/-- Whether a slot's fire count is present (R107). -/
def Slot.holdsFire (v : Slot) : Bool := v.state == .fired || v.state == .fault

/-- The slot in 27 bytes (log 34). -/
def slotBytes : Option Slot → List Byte
  | none =>
    le 1 1 ++ le 1 0 ++ le 1 0 ++ le 4 0 ++ absentField 1 ++ absentField 6 ++ absentField 6 ++ le 1 0 ++ absentField 6
  | some v =>
    le 1 v.state.code ++ le 1 v.kind.code ++
    le 1 (flags [v.deferred, v.fast, v.reaimed, v.advanced, v.wrongGrade, v.unsynced]) ++
    le 4 (v.boundary.getD 0) ++
    (if v.holdsPoints then le 1 v.grade ++ pos v.commitPoint ++ pos v.firePoint
     else absentField 1 ++ absentField 6 ++ absentField 6) ++
    le 1 (armCode v.chosen) ++ (if v.holdsFire then le 6 v.fireCount else absentField 6)

/-- An arm in 19 bytes; its consumed length is 0 while it has no start count (R97, log 57). -/
def State.armBytes (s : State) (x : Stream) (arm : Arm) : List Byte :=
  let r := s.arm x arm
  le 1 r.state.code ++ le 1 ((r.declaration.map Declaration.grade).getD 0) ++ opt 4 (r.declaration.map Declaration.length) ++
  opt 6 r.startCount ++ le 6 (s.consumed x r) ++
  le 1 (flags [r.present.level, r.latched.level, r.button.level, r.driveGood.level, r.driveEnable, s.driveGood x arm, r.lamp])

/-- The stream summary of 80 bytes. -/
def State.streamBytes (s : State) (x : Stream) : List Byte :=
  let r := s.stream x
  le 1 x.number ++ le 6 (s.streamCount x) ++ le 4 (s.streamSpeed x) ++ le 1 (armCode r.running) ++ le 1 r.runningGrade ++
  le 1 (if r.broken then 2 else 1) ++ le 1 (flags [r.linkFault, r.splicerReady.level]) ++ slotBytes r.slot ++
  s.armBytes x .a ++ s.armBytes x .b

def toolBytes (t : Tool) : List Byte := le 1 t.state.code ++ le 1 t.attempts ++ opt 2 t.target ++ opt 2 t.measured

/-- The station summary of 166 bytes. R209 gives a slit count of 0 where no layout is held; that the score count is 0 there too is
the model's reading (log 68). -/
def State.stationBytes (s : State) (st : Station) : List Byte :=
  let r := s.station st
  le 1 r.state.code ++ le 1 r.current.code ++ le 1 r.previous.code ++ le 4 (r.order.getD 0) ++
  layoutBytes (r.layout.getD ⟨[], []⟩) ++
  le 4 ((r.late.map LateSwap.order).getD 0) ++ le 1 (stationCode (r.late.bind LateSwap.old)) ++
  optPos (r.late.map LateSwap.position) ++ le 1 (inService r.slits) ++ le 1 (inService r.scores) ++
  r.slits.flatMap toolBytes ++ r.scores.flatMap toolBytes

/-- The Read Stations reply. -/
def State.stationsBytes (s : State) : List Byte :=
  s.stationBytes .a ++ s.stationBytes .b ++ le 1 s.slitter.moves.length ++
  le 1 (s.slitter.moves.filter fun m => !m.taken).length

/-! ### Status (R17, R171, R192, R209) -/

def channelBytes (r : ChannelRec) : List Byte :=
  le 6 r.counter ++ le 4 r.backTravel ++ le 4 r.speed ++ le 1 (flags [r.saturated, r.capped])

/-- The status record of 90 bytes. -/
def State.statusBytes (s : State) (p : Port) : List Byte :=
  let r := s.port p
  channelBytes (s.channel .main) ++ channelBytes (s.channel .lane1) ++ channelBytes (s.channel .lane2) ++
  yes s.lmu.stopped ++ le 2 s.lmu.stopDuration ++
  signed (s.lane .one).offset ++ yes (s.lane .one).unsynced ++ signed (s.lane .two).offset ++ yes (s.lane .two).unsynced ++
  le 1 s.dry.released.length ++ le 1 s.dry.untaken ++ le 4 s.dry.sequence ++ yes s.dry.wrapped ++ pos s.dry.cursor ++
  yes s.dry.merge ++ le 4 s.pendingCount ++ le 1 s.part.code ++
  le 2 r.rawFlags ++ le 2 (flags (r.classes.map NoticeClass.enable)) ++ le 2 (flags (r.classes.map NoticeClass.queued)) ++
  yes r.paused ++ le 1 r.queue.length ++ le 1 r.notices

/-! ### The plan (R93, R209) -/

def lineBytes (l : Line) : List Byte :=
  le 4 l.w.id ++ le 1 l.r.phase.code ++ yes l.r.pinned ++ le 1 (stationCode l.r.station) ++ optPos l.r.p ++ optPos l.r.e ++
  opt 4 l.r.n ++ opt 4 l.r.rejects ++ opt 6 l.r.gap ++ le 4 l.r.wasteBefore

/-- A boundary's target for a stream: in the slot, waiting, or none (R82, R93). That a target whose slot is REAIMED (R107) is
still given, as in the slot and with the slot's own points, is the model's choice (log 62). -/
def State.targetBytes (s : State) (prev : PrevFigures) (l : Line) (x : Stream) : Option (List Byte) :=
  let seam := l.start - s.profile.line.g
  let held := if s.targetInSlot x l.w.id then (s.stream x).slot.filter Slot.holdsPoints else none
  match held with
  | some v => some (le 1 x.number ++ pos seam ++ pos v.firePoint ++ pos v.commitPoint ++ yes true)
  | none =>
    if s.targetWaits prev l x then
      let f := s.targetFire x l.start
      some (le 1 x.number ++ pos seam ++ pos f ++ pos (f - (s.streamProfile x).commitLead) ++ yes false)
    else none

def triggerBytes (t : Nat × Pos × Bool) : List Byte := le 1 t.1 ++ pos t.2.1 ++ yes t.2.2

/-- The LIFT of a boundary's swap that the record shows (log 32). -/
def Swap.shownLift (w : Swap) : Option SwapRec :=
  let lifts := w.lifts.filter fun r => r.status != .withdrawn
  lifts[Config.shownLift % lifts.length]?

/-- The swap of a boundary: swap byte, lift station and position, drop station and position (log 37). -/
def State.swapBytes (s : State) (l : Line) : List Byte :=
  let lift := l.w.swap.shownLift
  let drop := l.w.swap.drop.filter fun r => r.status != .withdrawn
  let released := fun (r : SwapRec) => r.status == .released
  let place := fun (r : SwapRec) => l.start - (s.stationDistance r.station : Int)
  le 1 (flags [lift.isSome, drop.isSome, (lift.map released).getD false, (drop.map released).getD false]) ++
  le 1 (stationCode (lift.map SwapRec.station)) ++ optPos (lift.map place) ++
  le 1 (stationCode (drop.map SwapRec.station)) ++ optPos (drop.map place)

/-- The planned double-slit span of a boundary: span byte, start and end. -/
def State.spanBytes (s : State) (l : Line) : List Byte :=
  if l.w.swap.doubleSlit then
    le 1 (flags [true, l.w.spanInserted]) ++ pos l.start ++ pos (l.start + s.doubleSlitLength)
  else le 1 0 ++ absentField 6 ++ absentField 6

/-- A boundary of the plan record. R93 lists its targets and triggers in no order; that the targets come by ascending stream and
the triggers by ascending entry number is the model's choice (log 61). -/
def State.boundaryBytes (s : State) (b : Line × PrevFigures) : List Byte :=
  let targets := Stream.all.filterMap (s.targetBytes b.2 b.1)
  pos b.1.start ++ le 1 targets.length ++ targets.flatten ++ counted triggerBytes (s.triggersAt b.1 b.2) ++
  s.swapBytes b.1 ++ s.spanBytes b.1

/-- The plan record. -/
def State.planBytes (s : State) : List Byte :=
  pos s.plan.w0 ++ yes s.plan.tail.isSome ++ le 1 (stationCode (s.plan.tail.map PrevFigures.station)) ++
  counted lineBytes s.lines ++ counted s.boundaryBytes s.boundaries

end Sys2Proof.Machine
end

