-- ==== Sys2Proof/Machine/Engine.lean ====
section
/-! DEFINITION. Carrying out the acts that follow one another within an event, and the tests of a counter update (log 7,
log 8). -/

namespace Sys2Proof.Machine

/-- The recogniser tests of both lanes, at a counter update of the main channel (R32). R31 puts them before the window
tests and does not order the lanes: lane 1's recogniser is tested, and its seam matched, before lane 2's (log 47). -/
def State.recognise (s : State) : State := (s.recogniserTest .one).recogniserTest .two

/-- One act. -/
def perform (t : Task) (s : State) : State :=
  match t with
  | .recognise => s.recognise
  | .matchSeam l q => s.matchSeam l q
  | .windowTest l => s.windowTest l
  | .expiry => s.expireExtents
  | .cutting => s.cutting
  | .recompute => s.recompute
  | .triggers => s.fireTrigger
  | .doneWindow x => s.doneWindowTest x
  | .commitTest x => s.commitTest x
  | .wrongGrade x => s.wrongGradeTest x
  | .fireTest x => s.fireTest x
  | .runout x => s.runoutTest x
  | .deferred x => s.deferredTest x
  | .slotFree x => s.slotFreeAct x
  | .demand st => s.setDemand st
  | .lapse st => s.lapseTest st
  | .declare => s.declare
  | .release => s.releaseTest
  | .overrun => s.overrun
  | .close id => s.closeTest id

/-- Of the recomputations one change makes due only the last is made: it serves for all of them (log 8). -/
def lastRecompute : List Task → List Task
  | [] => []
  | t :: ts => if t == .recompute && ts.contains .recompute then lastRecompute ts else t :: lastRecompute ts

/-- The acts that the Splice Sequencer makes one behind another on a stream's slot (R108, R109). -/
def Task.onSlot : Task → Bool
  | .doneWindow _ => true
  | .commitTest _ => true
  | .wrongGrade _ => true
  | .fireTest _ => true
  | .runout _ => true
  | .deferred _ => true
  | .slotFree _ => true
  | .recognise => false
  | .matchSeam _ _ => false
  | .windowTest _ => false
  | .expiry => false
  | .cutting => false
  | .recompute => false
  | .triggers => false
  | .demand _ => false
  | .lapse _ => false
  | .declare => false
  | .release => false
  | .overrun => false
  | .close _ => false

/-- The acts due after a recomputation, `h` being those that follow from it: one that is due anyway keeps its place (R109,
R165); the commit points now reached come first, then the slot acts of the event in progress (R109), then the others. -/
def afterRecompute (h rest : List Task) : List Task :=
  let fresh := h.filter fun t => t != .recompute && !rest.contains t
  h.filter (fun t => t == .recompute) ++ fresh.filter Task.onSlot ++ rest.takeWhile Task.onSlot ++
    fresh.filter (fun t => !t.onSlot) ++ rest.dropWhile Task.onSlot

/-- The acts due after an act `t`: those it made due, `new`, then the rest. One recomputation serves for all that are due,
and stands where the last of those just made due stands (log 8). -/
def mergeWork (t : Task) (new rest : List Task) : List Task :=
  let new := lastRecompute new
  let rest := if new.contains .recompute then rest.filter fun t => t != .recompute else rest
  if t = .recompute then afterRecompute new rest else new ++ rest

/-- The acts that are due carried out in turn, at most `fuel` of them; what is left stays due (log 9). -/
def settle : Nat → State → State
  | 0, s => s
  | fuel + 1, s =>
    match s.work with
    | [] => s
    | t :: rest =>
      let s' := perform t { s with work := [] }
      settle fuel { s' with work := mergeWork t s'.work rest }

/-- The end of an event: every act it made due is carried out, one recomputation serving for all that the command itself made
due (log 8). -/
def State.settled (s : State) : State := settle Config.actsPerEvent { s with work := lastRecompute s.work }

/-- An event: the change a command makes and every act that follows from it. While the reset input is asserted the part is
held at its reset values and no command has an effect (R3, log 5). -/
def event (f : State → State) (s : State) : Host.Outcome State Fault Refusal :=
  .next (if s.resetAsserted then s else (f s).settled)

/-! ### The acts at a counter update -/

/-- The slot acts of a stream at a counter update of its channel (R109, R110, R113, R114, R116, R118). -/
def streamActs (x : Stream) : List Task := [.doneWindow x, .commitTest x, .wrongGrade x, .fireTest x, .runout x]

/-- The acts at a counter update of a channel, in the order of the blocks' chapters (log 7). -/
def updateActs : Channel → List Task
  | .main =>
    [.recognise, .windowTest .one, .windowTest .two, .expiry, .cutting, .triggers] ++ streamActs .s5 ++
      [.lapse .a, .lapse .b, .declare, .release, .overrun]
  | .lane1 => streamActs .s1 ++ streamActs .s2
  | .lane2 => streamActs .s3 ++ streamActs .s4

end Sys2Proof.Machine
end

