-- ==== Sys2Proof/Machine/Requests.lean ====
section
/-! DEFINITION. How a request is taken: dropped, refused or done, with its one reply (08 sections 8.2 and 8.3). -/

namespace Sys2Proof.Machine

/-- The refusal causes (R206). -/
inductive RefusalCause where
  | format | rights | state | unknown | duplicate | full | range | frozen | clash | late
  deriving DecidableEq, Repr

/-- The code of a refusal cause (R206). -/
def RefusalCause.code : RefusalCause → Nat
  | .format => 1
  | .rights => 2
  | .state => 3
  | .unknown => 4
  | .duplicate => 5
  | .full => 6
  | .range => 7
  | .frozen => 8
  | .clash => 9
  | .late => 10

/-- What the rule that owns a request answers: a refusal with its cause and section (0 but for Release Line), or a DONE
payload with what the request does before its reply joins the out-queue and after (R180, R181). -/
inductive Verdict where
  | refuse (cause : RefusalCause) (sectionCode : Nat)
  | done (payload : List Byte) (before after : State → State)

/-- A refusal that names no section. -/
def Verdict.no (c : RefusalCause) : Verdict := .refuse c 0

/-- DONE without a payload; the effect follows the reply. -/
def Verdict.ok (effect : State → State) : Verdict := .done [] id effect

/-- DONE with a payload and no effect. -/
def Verdict.read (payload : List Byte) : Verdict := .done payload id id

/-- The kinds accepted on a port (R183, R208): 01h to 09h planning, 10h to 17h wet, 20h to 26h dry, 30h to 39h all. -/
def accepted (p : Port) (kind : Nat) : Bool :=
  (0x30 ≤ kind && kind ≤ 0x39) ||
  match p with
  | .planning => 0x01 ≤ kind && kind ≤ 0x09
  | .wet => 0x10 ≤ kind && kind ≤ 0x17
  | .dry => 0x20 ≤ kind && kind ≤ 0x26

/-- A reply joins a port's out-queue (R179). -/
def State.reply (s : State) (p : Port) (f : Frame) : State := s.setPort p ((s.port p).append f)

/-- Whether a port's out-queue is full, so that a request is dropped (R179). -/
def State.portFull (s : State) (p : Port) : Bool := Config.framesMax ≤ (s.port p).queue.length

/-- A request dropped (R179). -/
def State.dropRequest (s : State) (p : Port) : State := s.raise (.requestDropped p)

/-- A verdict carried out and answered (R180, R181). -/
def State.answer (s : State) (p : Port) (tag : Byte) (kind : Nat) : Verdict → State
  | .refuse c x => s.reply p (refusedReply kind tag c.code x)
  | .done payload before after => after ((before s).reply p (doneReply kind tag payload))

/-- A request that is not dropped: refused RIGHTS on a port that does not accept its kind, else answered (R181). -/
def State.judge (s : State) (p : Port) (tag : Byte) (kind : Nat) (v : Verdict) : State :=
  if accepted p kind then s.answer p tag kind v else s.reply p (refusedReply kind tag RefusalCause.rights.code 0)

/-- A request frame that has arrived: dropped where the out-queue is full, else judged (R179, R181). -/
def State.takeRequest (s : State) (p : Port) (tag : Byte) (kind : Nat) (v : Verdict) : State :=
  if s.portFull p then s.dropRequest p else s.judge p tag kind v

/-- The event of a request: it is taken whole, with every act that follows from it (R180, R182, log 6, log 42). -/
def request (p : Port) (tag : Byte) (kind : Nat) (v : State → Verdict) (s : State) : Host.Outcome State Fault Refusal :=
  event (fun s => s.takeRequest p tag kind (v s)) s

end Sys2Proof.Machine
end

