-- ==== Sys2Proof/Machine/CommonRequests.lean ====
section
/-! DEFINITION. The requests of all three ports: reading, and the notice controls (08). -/

namespace Sys2Proof.Machine

/-! ### Reading (R192, R41, R64, R125, R150) -/

def readStatusVerdict (p : Port) (s : State) : Verdict := .read (s.statusBytes p)

/-- Read Status (R17, R171, R192, kind 30h). -/
def execReadStatus (p : Port) (tag : Byte) (s : State) : Host.Outcome State Fault Refusal :=
  request p tag 0x30 (readStatusVerdict p) s

def readMapVerdict (sectionCode first : Nat) (s : State) : Verdict :=
  if 47 < first then .no .range
  else
    match sectionCode with
    | 0 => .read (mainMapBytes s.map.track first)
    | 1 => .read (s.laneMapBytes .one)
    | 2 => .read (s.laneMapBytes .two)
    | _ => .no .range

/-- Read Map (R41, kind 31h, log 33). -/
def execReadMap (p : Port) (tag : Byte) (sectionCode first : Nat) (s : State) : Host.Outcome State Fault Refusal :=
  request p tag 0x31 (readMapVerdict sectionCode first) s

def readOrderVerdict (id : Nat) (s : State) : Verdict :=
  match s.order? id with
  | some r => .read (orderBytes r (s.book.findIdx fun r => r.fig.id == id))
  | none => .no .unknown

/-- Read Order (R64, kind 32h). -/
def execReadOrder (p : Port) (tag : Byte) (id : Nat) (s : State) : Host.Outcome State Fault Refusal :=
  request p tag 0x32 (readOrderVerdict id) s

def readStreamVerdict (x : Nat) (s : State) : Verdict :=
  match Stream.ofCode? x with
  | some x => .read (s.streamBytes x)
  | none => .no .range

/-- Read Stream (R125, kind 33h). -/
def execReadStream (p : Port) (tag : Byte) (x : Nat) (s : State) : Host.Outcome State Fault Refusal :=
  request p tag 0x33 (readStreamVerdict x) s

def readStationsVerdict (s : State) : Verdict := .read s.stationsBytes

/-- Read Stations (R150, kind 34h). -/
def execReadStations (p : Port) (tag : Byte) (s : State) : Host.Outcome State Fault Refusal :=
  request p tag 0x34 readStationsVerdict s

/-! ### Notice controls (R188 to R191) -/

/-- Whether a set names a class number that the port does not have (R188, R189). -/
def PortRec.namesOther (p : PortRec) (classes : BitVec 16) : Bool := 2 ^ p.classes.length ≤ classes.toNat

/-- Each class with the member of a set that its number names. -/
def PortRec.mapClasses (p : PortRec) (classes : BitVec 16) (f : NoticeClass → Bool → NoticeClass) : PortRec :=
  { p with classes := p.classes.zipIdx.map fun x => f x.1 (classes.getLsbD x.2) }

/-- The enables taken, and a queue attempt (R188). -/
def State.setEnables (s : State) (p : Port) (classes : BitVec 16) : State :=
  (s.setPort p ((s.port p).mapClasses classes fun c b => { c with enable := b })).attempt p

def setNoticeEnablesVerdict (p : Port) (classes : BitVec 16) (s : State) : Verdict :=
  if (s.port p).namesOther classes then .no .range else .ok fun s => s.setEnables p classes

/-- Set Notice Enables (R188, kind 35h). -/
def execSetNoticeEnables (p : Port) (tag : Byte) (classes : BitVec 16) (s : State) : Host.Outcome State Fault Refusal :=
  request p tag 0x35 (setNoticeEnablesVerdict p classes) s

/-- Whether a frame is a notice of a named class. -/
def Frame.isNamed (classes : BitVec 16) : Frame → Bool
  | .reply _ _ _ => false
  | .notice n => classes.getLsbD n

/-- The named classes' raw flags and markers cleared and their notices removed (R189). -/
def PortRec.clearClasses (p : PortRec) (classes : BitVec 16) : PortRec :=
  let q := p.mapClasses classes fun c b => if b then { c with raw := false, queued := false } else c
  { q with queue := q.queue.filter fun f => !f.isNamed classes }

def clearNoticesVerdict (p : Port) (classes : BitVec 16) (s : State) : Verdict :=
  if (s.port p).namesOther classes then .no .range
  else .done [] (fun s => s.setPort p ((s.port p).clearClasses classes)) fun s => s.attempt p

/-- Clear Notices (R189, kind 36h). -/
def execClearNotices (p : Port) (tag : Byte) (classes : BitVec 16) (s : State) : Host.Outcome State Fault Refusal :=
  request p tag 0x36 (clearNoticesVerdict p classes) s

/-- A port's pause flag set or cleared (R190). -/
def State.setPause (s : State) (p : Port) (b : Bool) : State := s.setPort p { s.port p with paused := b }

def pauseNoticesVerdict (p : Port) (_ : State) : Verdict := .ok fun s => s.setPause p true

/-- Pause Notices (R190, kind 37h). -/
def execPauseNotices (p : Port) (tag : Byte) (s : State) : Host.Outcome State Fault Refusal :=
  request p tag 0x37 (pauseNoticesVerdict p) s

def resumeNoticesVerdict (p : Port) (_ : State) : Verdict := .ok fun s => (s.setPause p false).attempt p

/-- Resume Notices (R190, kind 38h). -/
def execResumeNotices (p : Port) (tag : Byte) (s : State) : Host.Outcome State Fault Refusal :=
  request p tag 0x38 (resumeNoticesVerdict p) s

/-- The out-queue emptied, every queued marker and the pause flag cleared (R191, steps 1 and 2). -/
def PortRec.restart (p : PortRec) : PortRec :=
  { p with queue := [], classes := p.classes.map fun c => { c with queued := false }, paused := false }

/-- The taken records and tool moves made untaken, on the dry port alone (R191, step 3). -/
def State.untakeAll (s : State) (p : Port) : State :=
  match p with
  | .dry =>
    let u := { s.slitter with moves := s.slitter.moves.map fun (m : MoveEntry) => { m with taken := false } }
    ({ s with slitter := u }).untake
  | .planning => s
  | .wet => s

/-- Restart Port empties the port, then its reply joins, then the notices the restart raises and the waiting classes
(R191, R180). -/
def restartPortVerdict (p : Port) (_ : State) : Verdict :=
  .done [] (fun s => s.setPort p (s.port p).restart) fun s => (s.untakeAll p).attempt p

/-- Restart Port (R191, kind 39h). -/
def execRestartPort (p : Port) (tag : Byte) (s : State) : Host.Outcome State Fault Refusal :=
  request p tag 0x39 (restartPortVerdict p) s

end Sys2Proof.Machine
end

