-- ==== Sys2Proof/Machine/DryRequests.lean ====
section
/-! DEFINITION. The requests of the dry port: actions, quality rejects, tool moves and tool service (07, 06). -/

namespace Sys2Proof.Machine

/-! ### Take Actions and Action Done (R161, R162) -/

/-- The records given become taken (R161). -/
def State.takeActions (s : State) : State := { s with dry := s.dry.take }

/-- The reply gives each record as it stands before the request makes it taken (log 55). -/
def takeActionsVerdict (s : State) : Verdict := .done (counted actionBytes s.dry.toTake) id State.takeActions

/-- Take Actions (R161, kind 20h). -/
def execTakeActions (p : Port) (tag : Byte) (s : State) : Host.Outcome State Fault Refusal :=
  request p tag 0x20 takeActionsVerdict s

def actionDoneVerdict (sequence measured : Nat) (s : State) : Verdict :=
  if sequence == 0 || Config.counterMax < measured then .no .range
  else
    match s.dry.released.find? fun r => r.sequence == sequence with
    | some r => .ok fun s => s.execute r measured
    | none => if s.dry.givenOut sequence then .no .late else .no .unknown

/-- Action Done (R162, kind 21h). -/
def execActionDone (p : Port) (tag : Byte) (sequence measured : Nat) (s : State) : Host.Outcome State Fault Refusal :=
  request p tag 0x21 (actionDoneVerdict sequence measured) s

/-! ### Quality Reject (R169) -/

def qualityRejectVerdict (first last : Nat) (s : State) : Verdict :=
  if last ≤ first || Config.counterMax < last then .no .range
  else
    let c := s.dry.covered first last
    .done (le 1 c.length ++ le 1 (c.filter fun r => r.disposition == some .good).length) id
      fun s => s.insertExtent (.closed first last .quality)

/-- Quality Reject (R169, kind 22h). -/
def execQualityReject (p : Port) (tag : Byte) (first last : Nat) (s : State) : Host.Outcome State Fault Refusal :=
  request p tag 0x22 (qualityRejectVerdict first last) s

/-! ### Take Tool Moves (R135) -/

/-- The moves given: up to 6 of the oldest untaken entries (R135). -/
def SlitterUnit.toTake (u : SlitterUnit) : List MoveEntry := (u.moves.filter fun m => !m.taken).take 6

/-- The first `n` untaken entries made taken (R135). -/
def takeFirst : Nat → List MoveEntry → List MoveEntry
  | 0, ms => ms
  | _, [] => []
  | n + 1, m :: ms => if m.taken then m :: takeFirst (n + 1) ms else { m with taken := true } :: takeFirst n ms

def State.takeToolMoves (s : State) : State := { s with slitter := { s.slitter with moves := takeFirst 6 s.slitter.moves } }

def takeToolMovesVerdict (s : State) : Verdict := .done (counted moveBytes s.slitter.toTake) id State.takeToolMoves

/-- Take Tool Moves (R135, kind 23h). -/
def execTakeToolMoves (p : Port) (tag : Byte) (s : State) : Host.Outcome State Fault Refusal :=
  request p tag 0x23 takeToolMovesVerdict s

/-! ### Tool Placed, Tool Out, Tool In (R136, R140, R141) -/

/-- A tool named by its codes and number; a number outside its kind's range names none (R136, R207). -/
def State.namedTool (s : State) (st kind number : Nat) : Option (Station × ToolKind × Tool) :=
  match Station.ofCode? st, ToolKind.ofCode? kind with
  | some st, some k => if 1 ≤ number && number ≤ k.tools then (s.tool? st k number).map fun t => (st, k, t) else none
  | _, _ => none

def toolPlacedVerdict (st kind number measured : Nat) (s : State) : Verdict :=
  match s.namedTool st kind number with
  | some (st, k, t) =>
    if measured ≤ Config.crossMax then
      if t.state == .moving then .ok fun s => s.placeTool st k number measured t else .no .state
    else .no .range
  | none => .no .range

/-- Tool Placed (R136, kind 24h). -/
def execToolPlaced (p : Port) (tag : Byte) (st kind number measured : Nat) (s : State) : Host.Outcome State Fault Refusal :=
  request p tag 0x24 (toolPlacedVerdict st kind number measured) s

def toolOutVerdict (st kind number : Nat) (s : State) : Verdict :=
  match s.namedTool st kind number with
  | some (st, k, t) => if t.state == .out then .no .state else .ok fun s => s.takeToolOut st k number t
  | none => .no .range

/-- Tool Out (R140, kind 25h). -/
def execToolOut (p : Port) (tag : Byte) (st kind number : Nat) (s : State) : Host.Outcome State Fault Refusal :=
  request p tag 0x25 (toolOutVerdict st kind number) s

def toolInVerdict (st kind number : Nat) (s : State) : Verdict :=
  match s.namedTool st kind number with
  | some (st, k, t) => if t.state == .out then .ok fun s => s.takeToolIn st k number else .no .state
  | none => .no .range

/-- Tool In (R141, kind 26h). -/
def execToolIn (p : Port) (tag : Byte) (st kind number : Nat) (s : State) : Host.Outcome State Fault Refusal :=
  request p tag 0x26 (toolInVerdict st kind number) s

end Sys2Proof.Machine
end

