-- ==== Sys2Proof/Machine/Parse.lean ====
section
/-! DEFINITION. Reading the bytes of a request frame (R206, R208). -/

namespace Sys2Proof.Machine

/-! ### Values (R207) -/

/-- A little-endian number. -/
def numberOf : List Byte → Nat
  | [] => 0
  | b :: bs => b.toNat + 256 * numberOf bs

/-- The field of `w` bytes at place `i` of a payload. -/
def field (bs : List Byte) (i w : Nat) : Nat := numberOf ((bs.drop i).take w)

/-- The signed field of six bytes at place `i` (R207). -/
def signedField (bs : List Byte) (i : Nat) : Int := (BitVec.ofNat 48 (field bs i 6)).toInt

/-- `n` two-byte positions from place `i`. -/
def positionsAt (bs : List Byte) : Nat → Nat → List Nat
  | _, 0 => []
  | i, n + 1 => field bs i 2 :: positionsAt bs (i + 2) n

/-- The layout at place `i`: two counts and 18 positions. -/
def layoutAt (bs : List Byte) (i : Nat) : RawLayout :=
  { slitCount := field bs i 1, scoreCount := field bs (i + 1) 1
    slits := positionsAt bs (i + 2) 8, scores := positionsAt bs (i + 18) 10 }

/-! ### Payloads (R208, R209) -/

/-- The order figures of an Add Order: the order record's first bytes less the index. -/
def orderAt (bs : List Byte) : RawOrder :=
  { id := field bs 0 4, grade1 := field bs 4 1, grade2 := field bs 5 1, grade3 := field bs 6 1, grade4 := field bs 7 1
    grade5 := field bs 8 1, sf := field bs 9 4, t := field bs 13 4, a := field bs 17 2, m := field bs 19 1
    q := field bs 20 2, layout := layoutAt bs 22 }

/-- Whether bit `n` of the byte at place `i` is set. -/
def bitAt (bs : List Byte) (i n : Nat) : Bool := (field bs i 1).testBit n

/-- The payload of an Amend Order; bits 5 to 7 of the carried set name nothing (log 25). -/
def amendAt (bs : List Byte) : RawAmend :=
  { id := field bs 0 4, hasT := bitAt bs 4 0, hasA := bitAt bs 4 1, hasM := bitAt bs 4 2, hasQ := bitAt bs 4 3
    hasLayout := bitAt bs 4 4, t := field bs 5 4, a := field bs 9 2, m := field bs 11 1, q := field bs 12 2
    layout := layoutAt bs 14 }

def streamSectionAt (bs : List Byte) : RawStreamSection :=
  { active := field bs 1 1, splicerDistance := field bs 2 4, commitLead := field bs 6 4, spliceMaxSpeed := field bs 10 4
    seamLead := field bs 14 2, seamTrail := field bs 16 2, fastExtra := field bs 18 2, runoutReserve := field bs 20 4
    butt := field bs 24 4, doneWindow := field bs 28 4, driveMode := field bs 32 1 }

def laneSectionAt (bs : List Byte) : RawLaneSection :=
  { kBase := signedField bs 1, dDet := field bs 7 4, wConfirm := field bs 11 2, maxCorrection := field bs 13 2
    preQuiet := field bs 15 2, minActive := field bs 17 2, maxGap := field bs 19 2, postQuiet := field bs 21 2
    unsyncedExtra := field bs 23 4, rethreadLength := field bs 27 4 }

def lineSectionAt (bs : List Byte) : RawLineSection :=
  { g := field bs 1 4, wg := field bs 5 4, h := field bs 9 4, swapLead := field bs 13 4, execTolerance := field bs 17 4
    stopTime := field bs 21 2, weightMain := field bs 23 2, weightLane1 := field bs 25 2, weightLane2 := field bs 27 2
    filterMain := field bs 29 1, filterLane1 := field bs 30 1, filterLane2 := field bs 31 1 }

def slitterSectionAt (bs : List Byte) : RawSlitterSection :=
  { dA := field bs 1 4, dB := field bs 5 4, minSlitSpacing := field bs 9 2, minScoreSpacing := field bs 11 2
    placeTolerance := field bs 13 2, placeAttempts := field bs 15 1 }

def entrySectionAt (bs : List Byte) : RawEntrySection :=
  { enable := field bs 1 1, kind := field bs 2 1, dNear := field bs 3 4, dFar := field bs 7 4
    changeLead := field bs 11 4, stopTolerance := field bs 15 2 }

/-- The section a load carries, by its section code (R206). -/
def sectionAt (bs : List Byte) : SectionLoad :=
  let c := field bs 0 1
  if 1 ≤ c && c ≤ 5 then .stream c (streamSectionAt bs)
  else if 6 ≤ c && c ≤ 7 then .lane (c - 5) (laneSectionAt bs)
  else if c = 8 then .line (lineSectionAt bs)
  else if c = 9 then .slitter (slitterSectionAt bs)
  else if 10 ≤ c && c ≤ 21 then .entry (c - 9) (entrySectionAt bs)
  else .unknown c

/-- The lengths a load may have for a section code; a code that names no section is accepted at any of the five (R208). -/
def sectionLengths (c : Nat) : List Nat :=
  if 1 ≤ c && c ≤ 5 then [35]
  else if 6 ≤ c && c ≤ 7 then [33]
  else if c = 8 then [34]
  else if c = 9 then [18]
  else if 10 ≤ c && c ≤ 21 then [19]
  else [35, 33, 34, 18, 19]

/-- The lengths R208 gives for a kind, with the payload for Load Profile Section; none for a kind not in the catalogue. -/
def lengthsOf (kind : Nat) (payload : List Byte) : List Nat :=
  match kind with
  | 0x01 => [62]
  | 0x02 => [54]
  | 0x03 => [6]
  | 0x04 => [6]
  | 0x05 => [3]
  | 0x06 => [2]
  | 0x07 => sectionLengths (field payload 0 1)
  | 0x08 => [2]
  | 0x09 => [2]
  | 0x10 => [9]
  | 0x11 => [4]
  | 0x12 => [3]
  | 0x13 => [3]
  | 0x14 => [8]
  | 0x15 => [4]
  | 0x16 => [9]
  | 0x17 => [2]
  | 0x20 => [2]
  | 0x21 => [12]
  | 0x22 => [14]
  | 0x23 => [2]
  | 0x24 => [7]
  | 0x25 => [5]
  | 0x26 => [5]
  | 0x30 => [2]
  | 0x31 => [4]
  | 0x32 => [6]
  | 0x33 => [3]
  | 0x34 => [2]
  | 0x35 => [4]
  | 0x36 => [4]
  | 0x37 => [2]
  | 0x38 => [2]
  | 0x39 => [2]
  | _ => []

/-- The request that a kind and a payload of its length carry (R208). -/
def requestOf (p : Port) (kind : Nat) (tag : Byte) (bs : List Byte) : Option Instr :=
  match kind with
  | 0x01 => some (.addOrder p tag (orderAt bs))
  | 0x02 => some (.amendOrder p tag (amendAt bs))
  | 0x03 => some (.cancelOrder p tag (field bs 0 4))
  | 0x04 => some (.discardOrder p tag (field bs 0 4))
  | 0x05 => some (.readBook p tag (field bs 0 1))
  | 0x06 => some (.readPlan p tag)
  | 0x07 => some (.loadProfileSection p tag (sectionAt bs))
  | 0x08 => some (.releaseLine p tag)
  | 0x09 => some (.clearLine p tag)
  | 0x10 => some (.declareReel p tag (field bs 0 1) (field bs 1 1) (field bs 2 1) (field bs 3 4))
  | 0x11 => some (.withdrawReel p tag (field bs 0 1) (field bs 1 1))
  | 0x12 => some (.manualSplice p tag (field bs 0 1))
  | 0x13 => some (.webBreak p tag (field bs 0 1))
  | 0x14 => some (.webRestored p tag (field bs 0 1) (field bs 1 1) (field bs 2 4))
  | 0x15 => some (.streamRecover p tag (field bs 0 1) (field bs 1 1))
  | 0x16 => some (.laneSync p tag (field bs 0 1) (signedField bs 1))
  | 0x17 => some (.readStationChanges p tag)
  | 0x20 => some (.takeActions p tag)
  | 0x21 => some (.actionDone p tag (field bs 0 4) (field bs 4 6))
  | 0x22 => some (.qualityReject p tag (field bs 0 6) (field bs 6 6))
  | 0x23 => some (.takeToolMoves p tag)
  | 0x24 => some (.toolPlaced p tag (field bs 0 1) (field bs 1 1) (field bs 2 1) (field bs 3 2))
  | 0x25 => some (.toolOut p tag (field bs 0 1) (field bs 1 1) (field bs 2 1))
  | 0x26 => some (.toolIn p tag (field bs 0 1) (field bs 1 1) (field bs 2 1))
  | 0x30 => some (.readStatus p tag)
  | 0x31 => some (.readMap p tag (field bs 0 1) (field bs 1 1))
  | 0x32 => some (.readOrder p tag (field bs 0 4))
  | 0x33 => some (.readStream p tag (field bs 0 1))
  | 0x34 => some (.readStations p tag)
  | 0x35 => some (.setNoticeEnables p tag (BitVec.ofNat 16 (field bs 0 2)))
  | 0x36 => some (.clearNotices p tag (BitVec.ofNat 16 (field bs 0 2)))
  | 0x37 => some (.pauseNotices p tag)
  | 0x38 => some (.resumeNotices p tag)
  | 0x39 => some (.restartPort p tag)
  | _ => none

/-- What the bytes received in a select period are: no request, a frame refused FORMAT with the kind and tag its reply
carries, or a request with its kind and tag (R176, R206). -/
inductive Received where
  | nothing
  | malformed (kind : Nat) (tag : Byte)
  | request (kind : Nat) (tag : Byte) (i : Instr)
  deriving DecidableEq, Repr

/-- The frame behind a length byte of at least 2: too short, of a kind or a length that is not in the catalogue, or a
request; bytes past the length are ignored (R206). -/
def frameOf (p : Port) (length : Nat) (rest : List Byte) : Received :=
  let kind := (rest[0]?.map BitVec.toNat).getD 0
  let tag := rest[1]?.getD 0
  let payload := (rest.take length).drop 2
  if rest.length < length then .malformed kind tag
  else if (lengthsOf kind payload).contains length then
    match requestOf p kind tag payload with
    | some i => .request kind tag i
    | none => .malformed kind tag
  else .malformed kind tag

/-- The bytes received in a select period judged as R206 states. -/
def received (p : Port) : List Byte → Received
  | [] => .nothing
  | b :: rest =>
    if b.toNat = 0 then .nothing
    else if b.toNat = 1 then .malformed 0 0
    else frameOf p b.toNat rest

end Sys2Proof.Machine
end

