-- ==== Sys2Proof/Machine/PlanningRequests.lean ====
section
/-! DEFINITION. The requests of the planning port: the book (03), the profile and the part states (09), the plan (04). -/

namespace Sys2Proof.Machine

/-! ### Add Order (R47) -/

/-- An order's record appended to the book and offered to the planner (R44, R47). -/
def State.appendOrder (s : State) (f : OrderFigures) : State :=
  State.replan { s with book := s.book ++ [{ fig := f }] }

def addOrderVerdict (o : RawOrder) (s : State) : Verdict :=
  if Config.bookMax ≤ s.book.length then .no .full
  else if (s.order? o.id).isSome then .no .duplicate
  else if !figuresInRange o then .no .range
  else if !s.profile.formatPasses (figuresOf o) then .no .format
  else .done (le 1 s.book.length) id fun s => s.appendOrder (figuresOf o)

/-- Add Order (R47, kind 01h). -/
def execAddOrder (p : Port) (tag : Byte) (o : RawOrder) (s : State) : Host.Outcome State Fault Refusal :=
  request p tag 0x01 (addOrderVerdict o) s

/-! ### Amend Order (R51 to R53) -/

/-- Whether every carried figure lies in its range (R51, check 2). -/
def amendInRange (x : RawAmend) : Bool :=
  (!x.hasT || targetInRange x.t) && (!x.hasA || allowanceInRange x.a) && (!x.hasM || marginInRange x.m) &&
  (!x.hasQ || stackInRange x.q) && (!x.hasLayout || layoutInRange x.layout)

/-- Whether an order is PLANNED with its end OPEN (R52). -/
def OrderRec.plannedOpen (r : OrderRec) : Bool := r.phase == .planned && !r.pinned

/-- Whether the record's phase and end state allow the change (R52). An Amend Order that carries nothing is refused FROZEN
too where any carried figure would be (log 54). -/
def State.amendAllowed (s : State) (r : OrderRec) (x : RawAmend) : Bool :=
  r.phase == .queued ||
  (r.plannedOpen && (!x.hasT || r.fig.t ≤ x.t) && (!x.hasA || r.fig.a ≤ x.a) && (!x.hasM || r.fig.m ≤ x.m) &&
    (!x.hasLayout || s.lines.all fun l => l.w.id != x.id || !l.setupBegun))

/-- Whether a carried layout passes the spacing test and, for an order in the window, can be placed (R51, R53). -/
def State.amendFits (s : State) (x : RawAmend) : Bool :=
  !x.hasLayout ||
  (s.profile.spacingPasses (layoutOf x.layout) &&
    s.lines.all fun l =>
      l.w.id != x.id || (s.station (s.stationFor l (layoutOf x.layout))).canPlace (layoutOf x.layout))

/-- The figures with those carried written over them (R51). -/
def amendFigures (f : OrderFigures) (x : RawAmend) : OrderFigures :=
  { f with
    t := if x.hasT then x.t else f.t
    a := if x.hasA then x.a else f.a
    m := if x.hasM then x.m else f.m
    q := if x.hasQ then x.q else f.q
    layout := if x.hasLayout then layoutOf x.layout else f.layout }

/-- The record after an accepted Amend Order: a QUEUED record's blocked cause and station are taken back (R50, R51). -/
def OrderRec.amend (r : OrderRec) (x : RawAmend) : OrderRec :=
  { r with
    fig := amendFigures r.fig x
    blocked := .none
    station := if r.phase == .queued then none else r.station }

def amendOrderVerdict (x : RawAmend) (s : State) : Verdict :=
  match s.order? x.id with
  | none => .no .unknown
  | some r =>
    if !amendInRange x then .no .range
    else if !s.amendAllowed r x then .no .frozen
    else if !s.amendFits x then .no .format
    else .ok fun s => (s.modifyOrder x.id fun r => r.amend x).replan

/-- Amend Order (R51, kind 02h). -/
def execAmendOrder (p : Port) (tag : Byte) (x : RawAmend) (s : State) : Host.Outcome State Fault Refusal :=
  request p tag 0x02 (amendOrderVerdict x) s

/-! ### Cancel and Discard Order (R55 to R57, R62) -/

def cancelOrderVerdict (id : Nat) (s : State) : Verdict :=
  match s.order? id with
  | none => .no .unknown
  | some r =>
    match r.phase with
    | .closed => .no .state
    | .cancelled => .no .state
    | .queued => .ok fun s => s.cancelQueued id
    | .planned => .ok fun s => if s.startPinned id then s.cancelAfterStart id else s.cancelUnpinned id
    | .cutting => .ok fun s => s.cancelAfterStart id

/-- Cancel Order (R55 to R57, kind 03h). -/
def execCancelOrder (p : Port) (tag : Byte) (id : Nat) (s : State) : Host.Outcome State Fault Refusal :=
  request p tag 0x03 (cancelOrderVerdict id) s

/-- Whether a record may be discarded: CLOSED, or CANCELLED and out of the window (R62). -/
def State.discardable (s : State) (r : OrderRec) : Bool :=
  r.phase == .closed || (r.phase == .cancelled && (s.windowOrder? r.fig.id).isNone)

/-- An order's record removed from the book (R44). -/
def State.removeOrder (s : State) (id : Nat) : State := { s with book := s.book.filter fun r => r.fig.id != id }

def discardOrderVerdict (id : Nat) (s : State) : Verdict :=
  match s.order? id with
  | none => .no .unknown
  | some r =>
    if s.discardable r then .ok fun s => s.removeOrder id else .no .state

/-- Discard Order (R62, kind 04h). -/
def execDiscardOrder (p : Port) (tag : Byte) (id : Nat) (s : State) : Host.Outcome State Fault Refusal :=
  request p tag 0x04 (discardOrderVerdict id) s

/-! ### Reading the book and the plan (R65, R93) -/

def readBookVerdict (first : Nat) (s : State) : Verdict :=
  if 31 < first then .no .range else .read (bookBytes s.book first)

/-- Read Book (R65, kind 05h). -/
def execReadBook (p : Port) (tag : Byte) (first : Nat) (s : State) : Host.Outcome State Fault Refusal :=
  request p tag 0x05 (readBookVerdict first) s

def readPlanVerdict (s : State) : Verdict := .read s.planBytes

/-- Read Plan (R93, kind 06h). -/
def execReadPlan (p : Port) (tag : Byte) (s : State) : Host.Outcome State Fault Refusal :=
  request p tag 0x06 readPlanVerdict s

/-! ### Load Profile Section (R195 to R197) -/

def DriveMode.ofCode? : Nat → Option DriveMode
  | 1 => some .input
  | 2 => some .delay100
  | 3 => some .delay200
  | 4 => some .delay400
  | 5 => some .delay800
  | _ => none

def EntryKind.ofCode? : Nat → Option EntryKind
  | 1 => some .preheater
  | 2 => some .glueUnit
  | 3 => some .hotPlate
  | _ => none

/-- A stream section whose fields lie in their ranges (09 section 9.1). -/
def streamSection? (f : RawStreamSection) : Option StreamProfile :=
  match DriveMode.ofCode? f.driveMode with
  | none => none
  | some mode =>
    if f.active ≤ 1 && f.splicerDistance ≤ 4000000 && f.commitLead ≤ 500000 && f.spliceMaxSpeed ≤ 6553500 &&
        f.seamLead ≤ 50000 && f.seamTrail ≤ 50000 && f.fastExtra ≤ 20000 && f.runoutReserve ≤ 5000000 &&
        f.butt ≤ 500000 && f.doneWindow ≤ 100000 then
      some
        { active := f.active == 1, splicerDistance := f.splicerDistance, commitLead := f.commitLead
          spliceMaxSpeed := f.spliceMaxSpeed, seamLead := f.seamLead, seamTrail := f.seamTrail
          fastExtra := f.fastExtra, runoutReserve := f.runoutReserve, butt := f.butt
          doneWindow := f.doneWindow, driveMode := mode }
    else none

/-- A lane section whose fields lie in their ranges. -/
def laneSection? (f : RawLaneSection) : Option LaneProfile :=
  if f.kBase.natAbs ≤ Config.counterMax && f.dDet ≤ 2000000 && f.wConfirm ≤ 50000 && f.maxCorrection ≤ 50000 &&
      f.preQuiet ≤ 10000 && f.minActive ≤ 10000 && f.maxGap ≤ 10000 && f.postQuiet ≤ 10000 &&
      f.unsyncedExtra ≤ 100000 && f.rethreadLength ≤ 1000000 then
    some
      { kBase := f.kBase, dDet := f.dDet, wConfirm := f.wConfirm, maxCorrection := f.maxCorrection
        preQuiet := f.preQuiet, minActive := f.minActive, maxGap := f.maxGap, postQuiet := f.postQuiet
        unsyncedExtra := f.unsyncedExtra, rethreadLength := f.rethreadLength }
  else none

/-- A line section whose fields lie in their ranges. -/
def lineSection? (f : RawLineSection) : Option LineProfile :=
  if f.g ≤ 200000 && 3000 ≤ f.wg && f.wg ≤ 80000 && 20000 ≤ f.h && f.h ≤ 400000 && f.swapLead ≤ 400000 &&
      f.execTolerance ≤ 100000 && 200 ≤ f.stopTime && f.stopTime ≤ 5000 &&
      f.weightMain ≤ 65535 && f.weightLane1 ≤ 65535 && f.weightLane2 ≤ 65535 &&
      f.filterMain ≤ 255 && f.filterLane1 ≤ 255 && f.filterLane2 ≤ 255 then
    some
      { g := f.g, wg := f.wg, h := f.h, swapLead := f.swapLead, execTolerance := f.execTolerance
        stopTime := f.stopTime, pulseWeight := ⟨f.weightMain, f.weightLane1, f.weightLane2⟩
        filterWidth := ⟨f.filterMain, f.filterLane1, f.filterLane2⟩ }
  else none

/-- A slitter section whose fields lie in their ranges. -/
def slitterSection? (f : RawSlitterSection) : Option SlitterProfile :=
  if f.dA ≤ 500000 && f.dB ≤ 500000 && f.minSlitSpacing ≤ 28000 && f.minScoreSpacing ≤ 28000 &&
      f.placeTolerance ≤ 1000 && 1 ≤ f.placeAttempts && f.placeAttempts ≤ 8 then
    some
      { dA := f.dA, dB := f.dB, minSlitSpacing := f.minSlitSpacing, minScoreSpacing := f.minScoreSpacing
        placeTolerance := f.placeTolerance, placeAttempts := f.placeAttempts }
  else none

/-- A station entry section whose fields lie in their ranges. -/
def entrySection? (f : RawEntrySection) : Option EntryProfile :=
  match EntryKind.ofCode? f.kind with
  | none => none
  | some kind =>
    if f.enable ≤ 1 && f.dNear ≤ 2000000 && f.dFar ≤ 2000000 && f.changeLead ≤ 2000000 && f.stopTolerance ≤ 60000 then
      some
        { enable := f.enable == 1, kind := kind, dNear := f.dNear, dFar := f.dFar, changeLead := f.changeLead
          stopTolerance := f.stopTolerance }
    else none

/-- A stream that a load has made inactive is no longer addressed: its pending read and write, and a transaction for it,
are given up; a scan goes on without it, or begins at a stream made active (R197, R99, log 21, log 22). -/
def State.readdress (s : State) (x : Stream) : State :=
  let link := s.splice.link
  if (s.streamProfile x).active then
    if link.interrupt && link.scan.isNone then s.scanTo (some x) else s
  else
    let s := s.setStream x { s.stream x with readPending := false, writePending := false }
    let s := if (link.busy.map fun t => t.stream == x).getD false then s.setLink { link with busy := none } else s
    if link.interrupt && link.scan == some x then s.scanTo (s.profile.nextActive x) else s

/-- A stream section taken (R197). -/
def State.loadStream (s : State) (x : Stream) (v : StreamProfile) : State :=
  ({ s with profile := { s.profile with streams := s.profile.streams.set x v } }).readdress x

/-- A lane section taken: K_lane takes the K base and UNSYNCED is set (R197, R27). -/
def State.loadLane (s : State) (l : Lane) (v : LaneProfile) : State :=
  (({ s with profile := { s.profile with lanes := s.profile.lanes.set l v } }).setUnsynced l).setOffset l v.kBase

/-- The effect of a section load, or none where a field lies outside its range or the section is none of the 21 (R196). -/
def sectionEffect : SectionLoad → Option (State → State)
  | .stream n f =>
    match Stream.ofCode? n, streamSection? f with
    | some x, some v => some fun s => s.loadStream x v
    | _, _ => none
  | .lane n f =>
    match Lane.ofCode? n, laneSection? f with
    | some l, some v => some fun s => s.loadLane l v
    | _, _ => none
  | .line f => (lineSection? f).map fun v s => { s with profile := { s.profile with line := v } }
  | .slitter f => (slitterSection? f).map fun v s => { s with profile := { s.profile with slitter := v } }
  | .entry n f =>
    if 1 ≤ n && n ≤ 12 then
      (entrySection? f).map fun v s => { s with profile := { s.profile with entries := modify1 s.profile.entries n fun _ => v } }
    else none
  | .unknown _ => none

def loadVerdict (load : SectionLoad) (s : State) : Verdict :=
  if s.tracking then .no .state
  else
    match sectionEffect load with
    | some f => .ok f
    | none => .no .range

/-- Load Profile Section (R196, kind 07h). -/
def execLoadProfileSection (p : Port) (tag : Byte) (load : SectionLoad) (s : State) : Host.Outcome State Fault Refusal :=
  request p tag 0x07 (loadVerdict load) s

/-! ### Release Line (R199, R200) -/

/-- Whether a pulse weight may be tracked (R199, check 1). -/
def weightTracks (w : Nat) : Bool := 256 ≤ w && w ≤ 16384

/-- The section code of a lane. -/
def laneSectionCode : Lane → Nat
  | .one => 6
  | .two => 7

/-- Whether a lane carries an active stream and H is not less than its D_det less its W_confirm (R199, check 5). -/
def Profile.laneFails (p : Profile) (l : Lane) : Bool :=
  (l.streams.any fun x => (p.streams.get x).active) && ((p.lanes.get l).dDet : Int) - (p.lanes.get l).wConfirm ≤ p.line.h

/-- The section of the first check that fails, if any (R199). -/
def Profile.firstFailure (p : Profile) : Option Nat :=
  if !([p.line.pulseWeight.main, p.line.pulseWeight.lane1, p.line.pulseWeight.lane2].all weightTracks) then some 8
  else if p.activeStreams.isEmpty then some 1
  else if p.slitter.dA ≤ p.slitter.dB then some 9
  else
    match entryNumbers.find? fun n => ((nth1 p.entries n).map fun e => e.enable && e.dFar ≤ e.dNear).getD false with
    | some n => some (9 + n)
    | none => ([Lane.one, .two].find? p.laneFails).map laneSectionCode

/-- The line released (R200). Step 5 orders neither the streams nor its two tests: that the streams come in order S1 to S5,
each with its run-out test and then its deferred-commit test, is the model's choice (log 59). -/
def State.releaseLine (s : State) : State :=
  let s := ({ s with part := .tracking }).raise .partState
  let s := { s with
    plan := { s.plan with w0 := s.knife, tail := none }
    dry := { s.dry with cursor := s.knife, wasteCuts := 0 } }
  s.push ([.recompute, .release] ++ Stream.all.flatMap fun x => [.runout x, .deferred x])

def releaseLineVerdict (s : State) : Verdict :=
  if s.tracking then .no .state
  else
    match s.profile.firstFailure with
    | some x => .refuse .range x
    | none => .ok State.releaseLine

/-- Release Line (R199, R200, kind 08h). -/
def execReleaseLine (p : Port) (tag : Byte) (s : State) : Host.Outcome State Fault Refusal :=
  request p tag 0x08 releaseLineVerdict s

/-! ### Clear Line (R201) -/

/-- The Dry Action List cleared (R172). -/
def State.clearDry (s : State) : State :=
  ({ s with dry := { s.dry with released := [], strays := [], merge := false } }).expireExtents

/-- A record at Clear Line (R66). -/
def OrderRec.lineCleared (r : OrderRec) : OrderRec :=
  match r.phase with
  | .planned => { r with phase := .cancelled, result := some (resultOf .lineCleared r.fig.t r.counts.good) }
  | .cutting => { r with phase := .cancelled, result := some (resultOf .lineCleared r.fig.t r.counts.good) }
  | .queued => { r with blocked := .none, station := none }
  | .closed => r
  | .cancelled => r

/-- The book and the planner cleared (R66, R94). -/
def State.clearPlan (s : State) : State :=
  { s with
    book := s.book.map OrderRec.lineCleared
    plan := { s.plan with window := [], tail := none, pendingChange := List.replicate 12 none } }

/-- A stream's slot cleared, with the drive enable of the arm it has chosen (R126). -/
def State.clearSlot (s : State) (x : Stream) : State :=
  let s' :=
    match ((s.stream x).slot).bind Slot.chosen with
    | some arm => s.setArm x arm (s.arm x arm).disable
    | none => s
  s'.setSlot x none

/-- A station cleared (R151). -/
def StationRec.clear (r : StationRec) : StationRec :=
  { r with
    slits := r.slits.map Tool.lose, scores := r.scores.map Tool.lose
    state := if r.state == .down then .down else .idle
    late := none, demand := none }

/-- The Slitter Station Unit cleared (R151). -/
def State.clearSlitter (s : State) : State :=
  { s with slitter := { moves := [], stations := ⟨(s.station .a).clear, (s.station .b).clear⟩ } }

/-- The web map cleared (R42). -/
def State.clearMap (s : State) : State :=
  let s := { s with map := { s.map with track := [] } }
  (((s.setMarks .one []).setMarks .two []).setUnsynced .one).setUnsynced .two

/-- The line cleared (R201, steps 1 to 6). -/
def State.clearLine (s : State) : State :=
  let s := ({ s with part := .setup }).raise .partState
  let s := Stream.all.foldl State.clearSlot s.clearDry.clearPlan
  s.clearSlitter.clearMap

def clearLineVerdict (s : State) : Verdict := if s.tracking then .ok State.clearLine else .no .state

/-- Clear Line (R201, kind 09h). -/
def execClearLine (p : Port) (tag : Byte) (s : State) : Host.Outcome State Fault Refusal :=
  request p tag 0x09 clearLineVerdict s

end Sys2Proof.Machine
end

