-- ==== Sys2Proof/Machine/WetRequests.lean ====
section
/-! DEFINITION. The requests of the wet port: reels, splices, breaks, recovery, lane offsets, station changes (05, 02, 04). -/

namespace Sys2Proof.Machine

/-! ### Ranges and guards -/

def gradeInRange (g : Nat) : Bool := 1 ≤ g && g ≤ 255

def lengthInRange (n : Nat) : Bool := 1 ≤ n && n ≤ 200000000

/-- A stream and an arm named by their codes (R207). -/
def namedArm (x arm : Nat) : Option (Stream × Arm) :=
  match Stream.ofCode? x, Arm.ofCode? arm with
  | some x, some arm => some (x, arm)
  | _, _ => none

/-- Whether a COMMITTED or FIRED slot has chosen an arm (R102, R105). -/
def State.spliceHolds (s : State) (x : Stream) (arm : Arm) : Bool := s.chosenBy x arm .committed || s.chosenBy x arm .fired

/-! ### Declare and Withdraw Reel (R102, R105) -/

/-- A declaration stored on an arm, which goes to LOADED where R102 or R103 allows. -/
def State.declareReel (s : State) (x : Stream) (arm : Arm) (d : Declaration) : State :=
  let r := s.arm x arm
  let state := if r.state == .ready then ArmState.loaded else r.state
  (s.setArm x arm { r with declaration := some d, state := state }).tryLoad x arm

/-- Whether Declare Reel is allowed in an arm's state (R102). -/
def State.mayDeclare (s : State) (x : Stream) (arm : Arm) : Bool :=
  match (s.arm x arm).state with
  | .empty => true
  | .loaded => true
  | .ready => !s.spliceHolds x arm
  | .running => false
  | .stopping => false

def declareReelVerdict (x arm grade length : Nat) (s : State) : Verdict :=
  match namedArm x arm with
  | some (x, arm) =>
    if gradeInRange grade && lengthInRange length then
      if s.mayDeclare x arm then .ok fun s => s.declareReel x arm ⟨grade, length⟩ else .no .state
    else .no .range
  | none => .no .range

/-- Declare Reel (R102, kind 10h). -/
def execDeclareReel (p : Port) (tag : Byte) (x arm grade length : Nat) (s : State) : Host.Outcome State Fault Refusal :=
  request p tag 0x10 (declareReelVerdict x arm grade length) s

/-- Whether Withdraw Reel is allowed in an arm's state (R105). -/
def State.mayWithdraw (s : State) (x : Stream) (arm : Arm) : Bool :=
  match (s.arm x arm).state with
  | .empty => true
  | .loaded => true
  | .ready => !s.spliceHolds x arm
  | .running => false
  | .stopping => false

/-- A reel withdrawn: a LOADED or READY arm becomes EMPTY, and an EMPTY arm drops its declaration (R105). -/
def State.withdrawReel (s : State) (x : Stream) (arm : Arm) : State :=
  let r := s.arm x arm
  s.setArm x arm (if r.state == .empty then { r with declaration := none } else r.emptied)

def withdrawReelVerdict (x arm : Nat) (s : State) : Verdict :=
  match namedArm x arm with
  | some (x, arm) => if s.mayWithdraw x arm then .ok fun s => s.withdrawReel x arm else .no .state
  | none => .no .range

/-- Withdraw Reel (R105, kind 11h). -/
def execWithdrawReel (p : Port) (tag : Byte) (x arm : Nat) (s : State) : Host.Outcome State Fault Refusal :=
  request p tag 0x11 (withdrawReelVerdict x arm) s

/-! ### Manual Splice (R121) -/

/-- The slot of a manual splice (R121). -/
def State.manualSlot (s : State) (x : Stream) : Slot :=
  { state := .planned, kind := .manual, grade := (s.stream x).runningGrade, commitPoint := s.streamPos x
    firePoint := s.streamPos x + (s.streamProfile x).commitLead }

def manualSpliceVerdict (x : Nat) (s : State) : Verdict :=
  match Stream.ofCode? x with
  | none => .no .range
  | some x =>
    if !s.tracking then .no .state
    else if (s.stream x).slot.isSome then .no .clash
    else
      match s.requirement x (s.stream x).runningGrade with
      | some arm => .ok fun s => s.commitSlot x (s.manualSlot x) arm
      | none => .no .state

/-- Manual Splice (R121, kind 12h). -/
def execManualSplice (p : Port) (tag : Byte) (x : Nat) (s : State) : Host.Outcome State Fault Refusal :=
  request p tag 0x12 (manualSpliceVerdict x) s

/-! ### Web Break, Web Restored, Stream Recover (R122 to R124) -/

def webBreakVerdict (x : Nat) (s : State) : Verdict :=
  match Stream.ofCode? x with
  | none => .no .range
  | some x => if (s.stream x).broken then .no .state else .ok fun s => s.breakWeb x none

/-- Web Break (R122, kind 13h). -/
def execWebBreak (p : Port) (tag : Byte) (x : Nat) (s : State) : Host.Outcome State Fault Refusal :=
  request p tag 0x13 (webBreakVerdict x) s

/-- Whether an arm may take the restored web (R123). -/
def ArmRec.mayRestore (r : ArmRec) : Bool :=
  (r.state == .loaded || r.state == .ready || r.state == .stopping) && r.declaration.isSome &&
  r.present.level && r.latched.level

def webRestoredVerdict (x arm length : Nat) (s : State) : Verdict :=
  match namedArm x arm with
  | some (x, arm) =>
    if length ≤ 200000000 then
      if (s.stream x).broken && (s.arm x arm).mayRestore then .ok fun s => s.restoreWeb x arm length else .no .state
    else .no .range
  | none => .no .range

/-- Web Restored (R123, kind 14h). -/
def execWebRestored (p : Port) (tag : Byte) (x arm length : Nat) (s : State) : Host.Outcome State Fault Refusal :=
  request p tag 0x14 (webRestoredVerdict x arm length) s

/-- Whether an arm may be named as the one that carries the web (R124). -/
def ArmRec.mayRecover (r : ArmRec) : Bool :=
  (r.state == .loaded || r.state == .ready || r.state == .running) && r.declaration.isSome

/-- Whether a stream's slot is COMMITTED or FIRED (R124). -/
def State.slotBound (s : State) (x : Stream) : Bool :=
  match (s.stream x).slot with
  | some v => v.state == .committed || v.state == .fired
  | none => false

def streamRecoverVerdict (x arm : Nat) (s : State) : Verdict :=
  match namedArm x arm with
  | some (x, arm) =>
    if (s.stream x).broken then .no .state
    else if s.slotBound x then .no .clash
    else if (s.arm x arm).mayRecover then .ok fun s => s.recoverStream x arm
    else .no .state
  | none => .no .range

/-- Stream Recover (R124, kind 15h). -/
def execStreamRecover (p : Port) (tag : Byte) (x arm : Nat) (s : State) : Host.Outcome State Fault Refusal :=
  request p tag 0x15 (streamRecoverVerdict x arm) s

/-! ### Lane Sync (R28) -/

/-- A lane offset given by the wet end (R28). -/
def State.syncLane (s : State) (l : Lane) (k : Int) : State := (s.clearUnsynced l).setOffset l k

def laneSyncVerdict (lane : Nat) (k : Int) (_ : State) : Verdict :=
  match Lane.ofCode? lane with
  | some l => if k.natAbs ≤ Config.counterMax then .ok fun s => s.syncLane l k else .no .range
  | none => .no .range

/-- Lane Sync (R28, kind 16h). -/
def execLaneSync (p : Port) (tag : Byte) (lane : Nat) (k : Int) (s : State) : Host.Outcome State Fault Refusal :=
  request p tag 0x16 (laneSyncVerdict lane k) s

/-! ### Read Station Changes (R86) -/

/-- The pending changes that have been given set to none (R86). -/
def State.takeChanges (s : State) : State := { s with plan := { s.plan with pendingChange := List.replicate 12 none } }

def readStationChangesVerdict (s : State) : Verdict := .done (counted changeBytes s.changes) id State.takeChanges

/-- Read Station Changes (R86, kind 17h). -/
def execReadStationChanges (p : Port) (tag : Byte) (s : State) : Host.Outcome State Fault Refusal :=
  request p tag 0x17 readStationChangesVerdict s

end Sys2Proof.Machine
end

