-- ==== Sys2Proof/Machine/Frames.lean ====
section
/-! DEFINITION. The select period: its start, the bytes clocked, and its end (08 section 8.1). -/

namespace Sys2Proof.Machine

/-- A port's attention output: asserted while its out-queue holds a frame (R178, R194). -/
def State.attention (s : State) (p : Port) : Bool := !(s.port p).queue.isEmpty

/-! ### Start (R175) -/

/-- The period that begins now: the oldest frame, or the idle frame, with its fields filled (R175, R177, R187). -/
def State.newPeriod (s : State) (p : Port) : SelectPeriod :=
  let r := s.port p
  match r.queue with
  | f :: _ => { chosen := some f, bytes := r.frameOut f, shifted := 0, received := [], ignored := false }
  | [] =>
    let dropped := ((r.classes[Port.droppedClass p]?).map NoticeClass.raw).getD false
    { chosen := none, bytes := idleBytes s.part dropped 0, shifted := 0, received := [], ignored := false }

/-- The select input asserted; with a period in progress it already is (log 40). -/
def State.selectStart (s : State) (p : Port) : State :=
  match (s.port p).select with
  | none => s.setPort p { s.port p with select := some (s.newPeriod p) }
  | some _ => s

/-- SELECT_START (R175). -/
def execSelectStart (p : Port) (s : State) : Host.Outcome State Fault Refusal := event (fun s => s.selectStart p) s

/-! ### Bytes (R175, R177) -/

/-- The byte that goes out next: the next byte of the frame, the count of the idle frame as it stands now, or a fill byte. -/
def PortRec.nextOut (r : PortRec) (v : SelectPeriod) : Byte :=
  if v.chosen.isNone && !v.ignored && v.shifted = idleCountPlace then BitVec.ofNat 8 r.queue.length
  else v.bytes[v.shifted]?.getD 0

/-- A byte clocked in a period: one goes out, one is kept up to the 256th (R175, log 40). -/
def State.clockByte (s : State) (p : Port) (b : Byte) : State :=
  let r := s.port p
  match r.select with
  | none => s
  | some v =>
    s.setPort p { r with
      dataOut := r.nextOut v
      select := some { v with
        shifted := v.shifted + 1
        received := if v.received.length < Config.receivedMax then v.received ++ [b] else v.received } }

/-- BYTE_CLOCKED (R175). -/
def execByteClocked (p : Port) (b : Byte) (s : State) : Host.Outcome State Fault Refusal := event (fun s => s.clockByte p b) s

/-! ### End (R176) -/

/-- The verdict of the rule that owns a request; a command that is no request has none. -/
def verdictOf (i : Instr) (s : State) : Verdict :=
  match i with
  | .addOrder _ _ o => addOrderVerdict o s
  | .amendOrder _ _ x => amendOrderVerdict x s
  | .cancelOrder _ _ id => cancelOrderVerdict id s
  | .discardOrder _ _ id => discardOrderVerdict id s
  | .readBook _ _ n => readBookVerdict n s
  | .readPlan _ _ => readPlanVerdict s
  | .loadProfileSection _ _ l => loadVerdict l s
  | .releaseLine _ _ => releaseLineVerdict s
  | .clearLine _ _ => clearLineVerdict s
  | .declareReel _ _ x y g n => declareReelVerdict x y g n s
  | .withdrawReel _ _ x y => withdrawReelVerdict x y s
  | .manualSplice _ _ x => manualSpliceVerdict x s
  | .webBreak _ _ x => webBreakVerdict x s
  | .webRestored _ _ x y n => webRestoredVerdict x y n s
  | .streamRecover _ _ x y => streamRecoverVerdict x y s
  | .laneSync _ _ l k => laneSyncVerdict l k s
  | .readStationChanges _ _ => readStationChangesVerdict s
  | .takeActions _ _ => takeActionsVerdict s
  | .actionDone _ _ q m => actionDoneVerdict q m s
  | .qualityReject _ _ x y => qualityRejectVerdict x y s
  | .takeToolMoves _ _ => takeToolMovesVerdict s
  | .toolPlaced _ _ st k n m => toolPlacedVerdict st k n m s
  | .toolOut _ _ st k n => toolOutVerdict st k n s
  | .toolIn _ _ st k n => toolInVerdict st k n s
  | .readStatus p _ => readStatusVerdict p s
  | .readMap _ _ c n => readMapVerdict c n s
  | .readOrder _ _ id => readOrderVerdict id s
  | .readStream _ _ x => readStreamVerdict x s
  | .readStations _ _ => readStationsVerdict s
  | .setNoticeEnables p _ c => setNoticeEnablesVerdict p c s
  | .clearNotices p _ c => clearNoticesVerdict p c s
  | .pauseNotices p _ => pauseNoticesVerdict p s
  | .resumeNotices p _ => resumeNoticesVerdict p s
  | .restartPort p _ => restartPortVerdict p s
  | _ => .no .format

/-- A delivered frame leaves the out-queue (R176, step 1). -/
def PortRec.deliver (r : PortRec) (v : SelectPeriod) : PortRec :=
  match v.chosen with
  | some f => if v.bytes.length ≤ v.shifted && r.queue.head? = some f then { r with queue := r.queue.tail } else r
  | none => r

/-- The bytes shifted in are dealt with (R176, step 2). -/
def State.takeReceived (s : State) (p : Port) (bytes : List Byte) : State :=
  match received p bytes with
  | .nothing => s
  | .malformed kind tag =>
    if s.portFull p then s.dropRequest p else s.reply p (refusedReply kind tag RefusalCause.format.code 0)
  | .request kind tag i => s.takeRequest p tag kind (verdictOf i s)

/-- The select input deasserted: the frame delivered, the request dealt with, a queue attempt made; a period in progress
at the release of reset does none of these (R176, R194). -/
def State.selectEnd (s : State) (p : Port) : State :=
  match (s.port p).select with
  | none => s
  | some v =>
    if v.ignored then s.setPort p { s.port p with select := none }
    else
      let s := s.setPort p { (s.port p).deliver v with select := none }
      ((s.takeReceived p v.received).settled).attempt p

/-- SELECT_END (R176). -/
def execSelectEnd (p : Port) (s : State) : Host.Outcome State Fault Refusal := event (fun s => s.selectEnd p) s

end Sys2Proof.Machine
end

