-- ==== Sys2Proof/Machine/Lmu.lean ====
section
/-! DEFINITION. Length measurement: pulses, speed and the stopped state (01). -/

namespace Sys2Proof.Machine

/-- The units a forward pulse adds to the fraction accumulator: what back-travel leaves of the weight (R5). -/
def ChannelRec.added (r : ChannelRec) (wp : Nat) : Nat := if wp ≤ r.backTravel then 0 else wp - r.backTravel

/-- The gain of a forward pulse (R5, case 4). Case 1 adds nothing to the accumulator, so it has no gain. -/
def ChannelRec.pulseGain (r : ChannelRec) (wp : Nat) : Nat :=
  if wp ≤ r.backTravel then 0 else (r.fraction + r.added wp) / 1024

/-- A channel's record after a forward pulse of weight `wp` (R4, R5, R7). The filtered levels step forward:
low-low, high-low, high-high, low-high. What a saturated counter gains is log 43. -/
def ChannelRec.forward (r : ChannelRec) (wp : Nat) : ChannelRec :=
  let r := { r with levelA := !r.levelB, levelB := r.levelA }
  if wp ≤ r.backTravel then { r with backTravel := r.backTravel - wp }
  else
    let acc := r.fraction + r.added wp
    let sum := r.counter + acc / 1024
    let counter := min sum Config.counterMax
    { r with
      backTravel := 0
      fraction := acc % 1024
      counter := counter
      gain := min (r.gain + (counter - r.counter)) Config.bucketMax
      saturated := r.saturated || Config.counterMax < sum }

/-- A channel's record after a reverse pulse of weight `wp` (R4, R6). -/
def ChannelRec.reverse (r : ChannelRec) (wp : Nat) : ChannelRec :=
  let back := min (r.backTravel + wp) Config.backMax
  { r with
    levelA := r.levelB
    levelB := !r.levelA
    backTravel := back
    capped := r.capped || back == Config.backMax }

/-- A channel's record after both filtered levels change at once (R4). -/
def ChannelRec.bothLevels (r : ChannelRec) : ChannelRec := { r with levelA := !r.levelA, levelB := !r.levelB }

/-- The bucket a 10-ms update closes: the current gain (R13), and 0 for a saturated counter, whatever it gained before it
saturated in the same interval, so that the speed is 0 at the tenth update (R14, log 58). -/
def ChannelRec.newBucket (r : ChannelRec) : Nat := if r.saturated then 0 else r.gain

/-- A channel's record after a 10-ms update (R13). -/
def ChannelRec.closeBucket (r : ChannelRec) : ChannelRec :=
  let buckets := r.newBucket :: r.buckets.take 9
  { r with buckets := buckets, gain := 0, speed := 10 * buckets.sum }

/-- Whether a doubt cause has joined a channel's set (R8). -/
def ChannelRec.newDoubt (before after : ChannelRec) : Bool :=
  (after.saturated && !before.saturated) || (after.capped && !before.capped)

/-- A channel's record changed, TRACK_DOUBT raised when a doubt cause joins its set (R8). -/
def State.updateChannel (s : State) (c : Channel) (r : ChannelRec) : State :=
  (s.setChannel c r).raiseIf ((s.channel c).newDoubt r) .trackDoubt

/-- The 10-ms update (R13), with the end of a stop and the zero-speed time (R15, R16). -/
def Lmu.tenMs (l : Lmu) : Lmu :=
  let c := l.channels
  let main := c.main.closeBucket
  let l := { l with
    divider := 0
    channels := { main := main, lane1 := c.lane1.closeBucket, lane2 := c.lane2.closeBucket } }
  if c.main.newBucket != 0 then { l with stopped := false, zeroSpeedTime := 0 }
  else if main.speed == 0 && c.main.speed != 0 then { l with zeroSpeedTime := 0 }
  else l

/-- The entry into a stop (R15): the flag is set and the stop duration starts again from 0. -/
def Lmu.enterStop (l : Lmu) (stopTime : Nat) : Lmu :=
  { l with stopped := true, stopDuration := 0, zeroSpeedTime := max l.zeroSpeedTime stopTime }

/-- The LMU after one more tick (R1, R15): divider, zero-speed time while the flag is clear and the speed is 0, stop
duration while the flag is set. -/
def Lmu.tick (l : Lmu) : Lmu :=
  { l with
    ticks := l.ticks + 1
    divider := (l.divider + 1) % 10
    zeroSpeedTime := if !l.stopped && l.channels.main.speed == 0 then l.zeroSpeedTime + 1 else l.zeroSpeedTime
    stopDuration := if l.stopped then min (l.stopDuration + 1) Config.bucketMax else l.stopDuration }

end Sys2Proof.Machine
end

