-- ==== Sys2Proof/Machine/Measure.lean ====
section
/-! DEFINITION. The commands of the encoders, the 10-ms update, the stops and the seam detectors (01, 02). -/

namespace Sys2Proof.Machine

/-! ### Encoder steps (R4 to R7, R10) -/

/-- The pulse weight of a channel as the profile holds it (R9). -/
def State.pulseWeight (s : State) (c : Channel) : Nat := s.profile.line.pulseWeight.get c

/-- The acts of the blocks at a forward pulse: those of a counter update when its gain is at least 1 (R5, R10). -/
def State.pulseActs (s : State) (c : Channel) : List Task :=
  if 1 ≤ (s.channel c).pulseGain (s.pulseWeight c) then updateActs c else []

/-- A forward pulse on a channel (R5). -/
def State.forwardPulse (s : State) (c : Channel) : State :=
  (s.updateChannel c ((s.channel c).forward (s.pulseWeight c))).push (s.pulseActs c)

/-- FORWARD_PULSE (R5). -/
def execForwardPulse (c : Channel) (s : State) : Host.Outcome State Fault Refusal := event (fun s => s.forwardPulse c) s

/-- A reverse pulse on a channel (R6). -/
def State.reversePulse (s : State) (c : Channel) : State := s.updateChannel c ((s.channel c).reverse (s.pulseWeight c))

/-- REVERSE_PULSE (R6). -/
def execReversePulse (c : Channel) (s : State) : Host.Outcome State Fault Refusal := event (fun s => s.reversePulse c) s

/-- BOTH_LEVELS_CHANGE: the channel takes the new pair and counts no pulse (R4). -/
def execBothLevelsChange (c : Channel) (s : State) : Host.Outcome State Fault Refusal :=
  event (fun s => s.setChannel c (s.channel c).bothLevels) s

/-! ### The 10-ms update and the stops (R13, R15, R16, R38) -/

/-- TEN_MS_UPDATE (R13, R16). -/
def execTenMsUpdate (s : State) : Host.Outcome State Fault Refusal := event (fun s => { s with lmu := s.lmu.tenMs }) s

/-- The entry into a stop: the flag, the stop duration, the zone-taken markers, and the zones of tolerance 0 (R15, R37,
R38). -/
def State.enterStop (s : State) : State :=
  ({ s with
    lmu := s.lmu.enterStop s.profile.line.stopTime
    map := { s.map with zoneTaken := List.replicate 12 false } }).takeDueZones

/-- Whether a stop can be entered: the main channel stands and its stopped flag is clear (R15). -/
def State.mayStop (s : State) : Bool := !s.lmu.stopped && s.lmu.channels.main.speed == 0

/-- ENTRY_INTO_A_STOP (R15); the zero-speed time has reached the stop time (log 2). -/
def execEntryIntoAStop (s : State) : Host.Outcome State Fault Refusal := event (fun s => if s.mayStop then s.enterStop else s) s

/-- The stop duration brought up to an entry's tolerance (log 2). -/
def State.reachTolerance (s : State) (n : Nat) : State :=
  let t := ((nth1 s.profile.entries n).map EntryProfile.stopTolerance).getD 0
  { s with lmu := { s.lmu with stopDuration := max s.lmu.stopDuration t } }

/-- TAKE_STOP_ZONE (R38): the stop has lasted the entry's tolerance. -/
def execTakeStopZone (n : Nat) (s : State) : Host.Outcome State Fault Refusal :=
  event (fun s => if s.lmu.stopped && s.zoneFree n then (s.reachTolerance n).takeZone n else s) s

/-! ### Seam detectors (R32) -/

/-- A change of a lane's filtered detector level, with the recogniser's test (R32). -/
def State.seamInput (s : State) (l : Lane) (level : Bool) : State :=
  let r := s.lane l
  if level = r.recogniser.level then s
  else (s.setLane l { r with recogniser := r.recogniser.change level s.mainCount }).recogniserTest l

/-- SEAM_INPUT_CHANGE (R32). -/
def execSeamInputChange (l : Lane) (level : Bool) (s : State) : Host.Outcome State Fault Refusal :=
  event (fun s => s.seamInput l level) s

end Sys2Proof.Machine
end

