-- ==== Sys2Proof/Machine/Reset.lean ====
section
/-! DEFINITION. The reset input (R18, R43, R67, R95, R127, R152, R173, R194, R204). -/

namespace Sys2Proof.Machine

/-- The part at its reset values, its pins and its queue of commands as they were. -/
def State.cleared (s : State) : State := { State.reset with pins := s.pins, pending := s.pending }

/-- RESET_ASSERT: every block takes its reset values and is held there (R204). -/
def execResetAssert (s : State) : Host.Outcome State Fault Refusal := .next { s.cleared with resetAsserted := true }

/-- A channel that takes the levels at its inputs without counting a pulse (R4). -/
def ChannelRec.takeLevels (r : ChannelRec) (x y : Bool) : ChannelRec := { r with levelA := x, levelB := y }

/-- A recogniser that takes its detector level at release: i0 is 0, the value of L, when it is inactive, and absent when it
is active (R43). -/
def Recogniser.takeLevel (r : Recogniser) (level : Bool) : Recogniser :=
  { r with level := level, i0 := if level then none else some 0 }

/-- A select period in progress at release: it is ignored to its end (R194). -/
def ignoredPeriod (selected : Bool) : Option SelectPeriod :=
  if selected then some { chosen := none, bytes := [], shifted := 0, received := [], ignored := true } else none

/-- A port at release (R194). -/
def PortRec.released (p : PortRec) (selected : Bool) : PortRec := { p with select := ignoredPeriod selected }

/-- A lane's map record at release (R43). -/
def LaneRec.released (r : LaneRec) (level : Bool) : LaneRec := { r with recogniser := r.recogniser.takeLevel level }

/-- The part after its reset input has been released with the levels given (R4, R18, R43, R194). -/
def State.released (s : State) (v : ReleaseLevels) : State :=
  let c := s.lmu.channels
  { s with
    resetAsserted := false
    lmu := { s.lmu with
      channels := ⟨c.main.takeLevels v.mainA v.mainB, c.lane1.takeLevels v.lane1A v.lane1B,
        c.lane2.takeLevels v.lane2A v.lane2B⟩ }
    map := { s.map with lanes := ⟨s.map.lanes.one.released v.seam1, s.map.lanes.two.released v.seam2⟩ }
    ports := ⟨s.ports.planning.released v.selectPlanning, s.ports.wet.released v.selectWet, s.ports.dry.released v.selectDry⟩ }

/-- RESET_RELEASE: the blocks take their input levels and run on from the reset values (R18). With the input not asserted
there is no release (log 5). -/
def execResetRelease (v : ReleaseLevels) (s : State) : Host.Outcome State Fault Refusal :=
  .next (if s.resetAsserted then s.released v else s)

end Sys2Proof.Machine
end

