-- ==== Sys2Proof/Machine/Stands.lean ====
section
/-! DEFINITION. The commands of the stand link, the drive-good delay, the fire pulse and the done pulse (05). -/

namespace Sys2Proof.Machine

/-- The reads of every active stream made pending (R99). -/
def State.poll (s : State) : State :=
  s.profile.activeStreams.foldl State.pendRead (s.setLink { s.splice.link with poll := 0 })

/-- STAND_POLL (R99). -/
def execStandPoll (s : State) : Host.Outcome State Fault Refusal := event State.poll s

/-- The debounced stand interrupt at a level: an assertion starts the scan, a deassertion ends it (R99). -/
def State.setInterrupt (s : State) (b : Bool) : State :=
  if b = s.splice.link.interrupt then s
  else
    let s := s.setLink { s.splice.link with interrupt := b, samples := 0, scan := none }
    if b then s.scanTo s.profile.activeStreams.head? else s

/-- STAND_INTERRUPT_CHANGE (R99). -/
def execStandInterruptChange (b : Bool) (s : State) : Host.Outcome State Fault Refusal := event (fun s => s.setInterrupt b) s

/-- A transaction begun. A read stays pending until it has been made (R99, R101); the pending mark of a write is cleared,
and an output that changes from here on makes a write pending again (log 20). -/
def State.startTransaction (s : State) (t : Transaction) : State :=
  let r := s.stream t.stream
  (s.setStream t.stream { r with writePending := r.writePending && !t.write }).setLink { s.splice.link with busy := some t }

/-- A free link starts the transaction that is due (R99). -/
def State.linkStart (s : State) : State :=
  match s.splice.link.busy, s.nextTransaction with
  | none, some t => s.startTransaction t
  | _, _ => s

/-- STAND_TRANSACTION_START (R99). -/
def execStandTransactionStart (s : State) : Host.Outcome State Fault Refusal := event State.linkStart s

/-- The link made free. -/
def State.freeLink (s : State) : State := s.setLink { s.splice.link with busy := none }

/-- A successful read: the link is free, the read no longer pending, the scan goes on, and the levels are taken (R99, R100, log 41). -/
def State.standRead (s : State) (v : StandLevels) : State :=
  match s.splice.link.busy with
  | some t => if t.write then s else (s.freeLink.readMade t.stream).takeRead t.stream v
  | none => s

/-- STAND_READ (R100). -/
def execStandRead (v : StandLevels) (s : State) : Host.Outcome State Fault Refusal := event (fun s => s.standRead v) s

/-- A successful write: the outputs reach the stand (R99). -/
def State.standWrite (s : State) : State :=
  match s.splice.link.busy with
  | some t =>
    if t.write then
      let s := s.freeLink
      (s.setStream t.stream { s.stream t.stream with written := t.carried }).clearFault t.stream
    else s
  | none => s

/-- STAND_WRITE (R99). -/
def execStandWrite (s : State) : Host.Outcome State Fault Refusal := event State.standWrite s

/-- An abandoned transaction: an abandoned write stays pending, an abandoned read does not (R101). An abandoned read moves a
scan on as one that has been made does (log 53). -/
def State.abandon (s : State) (t : Transaction) : State :=
  let s := s.freeLink
  let s := if t.write then s.setStream t.stream { s.stream t.stream with writePending := true } else s.readMade t.stream
  s.setFault t.stream

/-- A failed attempt: up to three further ones, and then the transaction is abandoned (R101). -/
def State.attemptFailed (s : State) : State :=
  match s.splice.link.busy with
  | some t =>
    if t.failed + 1 < Config.linkAttempts then s.setLink { s.splice.link with busy := some { t with failed := t.failed + 1 } }
    else s.abandon t
  | none => s

/-- STAND_ATTEMPT_FAILED (R101). -/
def execStandAttemptFailed (s : State) : Host.Outcome State Fault Refusal := event State.attemptFailed s

/-- An arm's delay timer has reached its DELAY-mode value; a waiting splice may fire (R98, R113, log 2). -/
def State.delayReached (s : State) (x : Stream) (arm : Arm) : State :=
  let r := s.arm x arm
  match (s.streamProfile x).driveMode.delay? with
  | some d =>
    if r.driveEnable then
      let st := s.stream x
      (s.setStream x { st with arms := st.arms.set arm { r with delay := max r.delay d } }).push [.fireTest x]
    else s
  | none => s

/-- DRIVE_GOOD_DELAY (R98). -/
def execDriveGoodDelay (x : Stream) (arm : Arm) (s : State) : Host.Outcome State Fault Refusal :=
  event (fun s => s.delayReached x arm) s

/-- The FIRE output of a stream returns low (R106). -/
def State.endFire (s : State) (x : Stream) : State := s.setStream x { s.stream x with fire := false, fireLeft := 0 }

/-- FIRE_PULSE_END (R106). -/
def execFirePulseEnd (x : Stream) (s : State) : Host.Outcome State Fault Refusal := event (fun s => s.endFire x) s

/-- A done pulse accepted: its input was found high (R115, R117, log 44). -/
def State.donePulse (s : State) (x : Stream) : State :=
  (s.setStream x { s.stream x with doneSample := .high }).doneAct x

/-- DONE_PULSE (R115). -/
def execDonePulse (x : Stream) (s : State) : Host.Outcome State Fault Refusal := event (fun s => s.donePulse x) s

end Sys2Proof.Machine
end

