-- ==== Sys2Proof/Machine/Dispatch.lean ====
section
/-! DEFINITION. The meaning of each command: one arm per constructor of `Instr`. -/

namespace Sys2Proof.Machine

def exec (i : Instr) (s : State) : Host.Outcome State Fault Refusal :=
  match i with
  | .resetAssert => Sys2Proof.Machine.execResetAssert s
  | .resetRelease levels => Sys2Proof.Machine.execResetRelease levels s
  | .forwardPulse ch => Sys2Proof.Machine.execForwardPulse ch s
  | .reversePulse ch => Sys2Proof.Machine.execReversePulse ch s
  | .tenMsUpdate => Sys2Proof.Machine.execTenMsUpdate s
  | .entryIntoAStop => Sys2Proof.Machine.execEntryIntoAStop s
  | .takeStopZone entry => Sys2Proof.Machine.execTakeStopZone entry s
  | .seamInputChange lane level => Sys2Proof.Machine.execSeamInputChange lane level s
  | .standPoll => Sys2Proof.Machine.execStandPoll s
  | .standInterruptChange asserted => Sys2Proof.Machine.execStandInterruptChange asserted s
  | .standTransactionStart => Sys2Proof.Machine.execStandTransactionStart s
  | .standRead levels => Sys2Proof.Machine.execStandRead levels s
  | .standWrite => Sys2Proof.Machine.execStandWrite s
  | .standAttemptFailed => Sys2Proof.Machine.execStandAttemptFailed s
  | .driveGoodDelay stream arm => Sys2Proof.Machine.execDriveGoodDelay stream arm s
  | .firePulseEnd stream => Sys2Proof.Machine.execFirePulseEnd stream s
  | .donePulse stream => Sys2Proof.Machine.execDonePulse stream s
  | .selectStart port => Sys2Proof.Machine.execSelectStart port s
  | .selectEnd port => Sys2Proof.Machine.execSelectEnd port s
  | .addOrder port tag figures => Sys2Proof.Machine.execAddOrder port tag figures s
  | .amendOrder port tag amend => Sys2Proof.Machine.execAmendOrder port tag amend s
  | .cancelOrder port tag id => Sys2Proof.Machine.execCancelOrder port tag id s
  | .discardOrder port tag id => Sys2Proof.Machine.execDiscardOrder port tag id s
  | .readBook port tag first => Sys2Proof.Machine.execReadBook port tag first s
  | .readPlan port tag => Sys2Proof.Machine.execReadPlan port tag s
  | .loadProfileSection port tag load => Sys2Proof.Machine.execLoadProfileSection port tag load s
  | .releaseLine port tag => Sys2Proof.Machine.execReleaseLine port tag s
  | .clearLine port tag => Sys2Proof.Machine.execClearLine port tag s
  | .declareReel port tag stream arm grade length => Sys2Proof.Machine.execDeclareReel port tag stream arm grade length s
  | .withdrawReel port tag stream arm => Sys2Proof.Machine.execWithdrawReel port tag stream arm s
  | .manualSplice port tag stream => Sys2Proof.Machine.execManualSplice port tag stream s
  | .webBreak port tag stream => Sys2Proof.Machine.execWebBreak port tag stream s
  | .webRestored port tag stream arm length => Sys2Proof.Machine.execWebRestored port tag stream arm length s
  | .streamRecover port tag stream arm => Sys2Proof.Machine.execStreamRecover port tag stream arm s
  | .laneSync port tag lane offset => Sys2Proof.Machine.execLaneSync port tag lane offset s
  | .readStationChanges port tag => Sys2Proof.Machine.execReadStationChanges port tag s
  | .takeActions port tag => Sys2Proof.Machine.execTakeActions port tag s
  | .actionDone port tag sequence measured => Sys2Proof.Machine.execActionDone port tag sequence measured s
  | .qualityReject port tag first last => Sys2Proof.Machine.execQualityReject port tag first last s
  | .takeToolMoves port tag => Sys2Proof.Machine.execTakeToolMoves port tag s
  | .toolPlaced port tag station kind number measured => Sys2Proof.Machine.execToolPlaced port tag station kind number measured s
  | .toolOut port tag station kind number => Sys2Proof.Machine.execToolOut port tag station kind number s
  | .toolIn port tag station kind number => Sys2Proof.Machine.execToolIn port tag station kind number s
  | .readStatus port tag => Sys2Proof.Machine.execReadStatus port tag s
  | .readMap port tag sectionCode first => Sys2Proof.Machine.execReadMap port tag sectionCode first s
  | .readOrder port tag id => Sys2Proof.Machine.execReadOrder port tag id s
  | .readStream port tag stream => Sys2Proof.Machine.execReadStream port tag stream s
  | .readStations port tag => Sys2Proof.Machine.execReadStations port tag s
  | .setNoticeEnables port tag classes => Sys2Proof.Machine.execSetNoticeEnables port tag classes s
  | .clearNotices port tag classes => Sys2Proof.Machine.execClearNotices port tag classes s
  | .pauseNotices port tag => Sys2Proof.Machine.execPauseNotices port tag s
  | .resumeNotices port tag => Sys2Proof.Machine.execResumeNotices port tag s
  | .restartPort port tag => Sys2Proof.Machine.execRestartPort port tag s
  | .bothLevelsChange ch => Sys2Proof.Machine.execBothLevelsChange ch s
  | .byteClocked port byte => Sys2Proof.Machine.execByteClocked port byte s

end Sys2Proof.Machine
end

