-- ==== Sys2Proof/Machine/Tick.lean ====
section
/-! DEFINITION. One tick of 1 ms (R1), which is what a step does on an empty queue (log 1): every timer counts, the pins are
sampled, and the commands whose moment has come join the queue in a fixed order (log 26). -/

namespace Sys2Proof.Machine

/-! ### Timers (R98, R99, R113, R115) -/

/-- An arm's delay timer (R98). -/
def ArmRec.tick (r : ArmRec) : ArmRec :=
  if r.driveEnable then { r with delay := min (r.delay + 1) Config.delayMax } else r

/-- The sampling of a DONE input that is found at a level (R115). -/
def DoneSample.next (d : DoneSample) (found : Bool) : DoneSample :=
  if found then
    match d with
    | .low => .once
    | .once => .high
    | .high => .high
  else .low

/-- A stream's timers: delay timers, fire pulse, DONE sampling. -/
def StreamRec.tick (r : StreamRec) (done : Bool) : StreamRec :=
  { r with
    arms := ⟨r.arms.a.tick, r.arms.b.tick⟩, fireLeft := r.fireLeft - 1, doneSample := r.doneSample.next done }

/-- The link's poll count and the debounce of the stand interrupt (R99). -/
def StandLink.tick (l : StandLink) (level : Bool) : StandLink :=
  { l with
    poll := (l.poll + 1) % Config.pollTicks
    samples := if level = l.interrupt then 0 else min (l.samples + 1) Config.interruptSamples }

/-- The state after every timer has counted. -/
def State.count (s : State) : State :=
  let x := s.splice.streams
  let d := s.pins.done
  { s with
    lmu := s.lmu.tick
    splice :=
      { streams := ⟨x.s1.tick d.s1, x.s2.tick d.s2, x.s3.tick d.s3, x.s4.tick d.s4, x.s5.tick d.s5⟩
        link := s.splice.link.tick s.pins.interrupt } }

/-! ### What the tick brings, from the state before it and the state after the timers have counted -/

/-- The arms whose delay timer reaches their DELAY-mode value (R98). -/
def delayCommands (s t : State) : List Instr :=
  Stream.all.flatMap fun x => [Arm.a, .b].filterMap fun arm =>
    match (t.streamProfile x).driveMode.delay? with
    | some d =>
      if ((t.stream x).arms.get arm).delay = d && ((s.stream x).arms.get arm).delay < d then some (.driveGoodDelay x arm)
      else none
    | none => none

/-- The commands whose moment the tick brings (log 26). -/
def dueCommands (s t : State) : List Instr :=
  (if t.lmu.divider = 0 then [.tenMsUpdate] else []) ++
  (if !t.lmu.stopped && t.lmu.channels.main.speed == 0 && t.profile.line.stopTime ≤ t.lmu.zeroSpeedTime then [.entryIntoAStop]
   else []) ++
  (entryNumbers.filter t.zoneDue).map Instr.takeStopZone ++
  (if t.splice.link.samples = Config.interruptSamples then [.standInterruptChange t.pins.interrupt] else []) ++
  (if t.splice.link.poll = 0 then [.standPoll] else []) ++
  delayCommands s t ++
  (Stream.all.filter fun x => (t.stream x).fire && (t.stream x).fireLeft == 0).map Instr.firePulseEnd ++
  (Stream.all.filter fun x => (s.stream x).doneSample == .once && (t.stream x).doneSample == .high).map Instr.donePulse ++
  (if t.splice.link.busy.isNone && t.nextTransaction.isSome then [.standTransactionStart] else [])

/-- One tick. While the reset input is asserted no tick is taken (R1). -/
def State.tick (s : State) : State :=
  if s.resetAsserted then s else { s.count with pending := s.pending ++ dueCommands s s.count }

end Sys2Proof.Machine
end

