-- ==== Sys2Proof/Machine/RequestFrames.lean ====
section
/-! DEFINITION. The bytes a station controller shifts in to send a request (R206 to R208): what `received` reads back. -/

namespace Sys2Proof.Machine

/-- A layout of a request: two counts and 18 positions (R208). -/
def RawLayout.bytes (l : RawLayout) : List Byte :=
  le 1 l.slitCount ++ le 1 l.scoreCount ++ l.slits.flatMap (le 2) ++ l.scores.flatMap (le 2)

/-- The figures of an Add Order: 60 bytes. -/
def RawOrder.bytes (o : RawOrder) : List Byte :=
  le 4 o.id ++ le 1 o.grade1 ++ le 1 o.grade2 ++ le 1 o.grade3 ++ le 1 o.grade4 ++ le 1 o.grade5 ++
  le 4 o.sf ++ le 4 o.t ++ le 2 o.a ++ le 1 o.m ++ le 2 o.q ++ RawLayout.bytes o.layout

/-- An Amend Order: the id, the carried set and the figures. -/
def RawAmend.bytes (x : RawAmend) : List Byte :=
  le 4 x.id ++ le 1 (flags [x.hasT, x.hasA, x.hasM, x.hasQ, x.hasLayout]) ++
  le 4 x.t ++ le 2 x.a ++ le 1 x.m ++ le 2 x.q ++ RawLayout.bytes x.layout

def RawStreamSection.bytes (f : RawStreamSection) : List Byte :=
  le 1 f.active ++ le 4 f.splicerDistance ++ le 4 f.commitLead ++ le 4 f.spliceMaxSpeed ++ le 2 f.seamLead ++
  le 2 f.seamTrail ++ le 2 f.fastExtra ++ le 4 f.runoutReserve ++ le 4 f.butt ++ le 4 f.doneWindow ++ le 1 f.driveMode

def RawLaneSection.bytes (f : RawLaneSection) : List Byte :=
  signed f.kBase ++ le 4 f.dDet ++ le 2 f.wConfirm ++ le 2 f.maxCorrection ++ le 2 f.preQuiet ++ le 2 f.minActive ++
  le 2 f.maxGap ++ le 2 f.postQuiet ++ le 4 f.unsyncedExtra ++ le 4 f.rethreadLength

def RawLineSection.bytes (f : RawLineSection) : List Byte :=
  le 4 f.g ++ le 4 f.wg ++ le 4 f.h ++ le 4 f.swapLead ++ le 4 f.execTolerance ++ le 2 f.stopTime ++
  le 2 f.weightMain ++ le 2 f.weightLane1 ++ le 2 f.weightLane2 ++ le 1 f.filterMain ++ le 1 f.filterLane1 ++ le 1 f.filterLane2

def RawSlitterSection.bytes (f : RawSlitterSection) : List Byte :=
  le 4 f.dA ++ le 4 f.dB ++ le 2 f.minSlitSpacing ++ le 2 f.minScoreSpacing ++ le 2 f.placeTolerance ++ le 1 f.placeAttempts

def RawEntrySection.bytes (f : RawEntrySection) : List Byte :=
  le 1 f.enable ++ le 1 f.kind ++ le 4 f.dNear ++ le 4 f.dFar ++ le 4 f.changeLead ++ le 2 f.stopTolerance

/-- A Load Profile Section: the section code and the fields. A code that names no section is sent at the slitter section's
length, one of the five at which it is accepted (R208). -/
def SectionLoad.bytes : SectionLoad → List Byte
  | .stream n f => le 1 n ++ RawStreamSection.bytes f
  | .lane n f => le 1 (n + 5) ++ RawLaneSection.bytes f
  | .line f => le 1 8 ++ RawLineSection.bytes f
  | .slitter f => le 1 9 ++ RawSlitterSection.bytes f
  | .entry n f => le 1 (n + 9) ++ RawEntrySection.bytes f
  | .unknown c => le 1 c ++ List.replicate 15 0

/-- A request as its controller sends it. -/
structure RequestFrame where
  port : Port
  kind : Nat
  tag : Byte
  payload : List Byte
  deriving DecidableEq, Repr

/-- The frame of a request, and nothing for a command that is no request (R208). -/
def requestFrame : Instr → Option RequestFrame
  | .addOrder p tag o => some ⟨p, 0x01, tag, RawOrder.bytes o⟩
  | .amendOrder p tag x => some ⟨p, 0x02, tag, RawAmend.bytes x⟩
  | .cancelOrder p tag id => some ⟨p, 0x03, tag, le 4 id⟩
  | .discardOrder p tag id => some ⟨p, 0x04, tag, le 4 id⟩
  | .readBook p tag n => some ⟨p, 0x05, tag, le 1 n⟩
  | .readPlan p tag => some ⟨p, 0x06, tag, []⟩
  | .loadProfileSection p tag l => some ⟨p, 0x07, tag, SectionLoad.bytes l⟩
  | .releaseLine p tag => some ⟨p, 0x08, tag, []⟩
  | .clearLine p tag => some ⟨p, 0x09, tag, []⟩
  | .declareReel p tag x arm g n => some ⟨p, 0x10, tag, le 1 x ++ le 1 arm ++ le 1 g ++ le 4 n⟩
  | .withdrawReel p tag x arm => some ⟨p, 0x11, tag, le 1 x ++ le 1 arm⟩
  | .manualSplice p tag x => some ⟨p, 0x12, tag, le 1 x⟩
  | .webBreak p tag x => some ⟨p, 0x13, tag, le 1 x⟩
  | .webRestored p tag x arm n => some ⟨p, 0x14, tag, le 1 x ++ le 1 arm ++ le 4 n⟩
  | .streamRecover p tag x arm => some ⟨p, 0x15, tag, le 1 x ++ le 1 arm⟩
  | .laneSync p tag l k => some ⟨p, 0x16, tag, le 1 l ++ signed k⟩
  | .readStationChanges p tag => some ⟨p, 0x17, tag, []⟩
  | .takeActions p tag => some ⟨p, 0x20, tag, []⟩
  | .actionDone p tag q m => some ⟨p, 0x21, tag, le 4 q ++ le 6 m⟩
  | .qualityReject p tag x y => some ⟨p, 0x22, tag, le 6 x ++ le 6 y⟩
  | .takeToolMoves p tag => some ⟨p, 0x23, tag, []⟩
  | .toolPlaced p tag st k n m => some ⟨p, 0x24, tag, le 1 st ++ le 1 k ++ le 1 n ++ le 2 m⟩
  | .toolOut p tag st k n => some ⟨p, 0x25, tag, le 1 st ++ le 1 k ++ le 1 n⟩
  | .toolIn p tag st k n => some ⟨p, 0x26, tag, le 1 st ++ le 1 k ++ le 1 n⟩
  | .readStatus p tag => some ⟨p, 0x30, tag, []⟩
  | .readMap p tag c n => some ⟨p, 0x31, tag, le 1 c ++ le 1 n⟩
  | .readOrder p tag id => some ⟨p, 0x32, tag, le 4 id⟩
  | .readStream p tag x => some ⟨p, 0x33, tag, le 1 x⟩
  | .readStations p tag => some ⟨p, 0x34, tag, []⟩
  | .setNoticeEnables p tag c => some ⟨p, 0x35, tag, le 2 c.toNat⟩
  | .clearNotices p tag c => some ⟨p, 0x36, tag, le 2 c.toNat⟩
  | .pauseNotices p tag => some ⟨p, 0x37, tag, []⟩
  | .resumeNotices p tag => some ⟨p, 0x38, tag, []⟩
  | .restartPort p tag => some ⟨p, 0x39, tag, []⟩
  | .resetAssert => none
  | .resetRelease _ => none
  | .forwardPulse _ => none
  | .reversePulse _ => none
  | .tenMsUpdate => none
  | .entryIntoAStop => none
  | .takeStopZone _ => none
  | .seamInputChange _ _ => none
  | .standPoll => none
  | .standInterruptChange _ => none
  | .standTransactionStart => none
  | .standRead _ => none
  | .standWrite => none
  | .standAttemptFailed => none
  | .driveGoodDelay _ _ => none
  | .firePulseEnd _ => none
  | .donePulse _ => none
  | .selectStart _ => none
  | .selectEnd _ => none
  | .bothLevelsChange _ => none
  | .byteClocked _ _ => none

/-- The frame's bytes, length byte first (R206). -/
def RequestFrame.bytes (f : RequestFrame) : List Byte := frameBytes f.kind f.tag f.payload

end Sys2Proof.Machine
end

