-- ==== Sys2Proof/Safety.lean ====
section
/-! DEFINITION. What a claim may call a safe state or a safe answer: the answers that stop nothing, the canonical form of the
main track, and the bounds the manual gives the collections and counters. -/

namespace Sys2Proof.Machine

/-- The outcome is a next state. -/
def Answers (o : Host.Outcome State Fault Refusal) (t : State) : Prop := o = .next t

/-- The main track's canonical form (R22): every extent covers web, starts strictly ascend, no two extents overlap or
touch, and only the last may be OPEN. -/
def Track.wf : List Extent → Prop
  | [] => True
  | [x] => x.covers = true
  | x :: y :: l => x.covers = true ∧ (∃ e, x.finish = some e ∧ e < y.start) ∧ Track.wf (y :: l)

/-- An extent's fields agree (R20): OPEN exactly while a claim is held, with a held end not before the start. -/
def Extent.wf (x : Extent) : Prop :=
  match x.finish with
  | some _ => x.held = none ∧ x.claims = []
  | none => (∃ h, x.held = some h ∧ x.start ≤ h) ∧ x.claims ≠ []

/-- A channel's record within the ranges of R2. -/
structure ChannelRec.wf (r : ChannelRec) : Prop where
  counter : r.counter ≤ Config.counterMax
  fraction : r.fraction < 1024
  backTravel : r.backTravel ≤ Config.backMax
  bucketCount : r.buckets.length = 10
  buckets : ∀ b ∈ r.buckets, b ≤ Config.bucketMax
  gain : r.gain ≤ Config.bucketMax
  speed : r.speed ≤ 6553500

/-- The LMU within the ranges of R1, R2 and R15. -/
structure Lmu.wf (l : Lmu) : Prop where
  main : l.channels.main.wf
  lane1 : l.channels.lane1.wf
  lane2 : l.channels.lane2.wf
  divider : l.divider < 10
  stopDuration : l.stopDuration ≤ Config.bucketMax

/-- An out-queue within the limits of R179: at most 16 frames, at most 12 of them notices. -/
def PortRec.bounded (p : PortRec) : Prop := p.queue.length ≤ Config.framesMax ∧ p.notices ≤ Config.noticesMax

/-- A class table has its port's classes (R184). -/
def Port.classCount : Port → Nat
  | .planning => 12
  | .wet => 13
  | .dry => 10

/-- Every port within R179, with the class table of R184. -/
def State.portsBounded (s : State) : Prop := ∀ p, (s.port p).bounded ∧ (s.port p).classes.length = Port.classCount p

/-- Whether an extent holds the web at a position: it lies after its start and not after its end (R20, R21). -/
def Extent.holds (x : Extent) (q : Pos) : Prop := x.start < q ∧ ∀ e, x.finish = some e → q ≤ e

/-- The main track is canonical: in order, its extents' fields agreeing, none before 0, at most 48 (R20, R22). -/
structure State.trackCanonical (s : State) : Prop where
  ordered : Track.wf s.map.track
  fields : ∀ x ∈ s.map.track, x.wf
  fromZero : ∀ x ∈ s.map.track, 0 ≤ x.start
  room : s.map.track.length ≤ 48

/-- The collections within their capacities (R29, R44, R68, R156): at most 8 marks in a lane, 32 records of distinct ids in
the book, 6 orders in the window and 16 records in the released set. -/
structure State.withinCapacity (s : State) : Prop where
  marks : ∀ l, (s.lane l).marks.length ≤ 8
  book : s.book.length ≤ 32
  ids : (s.book.map fun r => r.fig.id).Nodup
  window : s.plan.window.length ≤ 6
  released : s.dry.released.length ≤ 16

/-! ### The ranges of the profile (R195) -/

structure StreamProfile.inRange (f : StreamProfile) : Prop where
  splicerDistance : f.splicerDistance ≤ 4000000
  commitLead : f.commitLead ≤ 500000
  spliceMaxSpeed : f.spliceMaxSpeed ≤ 6553500
  seam : f.seamLead ≤ 50000 ∧ f.seamTrail ≤ 50000
  fastExtra : f.fastExtra ≤ 20000
  runoutReserve : f.runoutReserve ≤ 5000000
  butt : f.butt ≤ 500000
  doneWindow : f.doneWindow ≤ 100000

structure LaneProfile.inRange (f : LaneProfile) : Prop where
  kBase : f.kBase.natAbs ≤ 2 ^ 40 - 1
  dDet : f.dDet ≤ 2000000
  window : f.wConfirm ≤ 50000 ∧ f.maxCorrection ≤ 50000
  recogniser : f.preQuiet ≤ 10000 ∧ f.minActive ≤ 10000 ∧ f.maxGap ≤ 10000 ∧ f.postQuiet ≤ 10000
  unsyncedExtra : f.unsyncedExtra ≤ 100000
  rethreadLength : f.rethreadLength ≤ 1000000

structure LineProfile.inRange (f : LineProfile) : Prop where
  g : f.g ≤ 200000
  wg : 3000 ≤ f.wg ∧ f.wg ≤ 80000
  h : 20000 ≤ f.h ∧ f.h ≤ 400000
  swapLead : f.swapLead ≤ 400000
  execTolerance : f.execTolerance ≤ 100000
  stopTime : 200 ≤ f.stopTime ∧ f.stopTime ≤ 5000
  pulseWeight : ∀ c, f.pulseWeight.get c ≤ 65535
  filterWidth : ∀ c, f.filterWidth.get c ≤ 255

structure SlitterProfile.inRange (f : SlitterProfile) : Prop where
  distances : f.dA ≤ 500000 ∧ f.dB ≤ 500000
  spacings : f.minSlitSpacing ≤ 28000 ∧ f.minScoreSpacing ≤ 28000
  placeTolerance : f.placeTolerance ≤ 1000
  placeAttempts : 1 ≤ f.placeAttempts ∧ f.placeAttempts ≤ 8

structure EntryProfile.inRange (f : EntryProfile) : Prop where
  distances : f.dNear ≤ 2000000 ∧ f.dFar ≤ 2000000
  changeLead : f.changeLead ≤ 2000000
  stopTolerance : f.stopTolerance ≤ 60000

/-- Every field of the 21 sections within its range, and twelve station entries. -/
structure Profile.inRange (p : Profile) : Prop where
  streams : ∀ x, (p.streams.get x).inRange
  lanes : ∀ l, (p.lanes.get l).inRange
  line : p.line.inRange
  slitter : p.slitter.inRange
  entries : ∀ e ∈ p.entries, e.inRange
  entryCount : p.entries.length = 12

/-! ### What an act does to the main track (R20 to R24) -/

/-- Every position of the stretch (first, last] is held by an extent of the main track that carries a cause (R21). A first
position below 0 takes 0 (R20). -/
def State.covers (s : State) (c : Cause) (first last : Pos) : Prop :=
  ∀ q : Pos, max first 0 < q → q ≤ last → ∃ y ∈ s.map.track, c ∈ y.causes ∧ y.holds q

/-- The main track holds an OPEN extent of a cause and a claim that reaches back to a position (R20, R22). -/
def State.opensClaim (s : State) (c : Cause) (claim : Claim) (first : Pos) : Prop :=
  ∃ y ∈ s.map.track, y.finish = none ∧ c ∈ y.causes ∧ claim ∈ y.claims ∧ y.start ≤ max first 0

/-- Between `s` and `t` a claim has been closed at a position: no extent holds it any more, and an extent whose one claim it
was ends at the greater of its held end and that position, unless it is then without web or behind L (R24, R25). -/
def State.closedAt (s t : State) (claim : Claim) (last : Pos) : Prop :=
  (∀ y ∈ t.map.track, claim ∉ y.claims) ∧
  ∀ y ∈ s.map.track, ∀ h, y.claims = [claim] → y.held = some h → y.start < max h last → s.knife < max h last →
    { y with finish := some (max h last), held := none, claims := [] } ∈ t.map.track

/-- What R22 makes of extents that meet, and R23 of its pair: the least start; OPEN if one of them is, with the greatest of the
ends and held ends as its held end, and otherwise the greatest end; the union of the causes and, when OPEN, of the claims; and
the seam part of the one that carries SEAM, where exactly one does. -/
structure Extent.IsMergeOf (z : Extent) (all : List Extent) : Prop where
  start : (∀ y ∈ all, z.start ≤ y.start) ∧ ∃ y ∈ all, y.start = z.start
  isOpen : z.finish = none ↔ ∃ y ∈ all, y.finish = none
  finish : ∀ e, z.finish = some e → (∀ y ∈ all, ∀ f, y.finish = some f → f ≤ e) ∧ ∃ y ∈ all, y.finish = some e
  held : z.finish = none → ∃ h, z.held = some h ∧ (∀ y ∈ all, y.reach ≤ h) ∧ ∃ y ∈ all, y.reach = h
  closed : z.finish ≠ none → z.held = none ∧ z.claims = []
  causes : ∀ c, c ∈ z.causes ↔ ∃ y ∈ all, c ∈ y.causes
  claims : z.finish = none → ∀ c, c ∈ z.claims ↔ ∃ y ∈ all, c ∈ y.claims
  seam : ∀ u, (all.filter fun y => y.causes.contains .seam) = [u] → z.seam = u.seam
  noSeam : (all.filter fun y => y.causes.contains .seam).length ≠ 1 → z.seam = none

/-! ### Records as bytes (R207, R209) -/

/-- What stands in a field of a record (R207): a number, an absent one, a position along the web, or a signed offset. -/
inductive Figure where
  | num (v : Nat)
  | absent
  | place (p : Pos)
  | signed (v : Int)
  deriving DecidableEq, Repr

/-- A number that may be absent. -/
def Figure.num? : Option Nat → Figure
  | some v => .num v
  | none => .absent

/-- A position that may be absent. -/
def Figure.place? : Option Pos → Figure
  | some p => .place p
  | none => .absent

/-- Whether a figure stands in the `width` bytes from an offset on: numbers least significant byte first, signed ones in two's
complement, absent ones as all ones (R207). The bytes of a position below 0 are a free value (log 10). -/
def Figure.standsAt (bytes : List Byte) (offset width : Nat) : Figure → Prop
  | .num v => ∀ i < width, bytes[offset + i]? = some (BitVec.ofNat 8 (v / 256 ^ i))
  | .absent => ∀ i < width, bytes[offset + i]? = some 255
  | .place p => 0 ≤ p → ∀ i < width, bytes[offset + i]? = some (BitVec.ofNat 8 (p.toNat / 256 ^ i))
  | .signed v => ∀ i < width, bytes[offset + i]? = some (BitVec.ofNat 8 ((v % 2 ^ 48).toNat / 256 ^ i))

/-- The fields of a record, each at its offset and of its width. -/
def Lays (bytes : List Byte) (fields : List (Nat × Nat × Figure)) : Prop :=
  ∀ f ∈ fields, f.2.2.standsAt bytes f.1 f.2.1

/-- A list of figures of one width, one behind another from an offset on. -/
def LaysEach (bytes : List Byte) (offset width count : Nat) (figure : Nat → Figure) : Prop :=
  ∀ i < count, (figure i).standsAt bytes (offset + width * i) width

/-- A record stands within some bytes from an offset on. -/
def HoldsAt (bytes : List Byte) (offset : Nat) (part : List Byte) : Prop :=
  ∀ i < part.length, bytes[offset + i]? = part[i]?

/-! ### Commands that carry a request -/

/-- A command is a request's own row, or the end of a select period whose bytes are a frame of that request (R176, log 6). -/
def State.carries (s : State) (i j : Instr) : Prop :=
  i = j ∨ ∃ p v kind tag, i = .selectEnd p ∧ (s.port p).select = some v ∧ v.ignored = false ∧
    received p v.received = .request kind tag j

/-! ### Orders, splices and stations as the statements name them -/

/-- A swap lowers A while B is lifted (R89). -/
def Swap.bothDown (w : Swap) : Prop :=
  (w.kind = .boundary ∨ w.kind = .afterLapse) ∧ w.drop.map SwapRec.station = some .a ∧ ∃ r ∈ w.lifts, r.station = .b

/-- The ids of the book and of the window are each distinct. -/
structure State.idsDistinct (s : State) : Prop where
  book : (s.book.map fun r => r.fig.id).Nodup
  window : (s.plan.window.map fun w => w.id).Nodup

/-- The orders from the head of the window up to one have their ends PINNED (R76). -/
def State.pinnedThrough (s : State) (id : Nat) : Prop :=
  ∀ before w rest, s.plan.window = before ++ w :: rest → w.id = id → ∀ v ∈ before ++ [w], ∀ r, s.order? v.id = some r →
    r.pinned = true

/-- The end of the order in front of one, where the window holds it, is PINNED (R75). -/
def State.pinnedBefore (s : State) (id : Nat) : Prop :=
  ∀ before v w rest, s.plan.window = before ++ v :: w :: rest → w.id = id → ∀ r, s.order? v.id = some r → r.pinned = true

/-- The commit requirement of R110: in TRACKING, the stream INTACT, its link sound, `arm` its running arm, and the other arm
READY with a reel of the grade. -/
structure State.meets (s : State) (x : Stream) (g : Nat) (arm : Arm) : Prop where
  tracking : s.part = .tracking
  running : (s.stream x).running = some arm
  intact : (s.stream x).broken = false
  link : (s.stream x).linkFault = false
  ready : (s.arm x arm.other).state = .ready
  grade : (s.arm x arm.other).declaration.map Declaration.grade = some g

/-- The positions a layout gives the tools of a kind. -/
def Layout.positions (l : Layout) : ToolKind → List Nat
  | .slit => l.slits
  | .score => l.scores

/-! ### Requests and their replies (R179 to R181) -/

/-- A request of a kind on a port will be judged by its own rule: the part is out of reset, the out-queue holds fewer than
16 frames, and the port accepts the kind. -/
structure Heard (s : State) (p : Port) (kind : Nat) : Prop where
  running : s.resetAsserted = false
  room : (s.port p).queue.length < 16
  right : accepted p kind = true

/-- A frame has joined a port's out-queue, and only notices have joined behind it. -/
def JoinedBy (s t : State) (p : Port) (f : Frame) : Prop :=
  ∃ l : List Frame, (∀ g ∈ l, g.isNotice = true) ∧ (t.port p).queue = (s.port p).queue ++ f :: l

/-- A DONE reply: the request's kind plus 80h, its tag, the payload. -/
def doneFrame (kind : Nat) (tag : Byte) (payload : List Byte) : Frame := .reply (kind + 0x80) tag payload

/-- A REFUSED reply: kind FEh, the request's tag, and its kind, the cause code and the section code. -/
def refusedFrame (kind : Nat) (tag : Byte) (cause : Nat) (sectionCode : Nat := 0) : Frame :=
  .reply 0xFE tag [BitVec.ofNat 8 kind, BitVec.ofNat 8 cause, BitVec.ofNat 8 sectionCode]

/-- The state with one more frame in a port's out-queue, and nothing else changed. -/
def State.withFrame (s : State) (p : Port) (f : Frame) : State :=
  s.setPort p { s.port p with queue := (s.port p).queue ++ [f] }

/-- What a queue attempt does to a port (R186): a run `l` of its waiting classes, in ascending number and from the first, is
queued, each with its marker set; none while the pause flag is set, and otherwise all of them unless the room runs out.
Nothing else changes. -/
def Attempted (r u : PortRec) : Prop :=
  ∃ l, l <+: (List.range r.classes.length).filter r.waiting ∧ u.queue = r.queue ++ l.map Frame.notice ∧
    (r.paused = true → l = []) ∧
    (r.paused = false → l = (List.range r.classes.length).filter r.waiting ∨ u.room = false) ∧
    (∀ n, u.classes[n]? = (r.classes[n]?).map fun (c : NoticeClass) => { c with queued := c.queued || l.contains n }) ∧
    u.paused = r.paused ∧ u.select = r.select ∧ u.dataOut = r.dataOut

/-! ### Profile sections as a request carries them (R207, R208) -/

def DriveMode.code : DriveMode → Nat
  | .input => 1
  | .delay100 => 2
  | .delay200 => 3
  | .delay400 => 4
  | .delay800 => 5

def StreamProfile.raw (f : StreamProfile) : RawStreamSection :=
  { active := f.active.toNat, splicerDistance := f.splicerDistance, commitLead := f.commitLead
    spliceMaxSpeed := f.spliceMaxSpeed, seamLead := f.seamLead, seamTrail := f.seamTrail, fastExtra := f.fastExtra
    runoutReserve := f.runoutReserve, butt := f.butt, doneWindow := f.doneWindow, driveMode := f.driveMode.code }

def LaneProfile.raw (f : LaneProfile) : RawLaneSection :=
  { kBase := f.kBase, dDet := f.dDet, wConfirm := f.wConfirm, maxCorrection := f.maxCorrection, preQuiet := f.preQuiet
    minActive := f.minActive, maxGap := f.maxGap, postQuiet := f.postQuiet, unsyncedExtra := f.unsyncedExtra
    rethreadLength := f.rethreadLength }

def LineProfile.raw (f : LineProfile) : RawLineSection :=
  { g := f.g, wg := f.wg, h := f.h, swapLead := f.swapLead, execTolerance := f.execTolerance, stopTime := f.stopTime
    weightMain := f.pulseWeight.main, weightLane1 := f.pulseWeight.lane1, weightLane2 := f.pulseWeight.lane2
    filterMain := f.filterWidth.main, filterLane1 := f.filterWidth.lane1, filterLane2 := f.filterWidth.lane2 }

def SlitterProfile.raw (f : SlitterProfile) : RawSlitterSection :=
  { dA := f.dA, dB := f.dB, minSlitSpacing := f.minSlitSpacing, minScoreSpacing := f.minScoreSpacing
    placeTolerance := f.placeTolerance, placeAttempts := f.placeAttempts }

def EntryProfile.raw (f : EntryProfile) : RawEntrySection :=
  { enable := f.enable.toNat, kind := EntryKind.code f.kind, dNear := f.dNear, dFar := f.dFar, changeLead := f.changeLead
    stopTolerance := f.stopTolerance }

/-! ### Inputs -/

/-- The next state of the quadrature sequence: low-low, high-low, high-high, low-high and back, as (A, B) (R4). -/
def quadratureNext : Bool × Bool → Bool × Bool
  | (false, false) => (true, false)
  | (true, false) => (true, true)
  | (true, true) => (false, true)
  | (false, true) => (false, false)

/-- A channel's filtered levels as a pair. -/
def ChannelRec.levels (r : ChannelRec) : Bool × Bool := (r.levelA, r.levelB)

/-- What a read at tick `now` that shows a level makes of a debounced input (R100): the first successful read takes the
level at once; the level held clears the candidate; the other level becomes the candidate, or, 20 ticks or more after the
read that first showed it, the level. -/
structure Debounces (i j : StandInput) (shown : Bool) (now : Nat) (first : Bool) : Prop where
  atOnce : first = true → j = { level := shown, candidate := none }
  same : first = false → shown = i.level → j = { level := i.level, candidate := none }
  fresh : first = false → shown ≠ i.level → i.candidate = none → j = { level := i.level, candidate := some now }
  waits : ∀ c, first = false → shown ≠ i.level → i.candidate = some c → now < c + 20 → j = i
  changes : ∀ c, first = false → shown ≠ i.level → i.candidate = some c → c + 20 ≤ now → j = { level := shown, candidate := none }

/-- What a read makes of the four inputs of an arm. -/
structure ArmDebounces (r u : ArmRec) (v : ArmLevels) (now : Nat) (first : Bool) : Prop where
  present : Debounces r.present u.present v.present now first
  latched : Debounces r.latched u.latched v.latched now first
  button : Debounces r.button u.button v.button now first
  driveGood : Debounces r.driveGood u.driveGood v.driveGood now first

/-! ### What the acts that follow from a command leave alone -/

/-- What an arm record holds that only the stand link, the wet end's requests and a done pulse change (R97, R100): state,
declaration, start count and debounced inputs. -/
def ArmRec.stand (r : ArmRec) : ArmState × Option Declaration × Option Nat × StandInput × StandInput × StandInput × StandInput :=
  (r.state, r.declaration, r.startCount, r.present, r.latched, r.button, r.driveGood)

/-- The same for a stream record (R96, R99, R100). -/
structure StreamStand where
  armA : ArmState × Option Declaration × Option Nat × StandInput × StandInput × StandInput × StandInput
  armB : ArmState × Option Declaration × Option Nat × StandInput × StandInput × StandInput × StandInput
  running : Option Arm
  runningGrade : Nat
  broken : Bool
  linkFault : Bool
  splicerReady : StandInput
  seen : Bool
  readPending : Bool
  written : StandOutputs
  doneSample : DoneSample
  deriving DecidableEq, Repr

def StreamRec.stand (r : StreamRec) : StreamStand :=
  ⟨r.arms.a.stand, r.arms.b.stand, r.running, r.runningGrade, r.broken, r.linkFault, r.splicerReady, r.seen, r.readPending,
    r.written, r.doneSample⟩

/-- Whether the raw flag of a class is set. -/
def PortRec.rawOf (p : PortRec) (n : Nat) : Bool := ((p.classes[n]?).map NoticeClass.raw).getD false

/-- What raising notices may do to a port (R179, R185): notices join behind its frames as room allows, and raw flags that
are set stay set. -/
structure PortGrows (r t : PortRec) : Prop where
  paused : t.paused = r.paused
  select : t.select = r.select
  dataOut : t.dataOut = r.dataOut
  enables : t.classes.map NoticeClass.enable = r.classes.map NoticeClass.enable
  queue : ∃ l, (∀ f ∈ l, f.isNotice = true) ∧ t.queue = r.queue ++ l ∧ (l = [] ∨ t.bounded)
  raw : ∀ n, r.rawOf n = true → t.rawOf n = true

/-- What the acts that follow from a command leave alone (log 8): the reset input, the part state, the profile, the
counters and speeds, the pins, the command queue, the stand link, what each stand holds, and the figures of the orders;
notices join the ports. -/
structure Untouched (s t : State) : Prop where
  resetAsserted : t.resetAsserted = s.resetAsserted
  part : t.part = s.part
  profile : t.profile = s.profile
  lmu : t.lmu = s.lmu
  pins : t.pins = s.pins
  pending : t.pending = s.pending
  link : t.splice.link = s.splice.link
  stands : ∀ x, (t.stream x).stand = (s.stream x).stand
  ports : ∀ p, PortGrows (s.port p) (t.port p)
  figures : (s.book.map fun r => r.fig.id).Nodup → t.book.map OrderRec.fig = s.book.map OrderRec.fig

end Sys2Proof.Machine
end

