-- ==== Sys2Proof/Certificates/Slice0/Obligations.lean ====
section
/-! DEFINITION. The statements for the provers. Each docstring names the rules a statement formalises; numbers are written
out as the manual gives them. `u.settled` is a state `u` with the acts that follow from it carried out (log 8); where
no act is due the two are equal, so a statement with the hypothesis `s.work = []` and no act made due gives the whole
next state. -/

open Sys2Proof Sys2Proof.Machine

/-! ### The block as a whole -/

/-- Commands are taken first in, first out: a step carries out the command at the front of the queue. -/
def Obligations.StepRunsTheFrontCommand : Prop :=
  ∀ (c : Instr) (rest : List Instr) (s : State), s.pending = c :: rest → step s = exec c { s with pending := rest }

/-- MODEL's choice (log 1, log 26): on an empty queue a step is one tick of R1, which counts every timer, samples the DONE inputs
(R115) and the stand interrupt (R99), and puts the commands whose moment has come, and no others, into the queue; while the
reset input is asserted no tick is taken. -/
def Obligations.EmptyQueueTakesOneTick : Prop :=
  ∀ s : State, s.pending = [] →
    (s.resetAsserted = true → step s = .next s) ∧
    (s.resetAsserted = false → ∃ t, step s = .next t ∧
      t.lmu.ticks = s.lmu.ticks + 1 ∧
      t.lmu.divider = (s.lmu.divider + 1) % 10 ∧
      t.lmu.channels = s.lmu.channels ∧
      t.lmu.stopped = s.lmu.stopped ∧
      t.lmu.zeroSpeedTime =
        (if s.lmu.stopped = false ∧ (s.channel .main).speed = 0 then s.lmu.zeroSpeedTime + 1 else s.lmu.zeroSpeedTime) ∧
      t.lmu.stopDuration =
        (if s.lmu.stopped = true then min (s.lmu.stopDuration + 1) 65535 else s.lmu.stopDuration) ∧
      (∀ x arm, t.arm x arm =
        { s.arm x arm with
          delay := if (s.arm x arm).driveEnable = true then min ((s.arm x arm).delay + 1) 800 else (s.arm x arm).delay }) ∧
      (∀ x, t.stream x =
        { s.stream x with
          arms := (t.stream x).arms, fireLeft := (s.stream x).fireLeft - 1
          doneSample := if s.pins.done.get x = true then (if (s.stream x).doneSample = .low then .once else .high) else .low }) ∧
      t.splice.link =
        { s.splice.link with
          poll := (s.splice.link.poll + 1) % 100
          samples := if s.pins.interrupt = s.splice.link.interrupt then 0 else min (s.splice.link.samples + 1) 20 } ∧
      (Instr.tenMsUpdate ∈ t.pending ↔ t.lmu.divider = 0) ∧
      (Instr.entryIntoAStop ∈ t.pending ↔
        s.lmu.stopped = false ∧ (s.channel .main).speed = 0 ∧ s.profile.line.stopTime ≤ s.lmu.zeroSpeedTime + 1) ∧
      (∀ x, Instr.firePulseEnd x ∈ t.pending ↔ (s.stream x).fire = true ∧ (s.stream x).fireLeft ≤ 1) ∧
      (∀ x, Instr.donePulse x ∈ t.pending ↔ (s.stream x).doneSample = .once ∧ s.pins.done.get x = true) ∧
      (Instr.standPoll ∈ t.pending ↔ (s.splice.link.poll + 1) % 100 = 0) ∧
      (∀ n, Instr.takeStopZone n ∈ t.pending ↔ 1 ≤ n ∧ n ≤ 12 ∧ s.lmu.stopped = true ∧ nth1 s.map.zoneTaken n = some false ∧
        ∃ e, nth1 s.profile.entries n = some e ∧ e.enable = true ∧ e.stopTolerance ≤ min (s.lmu.stopDuration + 1) 65535) ∧
      (∀ b, Instr.standInterruptChange b ∈ t.pending ↔
        b = s.pins.interrupt ∧ s.pins.interrupt ≠ s.splice.link.interrupt ∧ 20 ≤ s.splice.link.samples + 1) ∧
      (∀ x arm, Instr.driveGoodDelay x arm ∈ t.pending ↔ (s.arm x arm).driveEnable = true ∧
        (s.streamProfile x).driveMode.delay? = some ((s.arm x arm).delay + 1)) ∧
      (Instr.standTransactionStart ∈ t.pending ↔ s.splice.link.busy = none ∧ ∃ x, (s.streamProfile x).active = true ∧
        (((s.stream x).writePending = true ∧ (s.stream x).linkFault = false) ∨ (s.stream x).readPending = true)) ∧
      (∀ i ∈ t.pending, i = .tenMsUpdate ∨ i = .entryIntoAStop ∨ i = .standPoll ∨ i = .standTransactionStart ∨
        (∃ n, i = .takeStopZone n) ∨ (∃ b, i = .standInterruptChange b) ∨ (∃ x arm, i = .driveGoodDelay x arm) ∨
        (∃ x, i = .firePulseEnd x) ∨ ∃ x, i = .donePulse x) ∧
      { t with lmu := s.lmu, splice := s.splice, pending := [] } = s)

/-- What each block holds after reset where the manual gives the value: R18, R43, R67, R95, R127, R152, R173, R194, R204, and
for every field of the profile the table of 09 section 9.1. -/
def Obligations.ResetStateHoldsTheResetValues : Prop :=
  let s := State.reset
  s.part = .setup ∧ s.resetAsserted = false ∧
  (∀ c, (s.channel c).counter = 0 ∧ (s.channel c).fraction = 0 ∧ (s.channel c).backTravel = 0 ∧
    (s.channel c).buckets = [0, 0, 0, 0, 0, 0, 0, 0, 0, 0] ∧ (s.channel c).gain = 0 ∧ (s.channel c).speed = 0 ∧
    (s.channel c).saturated = false ∧ (s.channel c).capped = false) ∧
  s.lmu.stopped = false ∧ s.lmu.zeroSpeedTime = 0 ∧ s.lmu.stopDuration = 0 ∧ s.lmu.divider = 0 ∧
  (∀ x, s.streamProfile x =
    { active := false, splicerDistance := 0, commitLead := 0, spliceMaxSpeed := 0, seamLead := 0, seamTrail := 0
      fastExtra := 0, runoutReserve := 0, butt := 0, doneWindow := 0, driveMode := .input }) ∧
  (∀ l, s.laneProfile l =
    { kBase := 0, dDet := 0, wConfirm := 0, maxCorrection := 0, preQuiet := 0, minActive := 0, maxGap := 0, postQuiet := 0
      unsyncedExtra := 0, rethreadLength := 0 }) ∧
  s.profile.line =
    { g := 0, wg := 20000, h := 20000, swapLead := 0, execTolerance := 0, stopTime := 500
      pulseWeight := ⟨1024, 1024, 1024⟩, filterWidth := ⟨0, 0, 0⟩ } ∧
  s.profile.slitter = { dA := 0, dB := 0, minSlitSpacing := 0, minScoreSpacing := 0, placeTolerance := 0, placeAttempts := 4 } ∧
  s.profile.entries = List.replicate 12
    { enable := false, kind := .preheater, dNear := 0, dFar := 0, changeLead := 0, stopTolerance := 0 } ∧
  s.map.track = [] ∧ s.map.zoneTaken = List.replicate 12 false ∧
  (∀ l, (s.lane l).marks = [] ∧ (s.lane l).offset = 0 ∧ (s.lane l).unsynced = true ∧
    (s.lane l).recogniser.state = .guard ∧ (s.lane l).recogniser.p0 = none) ∧
  s.book = [] ∧ s.plan.window = [] ∧ s.plan.w0 = 0 ∧ s.plan.tail = none ∧ s.plan.pendingChange = List.replicate 12 none ∧
  (∀ x, (s.stream x).running = none ∧ (s.stream x).runningGrade = 0 ∧ (s.stream x).broken = false ∧
    (s.stream x).linkFault = false ∧ (s.stream x).slot = none ∧ (s.stream x).fire = false ∧
    (s.stream x).doneSample = .high ∧ (s.stream x).readPending = false ∧ (s.stream x).writePending = false ∧
    (s.stream x).splicerReady.level = false ∧
    ∀ arm, (s.arm x arm).state = .empty ∧ (s.arm x arm).declaration = none ∧ (s.arm x arm).startCount = none ∧
      (s.arm x arm).present.level = false ∧ (s.arm x arm).latched.level = false ∧ (s.arm x arm).button.level = false ∧
      (s.arm x arm).driveGood.level = false ∧ (s.arm x arm).driveEnable = false ∧ (s.arm x arm).lamp = false ∧
      (s.arm x arm).delay = 0) ∧
  s.splice.link.interrupt = false ∧ s.splice.link.samples = 0 ∧ s.splice.link.busy = none ∧ s.splice.link.scan = none ∧
  (∀ st, (s.station st).state = .idle ∧ (s.station st).layout = none ∧ (s.station st).order = none ∧
    (s.station st).late = none ∧ (s.station st).current = .none ∧ (s.station st).previous = .none ∧
    (s.station st).slits = List.replicate 8 { state := .unknown, target := none, attempts := 0, measured := none } ∧
    (s.station st).scores = List.replicate 10 { state := .unknown, target := none, attempts := 0, measured := none }) ∧
  s.slitter.moves = [] ∧ s.dry.released = [] ∧ s.dry.sequence = 1 ∧ s.dry.wrapped = false ∧ s.dry.cursor = 0 ∧
  s.dry.merge = false ∧
  (∀ p, (s.port p).queue = [] ∧
    (s.port p).classes = List.replicate (Port.classCount p) { raw := false, enable := false, queued := false } ∧
    (s.port p).paused = false ∧ (s.port p).select = none ∧ s.attention p = false) ∧
  s.pending = []

/-- RESET_ASSERT gives every block its reset values (R204 and the reset rule of each chapter), and no tick is taken while it
stays asserted (R1). That until RESET_RELEASE no other command changes anything is the MODEL's reading of "holds them there"
(log 5). The pins and the queue are not the block's. -/
def Obligations.ResetAssertClearsAndHolds : Prop :=
  (∀ s : State, exec .resetAssert s =
    .next { State.reset with resetAsserted := true, pins := s.pins, pending := s.pending }) ∧
  (∀ (i : Instr) (s : State), s.resetAsserted = true → i ≠ .resetAssert → (∀ v, i ≠ .resetRelease v) →
    exec i s = .next s) ∧
  (∀ s : State, s.resetAsserted = true → s.pending = [] → step s = .next s)

/-- RESET_RELEASE takes the levels found at the inputs, without a pulse (R4), each recogniser's level, with i0 = L where it
is inactive (R43), and any select period in progress, which is ignored to its end (R194); nothing else changes. That the
command changes nothing where the reset input is not asserted is the MODEL's reading (log 5). -/
def Obligations.ResetReleaseTakesTheInputs : Prop :=
  ∀ (v : ReleaseLevels) (s : State),
    (s.resetAsserted = false → exec (.resetRelease v) s = .next s) ∧
    (s.resetAsserted = true → ∃ t, exec (.resetRelease v) s = .next t ∧ t.resetAsserted = false ∧
      t.channel .main = { s.channel .main with levelA := v.mainA, levelB := v.mainB } ∧
      t.channel .lane1 = { s.channel .lane1 with levelA := v.lane1A, levelB := v.lane1B } ∧
      t.channel .lane2 = { s.channel .lane2 with levelA := v.lane2A, levelB := v.lane2B } ∧
      (t.lane .one).recogniser =
        { (s.lane .one).recogniser with level := v.seam1, i0 := if v.seam1 then none else some 0 } ∧
      (t.lane .two).recogniser =
        { (s.lane .two).recogniser with level := v.seam2, i0 := if v.seam2 then none else some 0 } ∧
      (∀ p, t.port p =
        { s.port p with
          select :=
            if (match p with
              | .planning => v.selectPlanning
              | .wet => v.selectWet
              | .dry => v.selectDry) then some { chosen := none, bytes := [], shifted := 0, received := [], ignored := true }
            else none }) ∧
      (∀ l, { t.lane l with recogniser := (s.lane l).recogniser } = s.lane l) ∧
      { t.map with lanes := s.map.lanes } = s.map ∧
      { t.lmu with channels := s.lmu.channels } = s.lmu ∧
      { t with resetAsserted := true, lmu := s.lmu, map := s.map, ports := s.ports } = s)

/-! ### Length measurement (01) -/

/-- R4, R5, R7, R8, R10: a forward pulse, and which pulse is a counter update. -/
def Rule.ForwardPulse : Prop :=
  ∀ (c : Channel) (s : State), s.resetAsserted = false → ∃ t, exec (.forwardPulse c) s = .next t ∧
    let w := s.profile.line.pulseWeight.get c
    let r := s.channel c
    let r' := t.channel c
    let acc := r.fraction + (w - r.backTravel)
    (w ≤ r.backTravel →
      r'.backTravel = r.backTravel - w ∧ r'.fraction = r.fraction ∧ r'.counter = r.counter ∧ r'.gain = r.gain ∧
      r'.saturated = r.saturated) ∧
    (r.backTravel < w →
      r'.backTravel = 0 ∧ r'.fraction = acc % 1024 ∧ r'.counter = min (r.counter + acc / 1024) (2 ^ 40 - 1) ∧
      r'.gain = min (r.gain + (r'.counter - r.counter)) 65535 ∧
      r'.saturated = (r.saturated || decide (2 ^ 40 - 1 < r.counter + acc / 1024))) ∧
    r'.levels = quadratureNext r.levels ∧ r'.capped = r.capped ∧
    r'.speed = r.speed ∧ r'.buckets = r.buckets ∧ (∀ d, d ≠ c → t.channel d = s.channel d) ∧
    let u := if r.saturated = false ∧ r'.saturated = true then (s.setChannel c r').raise .trackDoubt else s.setChannel c r'
    (r.backTravel < w → 1 ≤ acc / 1024 → t = ({ u with work := s.work ++ updateActs c } : State).settled) ∧
    (w ≤ r.backTravel ∨ acc / 1024 = 0 → s.work = [] → t = u)

/-- R10, R31, R109: the acts at a counter update of each channel. Those on a stream's slot come as R109 lists them, the lower
stream of a lane first; the recognisers come before the window tests (R31), and those of R165 last. The rest of the order is
the model's choice (log 7). -/
def Rule.UpdateActs : Prop :=
  updateActs .lane1 =
    [.doneWindow .s1, .commitTest .s1, .wrongGrade .s1, .fireTest .s1, .runout .s1,
     .doneWindow .s2, .commitTest .s2, .wrongGrade .s2, .fireTest .s2, .runout .s2] ∧
  updateActs .lane2 =
    [.doneWindow .s3, .commitTest .s3, .wrongGrade .s3, .fireTest .s3, .runout .s3,
     .doneWindow .s4, .commitTest .s4, .wrongGrade .s4, .fireTest .s4, .runout .s4] ∧
  updateActs .main =
    [.recognise, .windowTest .one, .windowTest .two, .expiry, .cutting, .triggers,
     .doneWindow .s5, .commitTest .s5, .wrongGrade .s5, .fireTest .s5, .runout .s5,
     .lapse .a, .lapse .b, .declare, .release, .overrun]

/-- What each act that can be due does: the recogniser tests (R32 to R34), the match of a seam (R35, R36), the window test (R31),
the expiry test (R25), the entry into CUTTING (R49), the recomputation (R69), with the acts that follow from every one, the
triggers (R85), the tests of a slot (R116, R110, R114, R113, R118, R111), a slot that becomes FREE (R108), the demand of a
station (R130), the lapse of a late swap (R148), and the declarations, the release test, the overruns and the close test of the
dry list (R164, R156, R165, R168). -/
def Rule.ActEffects : Prop :=
  ∀ s : State,
    perform .recognise s = (s.recogniserTest .one).recogniserTest .two ∧
    (∀ l q, perform (.matchSeam l q) s = s.matchSeam l q) ∧
    (∀ l, perform (.windowTest l) s = s.windowTest l) ∧
    perform .expiry s = s.expireExtents ∧ perform .cutting s = s.cutting ∧
    perform .recompute s = s.recompute ∧ perform .triggers s = s.fireTrigger ∧
    (∀ x, perform (.doneWindow x) s = s.doneWindowTest x ∧ perform (.commitTest x) s = s.commitTest x ∧
      perform (.wrongGrade x) s = s.wrongGradeTest x ∧ perform (.fireTest x) s = s.fireTest x ∧
      perform (.runout x) s = s.runoutTest x ∧ perform (.deferred x) s = s.deferredTest x ∧
      perform (.slotFree x) s = s.slotFreeAct x) ∧
    (∀ st, perform (.demand st) s = s.setDemand st ∧ perform (.lapse st) s = s.lapseTest st) ∧
    perform .declare s = s.declare ∧ perform .release s = s.releaseTest ∧ perform .overrun s = s.overrun ∧
    (∀ id, perform (.close id) s = s.closeTest id) ∧
    (s.part = .setup → s.recompute = s) ∧
    (s.part = .tracking → ∃ before, s.recompute.work = before ++
      [.commitTest .s1, .commitTest .s2, .commitTest .s3, .commitTest .s4, .commitTest .s5, .triggers, .demand .a, .demand .b,
       .lapse .a, .lapse .b, .release])

/-- MODEL's choice (log 8): the place of the acts that one act makes due. They come before those that were due already, of
several recomputations the last serves for all, and one that is made due takes the place of one that was due. Those that a
recomputation makes due leave an act that is due anyway at its place, and of the others the acts on a slot come before, and
the rest behind, the slot acts still to come of the event in progress (R109). -/
def Rule.ActOrder : Prop :=
  (∀ acts, Task.recompute ∉ acts → lastRecompute acts = acts) ∧
  (∀ before behind, Task.recompute ∉ behind → lastRecompute (before ++ .recompute :: behind) =
    before.filter (fun a => a != .recompute) ++ .recompute :: behind) ∧
  (∀ a : Task, a.onSlot = true ↔ ∃ x, a = .doneWindow x ∨ a = .commitTest x ∨ a = .wrongGrade x ∨ a = .fireTest x ∨ a = .runout x ∨
    a = .deferred x ∨ a = .slotFree x) ∧
  ∀ (a : Task) (new rest : List Task),
    let left := if Task.recompute ∈ new then rest.filter fun b => b != .recompute else rest
    let fresh := new.filter fun b => b != .recompute && !left.contains b
    (a ≠ .recompute → mergeWork a new rest = lastRecompute new ++ left) ∧
    mergeWork .recompute new rest = (if Task.recompute ∈ new then [.recompute] else []) ++ fresh.filter Task.onSlot ++
      left.takeWhile Task.onSlot ++ fresh.filter (fun b => !b.onSlot) ++ left.dropWhile Task.onSlot

/-- MODEL's choice (log 8, log 9): `u.settled` carries out the acts of `u.work` one after another, each on the state that the one
before it left, until none is due, and at most 4096 of them. -/
def Rule.ActsInTurn : Prop :=
  (∀ u : State, u.settled = settle 4096 { u with work := lastRecompute u.work }) ∧
  (∀ (n : Nat) (s : State), n = 0 ∨ s.work = [] → settle n s = s) ∧
  ∀ (n : Nat) (s : State) (a : Task) (rest : List Task), s.work = a :: rest →
    let t := perform a { s with work := [] }
    settle (n + 1) s = settle n { t with work := mergeWork a t.work rest }

/-- R5: what a forward pulse adds to its channel's record; the levels step to the next state of the sequence (R4). SATURATED
joins the doubt causes, with TRACK_DOUBT where it was not held, when a gain would pass 2^40 - 1 (R7, R8); that the current
gain then takes only what the counter gained is the model's reading (log 43). The last clauses of `Rule.ForwardPulse` say which
pulse is a counter update: the acts that the chapters attach to a counter update of the channel are then made due, and
otherwise nothing but the channel and, for TRACK_DOUBT, the planning port changes. Then which acts those are (R10, R31, R109),
in the model's order (log 7), what each act does, and how the acts that follow from an event are carried out, the order
and the number of them being the model's choice (log 8, log 9, logs 51, 52 and 66 for those of a recomputation). -/
def Obligations.ForwardPulseCounts : Prop :=
  Rule.ForwardPulse ∧ Rule.UpdateActs ∧ Rule.ActEffects ∧ Rule.ActOrder ∧ Rule.ActsInTurn

/-- R4, R6, R8: a forward pulse is a step to the next state of the quadrature sequence; a reverse pulse steps the levels back,
adds its weight to back-travel up to the limit, joins CAPPED at the limit, with TRACK_DOUBT when CAPPED was not held, and
changes nothing else. When both levels change at once they take the new pair and nothing else changes. -/
def Obligations.ReversePulseHoldsBackTravel : Prop :=
  ∀ (c : Channel) (s : State), s.resetAsserted = false → s.work = [] →
    let r := s.channel c
    let back := min (r.backTravel + s.profile.line.pulseWeight.get c) 16777215
    let u := s.setChannel c
      { r with levelA := r.levelB, levelB := !r.levelA, backTravel := back, capped := r.capped || back == 16777215 }
    exec (.reversePulse c) s = .next (if back = 16777215 ∧ r.capped = false then u.raise .trackDoubt else u) ∧
    quadratureNext (r.levelB, !r.levelA) = r.levels ∧
    (∃ t, exec (.forwardPulse c) s = .next t ∧ (t.channel c).levels = quadratureNext r.levels) ∧
    exec (.bothLevelsChange c) s = .next (s.setChannel c { r with levelA := !r.levelA, levelB := !r.levelB })

/-- R13, R14, R16: at a 10-ms update every channel closes a bucket, its current gain, or 0 while its counter is saturated, and
takes ten times the sum of its buckets as its speed; that the gain made before a saturation in the same interval makes no
bucket is DEDUCED from R14 (log 58). Travel in the main channel's newest bucket ends a stop and clears the zero-speed time,
which also starts again from 0 when the speed becomes 0; the stop duration is kept, and nothing else changes. That the command
brings the count of the ticks of R1 to the tenth, leaving the divider at 0, whenever it is put in, is the model's choice
(log 2). -/
def Obligations.TenMsUpdateClosesTheBuckets : Prop :=
  ∀ s : State, s.resetAsserted = false → s.work = [] → ∃ t, exec .tenMsUpdate s = .next t ∧
    let bucket := fun c => if (s.channel c).saturated = true then 0 else (s.channel c).gain
    (∀ c, t.channel c =
      { s.channel c with
        buckets := bucket c :: (s.channel c).buckets.take 9, gain := 0
        speed := 10 * (bucket c :: (s.channel c).buckets.take 9).sum }) ∧
    t.lmu.stopped = (s.lmu.stopped && bucket .main == 0) ∧
    t.lmu.zeroSpeedTime =
      (if bucket .main ≠ 0 ∨ ((t.channel .main).speed = 0 ∧ (s.channel .main).speed ≠ 0) then 0
       else s.lmu.zeroSpeedTime) ∧
    t.lmu.stopDuration = s.lmu.stopDuration ∧ t.lmu.ticks = s.lmu.ticks ∧ t.lmu.divider = 0 ∧
    { t with lmu := s.lmu } = s

/-- R15, R37, R38: at the entry into a stop the flag is set, the stop duration is 0 and every zone-taken marker is clear, but for
the enabled entries of tolerance 0, which take their zones at once: the marker is set, and, where D_far is greater than D_near,
the web from L + D_near to L + D_far has cause STOP and STOP_ZONE is raised. The exact next state is given where there is no
such entry. That the zero-speed time is brought up to the stop time is the model's choice (log 2), and that with the flag set,
or the main channel moving, there is no entry and nothing changes is its reading (log 41). -/
def Obligations.EntryIntoAStopBeginsAStop : Prop :=
  ∀ s : State, s.resetAsserted = false →
    (s.lmu.stopped = true ∨ (s.channel .main).speed ≠ 0 → s.work = [] → exec .entryIntoAStop s = .next s) ∧
    (s.lmu.stopped = false → (s.channel .main).speed = 0 → ∃ u t : State, exec .entryIntoAStop s = .next t ∧ t = u.settled ∧
      t.lmu = u.lmu ∧
      u.lmu = { s.lmu with
        stopped := true, stopDuration := 0
        zeroSpeedTime := max s.lmu.zeroSpeedTime s.profile.line.stopTime } ∧
      u.map.lanes = s.map.lanes ∧ u.map.zoneTaken.length = 12 ∧
      (∀ n e, 1 ≤ n → n ≤ 12 → nth1 s.profile.entries n = some e →
        nth1 u.map.zoneTaken n = some (e.enable && e.stopTolerance == 0) ∧
        (e.enable = true → e.stopTolerance = 0 → e.dNear < e.dFar →
          u.covers .stop ((s.mainCount : Int) + e.dNear) ((s.mainCount : Int) + e.dFar) ∧
          ((s.port .wet).classes.length = 13 → (u.port .wet).rawOf 10 = true))) ∧
      ((∀ e ∈ s.profile.entries, e.enable = true → e.stopTolerance = 0 → e.dFar ≤ e.dNear) →
        u.map.track = s.map.track ∧ u.ports = s.ports ∧ u.work = s.work) ∧
      ((∀ e ∈ s.profile.entries, e.enable = true → e.stopTolerance ≠ 0) → s.work = [] →
        t = { s with lmu := t.lmu, map := { s.map with zoneTaken := List.replicate 12 false } }) ∧
      { u with lmu := s.lmu, map := s.map, ports := s.ports, work := s.work } = s)

/-- R38: a stop zone covers the web from L + D_near to L + D_far with cause STOP, its marker is set and STOP_ZONE is raised;
an entry whose D_far is not greater than its D_near sets its marker alone; an entry that is disabled or has its marker set,
or a main channel that is not stopped, takes nothing. The stop duration is brought up to the tolerance (log 2). -/
def Obligations.StopZoneIsTaken : Prop :=
  ∀ (n : Nat) (e : EntryProfile) (taken : Bool) (s : State), s.resetAsserted = false →
    nth1 s.profile.entries n = some e → nth1 s.map.zoneTaken n = some taken →
    (s.lmu.stopped = false ∨ e.enable = false ∨ taken = true → s.work = [] → exec (.takeStopZone n) s = .next s) ∧
    (s.lmu.stopped = true → e.enable = true → taken = false →
      ∃ u : State, exec (.takeStopZone n) s = .next u.settled ∧
        u.lmu = { s.lmu with stopDuration := max s.lmu.stopDuration e.stopTolerance } ∧
        u.map.zoneTaken = modify1 s.map.zoneTaken n (fun _ => true) ∧ u.map.lanes = s.map.lanes ∧
        (e.dNear < e.dFar → (s.port .wet).classes.length = 13 →
          (u.port .wet).rawOf 10 = true ∧
          ∃ x ∈ u.map.track, Cause.stop ∈ x.causes ∧
            ∀ q : Pos, (s.mainCount : Int) + e.dNear < q → q ≤ (s.mainCount : Int) + e.dFar → x.holds q) ∧
        (e.dFar ≤ e.dNear → u.map.track = s.map.track ∧ u.ports = s.ports ∧ u.work = s.work) ∧
        { u with lmu := s.lmu, map := s.map, ports := s.ports, work := s.work } = s)

/-- R7, R8: between resets no command lets a counter fall or go beyond 2^40 - 1, and no command takes a doubt cause out of
a channel's set. -/
def Obligations.CountersAndDoubtsOnlyGrow : Prop :=
  ∀ (i : Instr) (s t : State) (c : Channel), i ≠ .resetAssert → (s.channel c).counter ≤ 2 ^ 40 - 1 → exec i s = .next t →
    (s.channel c).counter ≤ (t.channel c).counter ∧ (t.channel c).counter ≤ 2 ^ 40 - 1 ∧
    ((s.channel c).saturated = true → (t.channel c).saturated = true) ∧
    ((s.channel c).capped = true → (t.channel c).capped = true)

/-! ### The web map (02) -/

/-- R12, R29, R30: the seam offset of a stream, the predicted position of a lane mark, and the extent of a seam at a knife
position. -/
def Rule.SeamPlaces : Prop :=
  ∀ (s : State),
    let offset := fun (x : Stream) => match x with
      | .s1 => (s.lane .one).offset
      | .s2 => (s.lane .one).offset
      | .s3 => (s.lane .two).offset
      | .s4 => (s.lane .two).offset
      | .s5 => 0
    let widened := fun (x : Stream) => match x with
      | .s1 => (s.laneProfile .one).unsyncedExtra
      | .s2 => (s.laneProfile .one).unsyncedExtra
      | .s3 => (s.laneProfile .two).unsyncedExtra
      | .s4 => (s.laneProfile .two).unsyncedExtra
      | .s5 => 0
    (∀ x, s.seamOffset x = (s.streamProfile x).splicerDistance + offset x) ∧
    (∀ m : LaneMark, s.predicted m = m.count + (s.streamProfile m.stream).splicerDistance + offset m.stream) ∧
    (∀ (p : Pos) (x : Stream) (fast unsynced : Bool),
      let f := s.streamProfile x
      let extra : Nat := (if fast = true then f.fastExtra else 0) + (if unsynced = true then widened x else 0)
      s.seamExtent p x fast unsynced = (max 0 (p - (f.seamLead + extra : Nat)), p + (f.seamTrail + extra : Nat)))

/-- R21: the answer of the map, and its causes. -/
def Rule.MapAnswer : Prop :=
  ∀ (s : State) (a b : Pos), a < b →
    (s.overlapped a b = true ↔
      (∃ x ∈ s.map.track, x.start < b ∧ ∀ e, x.finish = some e → a < e) ∨
      (∃ l, ∃ m ∈ (s.lane l).marks,
        (s.seamExtent (s.predicted m) m.stream m.fast m.unsynced).1 < b ∧
        a < (s.seamExtent (s.predicted m) m.stream m.fast m.unsynced).2)) ∧
    (∀ c, c ∈ s.causesOver a b ↔
      (∃ x ∈ s.map.track, x.start < b ∧ (∀ e, x.finish = some e → a < e) ∧ c ∈ x.causes) ∨
      (c = .seam ∧ ∃ l, ∃ m ∈ (s.lane l).marks,
        (s.seamExtent (s.predicted m) m.stream m.fast m.unsynced).1 < b ∧
        a < (s.seamExtent (s.predicted m) m.stream m.fast m.unsynced).2))

/-- R21: what the map answers for the stretch (a, b], and the causes it gives with a yes. Then the formulas that it and other
statements use: K_s (R12), the predicted position of a lane mark (R29), and the extent of a seam (R30). -/
def Obligations.MapAnswersForAStretch : Prop := Rule.MapAnswer ∧ Rule.SeamPlaces

/-- R22: the web an insertion leaves in the track. -/
def Rule.HoldsTheUnion : Prop :=
  ∀ (track : List Extent) (x : Extent) (q : Pos), x.covers = true → (∀ y ∈ track, y.covers = true) →
    ((∃ y ∈ mergeInto track x, y.holds q) ↔ x.holds q ∨ ∃ y ∈ track, y.holds q)

/-- R22: an extent that covers no web is not inserted; the extents that the new one meets, overlapping or touching it, are
removed together with it and replaced by one. -/
def Rule.InsertionMerges : Prop :=
  (∀ (s : State) (x : Extent) (e : Pos), x.finish = some e → e ≤ x.start → s.insertExtent x = s) ∧
  (∀ (track : List Extent) (x : Extent),
    let meets := fun y : Extent => (∀ e, y.finish = some e → x.start ≤ e) ∧ (∀ e, x.finish = some e → y.start ≤ e)
    ∃ (p : Extent → Bool) (z : Extent), (∀ y, p y = true ↔ meets y) ∧ z.IsMergeOf (x :: track.filter p) ∧
      (mergeInto track x).Perm (z :: track.filter fun y => !p y))

/-- R23, R26: where an insertion leaves 49 extents, the pair of neighbours with the smallest gap, of equal ones the nearest the
knife, becomes one, with MAP_MERGED; the change is handed to the planner. -/
def Rule.SmallestGapIsMerged : Prop :=
  ∀ (s : State) (x : Extent), x.covers = true →
    let t := s.insertExtent x
    let all := mergeInto s.map.track x
    let gap := fun y z : Extent => z.start - y.reach
    (all.length ≤ 48 → t.map.track = all ∧ t.ports = s.ports) ∧
    (48 < all.length →
      ((s.port .planning).classes.length = 12 → (t.port .planning).rawOf 8 = true) ∧
      ∃ before y z after v, all = before ++ y :: z :: after ∧ t.map.track = before ++ v :: after ∧ v.IsMergeOf [y, z] ∧
        ∀ b y' z' rest, all = b ++ y' :: z' :: rest →
          gap y z ≤ gap y' z' ∧ (b.length < before.length → gap y z < gap y' z')) ∧
    t.map.lanes = s.map.lanes ∧ t.map.zoneTaken = s.map.zoneTaken ∧
    t.work = s.work ++ (if s.part = .tracking then [.recompute] else []) ∧
    { t with map := s.map, ports := s.ports, work := s.work } = s

/-- R22: after an insertion that covers web, the track holds a position exactly when it did before or the inserted extent
holds it: merging neither loses nor adds web. What the merged extent holds of those it replaces, and which pair is merged in a
full track (R23). -/
def Obligations.InsertionHoldsTheUnion : Prop := Rule.HoldsTheUnion ∧ Rule.InsertionMerges ∧ Rule.SmallestGapIsMerged

/-- R20, R22, R23: every step keeps the main track canonical, from any state in which it is. -/
def Obligations.MainTrackStaysCanonical : Prop :=
  ∀ s t : State, s.trackCanonical → step s = .next t → t.trackCanonical

/-- R28: Lane Sync. `u` is the state with the offset taken and the reply in the queue; where the offset is new, the acts of
R27 follow: the window test of R31, and in TRACKING the recomputation and the tests of R109 for the lane's streams. The order of
these acts (the recomputation before the wrong-grade, commit and fire tests, stream by stream), and that in SETUP the tests of
R109 are not made, are the model's (log 8). -/
def Obligations.LaneSyncSetsTheOffset : Prop :=
  ∀ (p : Port) (tag : Byte) (code : Nat) (k : Int) (s : State), Heard s p 0x16 →
    (∀ l, Lane.ofCode? code = some l → k.natAbs ≤ 2 ^ 40 - 1 →
      ∃ u : State, exec (.laneSync p tag code k) s = .next u.settled ∧
        u = { s.withFrame p (doneFrame 0x16 tag []) with
          map := u.map, work := u.work } ∧
        u.map = { s.map with lanes := s.map.lanes.set l { s.lane l with offset := k, unsynced := false } } ∧
        (k = (s.lane l).offset → u.work = s.work) ∧
        (k ≠ (s.lane l).offset → s.part = .setup → u.work = s.work ++ [.windowTest l]) ∧
        (k ≠ (s.lane l).offset → s.part = .tracking → u.work = s.work ++ [Task.windowTest l, Task.recompute] ++
          l.streams.flatMap fun x => [Task.wrongGrade x, Task.commitTest x, Task.fireTest x])) ∧
    (Lane.ofCode? code = none ∨ 2 ^ 40 - 1 < k.natAbs → s.work = [] →
      exec (.laneSync p tag code k) s = .next (s.withFrame p (refusedFrame 0x16 tag 7)))

/-- R32 to R34: a change of a lane's filtered detector level, by the state of its recogniser. -/
def Rule.SeamInput : Prop :=
  ∀ (l : Lane) (b : Bool) (s : State), s.resetAsserted = false →
    let r := (s.lane l).recogniser
    let p := s.laneProfile l
    let put := fun v : Recogniser => s.setLane l { s.lane l with recogniser := v }
    (b = r.level → s.work = [] → exec (.seamInputChange l b) s = .next s) ∧
    (b = true → r.level = false →
      (r.state = .guard → exec (.seamInputChange l b) s = .next (put { r with level := true, i0 := none }).settled) ∧
      (r.state = .armed → exec (.seamInputChange l b) s = .next (put
        { level := true, i0 := none, p0 := some s.mainCount, state := if p.minActive = 0 then .trailing else .active }).settled) ∧
      (r.state = .active → ∀ n, r.p0 = some n → exec (.seamInputChange l b) s = .next (put
        { r with level := true, i0 := none, state := if p.minActive ≤ s.mainCount - n then .trailing else .active }).settled) ∧
      (r.state = .trailing → exec (.seamInputChange l b) s = .next (put { r with level := true, i0 := none }).settled)) ∧
    (b = false → r.level = true →
      (r.state = .guard → exec (.seamInputChange l b) s = .next (put
        { r with level := false, i0 := some s.mainCount, state := if p.preQuiet = 0 then .armed else .guard }).settled) ∧
      (r.state = .armed → exec (.seamInputChange l b) s = .next (put
        { r with level := false, i0 := some s.mainCount }).settled) ∧
      (r.state = .active → exec (.seamInputChange l b) s = .next (put
        { r with level := false, i0 := some s.mainCount }).settled) ∧
      (r.state = .trailing → p.postQuiet ≠ 0 → exec (.seamInputChange l b) s = .next (put
        { r with level := false, i0 := some s.mainCount }).settled) ∧
      (r.state = .trailing → p.postQuiet = 0 → ∀ n, r.p0 = some n → exec (.seamInputChange l b) s = .next ((put
        { level := false, i0 := some s.mainCount, p0 := none, state := if p.preQuiet = 0 then .armed else .guard }).push
          [.matchSeam l ((n : Int) + p.dDet)]).settled))

/-- R32 to R34: the recogniser's test at a counter update of the main channel, by its state. -/
def Rule.RecogniserTest : Prop :=
  ∀ (l : Lane) (s : State),
    let r := (s.lane l).recogniser
    let p := s.laneProfile l
    let put := fun v : Recogniser => s.setLane l { s.lane l with recogniser := v }
    let quiet := fun i : Nat => s.mainCount - i
    (r.state = .guard → r.level = true ∨ r.i0 = none → s.recogniserTest l = s) ∧
    (∀ i, r.state = .guard → r.level = false → r.i0 = some i →
      s.recogniserTest l = if p.preQuiet ≤ quiet i then put { r with state := .armed } else s) ∧
    (r.state = .armed → s.recogniserTest l = s) ∧
    (∀ n, r.state = .active → r.level = true → r.p0 = some n →
      s.recogniserTest l = if p.minActive ≤ s.mainCount - n then put { r with state := .trailing } else s) ∧
    (∀ i, r.state = .active → r.level = false → r.i0 = some i →
      s.recogniserTest l =
        if p.maxGap < quiet i then put { r with p0 := none, state := if p.preQuiet ≤ quiet i then .armed else .guard } else s) ∧
    (r.state = .trailing → r.level = true → s.recogniserTest l = s) ∧
    (∀ i n, r.state = .trailing → r.level = false → r.i0 = some i → r.p0 = some n →
      s.recogniserTest l =
        if p.postQuiet ≤ quiet i then
          (put { r with p0 := none, state := if p.preQuiet ≤ quiet i then .armed else .guard }).push
            [.matchSeam l ((n : Int) + p.dDet)]
        else s)

/-- R31: the marks of a lane that are late move to the main track as UNCONFIRMED seams. -/
def Rule.WindowTest : Prop :=
  ∀ (l : Lane) (s : State),
    let marks := (s.lane l).marks
    let late := fun m : LaneMark => s.predicted m - (s.laneProfile l).dDet + (s.laneProfile l).wConfirm < s.knife
    let place := fun m : LaneMark => s.seamExtent (s.predicted m) m.stream m.fast m.unsynced
    let t := s.windowTest l
    ((∀ m ∈ marks, ¬ late m) → t = s) ∧
    ((∃ m ∈ marks, late m) →
      t.lane l = { s.lane l with marks := marks.filter fun m => !decide (late m) } ∧ (∀ k, k ≠ l → t.lane k = s.lane k) ∧
      (∀ m ∈ marks, late m → t.covers .seam (place m).1 (place m).2) ∧
      ((s.port .wet).classes.length = 13 → (t.port .wet).rawOf 7 = true) ∧
      (s.part = .tracking → Task.recompute ∈ t.work) ∧
      { t with map := s.map, ports := s.ports, work := s.work } = s) ∧
    (∀ m, marks = [m] → late m → s.map.track = [] → (place m).1 < (place m).2 → t.map.track =
      [{ start := (place m).1, finish := some (place m).2, held := none, causes := [.seam], claims := []
         seam := some ⟨m.stream, m.arm, .unconfirmed, m.fast, m.unsynced⟩ }])

/-- R35, R36: a recognised seam, unexpected or confirmed. -/
def Rule.SeamMatch : Prop :=
  ∀ (l : Lane) (q : Pos) (s : State),
    let marks := (s.lane l).marks
    let liner := s.streamProfile (match l with
      | .one => .s1
      | .two => .s3)
    let away := fun m : LaneMark => (s.predicted m - q).natAbs
    let t := s.matchSeam l q
    ((∀ m ∈ marks, (s.laneProfile l).wConfirm < away m) →
      t.map.lanes = s.map.lanes ∧ t.covers .unexpectedSeam (q - liner.seamLead) (q + liner.seamTrail) ∧
      ((s.port .wet).classes.length = 13 → (t.port .wet).rawOf 6 = true) ∧
      { t with map := s.map, ports := s.ports, work := s.work } = s) ∧
    (∀ m ∈ marks, away m ≤ (s.laneProfile l).wConfirm →
      (∀ n ∈ marks, away n ≤ (s.laneProfile l).wConfirm → n = m ∨ away m < away n ∨ (away m = away n ∧ m.age < n.age)) →
      let most : Int := (s.laneProfile l).maxCorrection
      let e := max (-most) (min most (q - s.predicted m))
      let k := max (-(2 ^ 40 - 1)) (min (2 ^ 40 - 1) ((s.lane l).offset + e))
      let place := s.seamExtent q m.stream m.fast m.unsynced
      t.lane l = { s.lane l with marks := marks.filter fun n => n.age != m.age, offset := k, unsynced := false } ∧
      (∀ k, k ≠ l → t.lane k = s.lane k) ∧ t.covers .seam place.1 place.2 ∧
      (s.map.track = [] → place.1 < place.2 → t.map.track =
        [{ start := place.1, finish := some place.2, held := none, causes := [.seam], claims := []
           seam := some ⟨m.stream, m.arm, .confirmed, m.fast, m.unsynced⟩ }]) ∧
      (s.work = [] →
        (s.part = .setup → t.work = [Task.windowTest l]) ∧
        (s.part = .tracking → lastRecompute t.work = [Task.windowTest l, Task.recompute] ++
          if k = (s.lane l).offset then []
          else l.streams.flatMap fun x => [Task.wrongGrade x, Task.commitTest x, Task.fireTest x])) ∧
      { t with map := s.map, ports := s.ports, work := s.work } = s)

/-- R32 to R34: what a change of a lane's filtered detector level makes of its recogniser, by its state: L is recorded as i0
when the input becomes inactive and as p0 when tape is first seen, and the test of the state is made at once; a level that
is already held changes nothing (log 41). Then what the recogniser's test makes of it at a counter update, a seam recognised
at p0 being matched at p0 + D_det (R34); what the window test does with the marks that are late (R31); and what a recognised
seam does: unexpected where no mark lies within W_confirm (R36), and otherwise the nearest mark confirmed, of equally near
ones the older, with the offset corrected by no more than max_correction, and then the window test and the recomputation,
whether or not the offset changes, and the tests of R109 where it does (R35, R27). The order of these acts is the model's (log
8). -/
def Obligations.SeamInputMovesTheRecogniser : Prop :=
  Rule.SeamInput ∧ Rule.RecogniserTest ∧ Rule.WindowTest ∧ Rule.SeamMatch

/-! ### Reel stands and splicing (05) -/

/-- R99: a poll makes a read pending for every active stream; an assertion of the debounced interrupt starts the scan at the
first active stream, and a deassertion ends it. That the command sets the poll's count of ticks to 0 is the model's choice
(log 2), and that a level already held changes nothing is its reading (log 41). -/
def Obligations.PollAndInterruptMakeReadsPending : Prop :=
  ∀ s : State, s.resetAsserted = false → s.work = [] →
    (∃ t, exec .standPoll s = .next t ∧ t.splice.link = { s.splice.link with poll := 0 } ∧
      (∀ x, t.stream x =
        { s.stream x with readPending := (s.stream x).readPending || (s.streamProfile x).active }) ∧
      { t with splice := s.splice } = s) ∧
    exec (.standInterruptChange s.splice.link.interrupt) s = .next s ∧
    (∀ b, b ≠ s.splice.link.interrupt →
      let first := if b = true then s.profile.activeStreams.head? else none
      ∃ t, exec (.standInterruptChange b) s = .next t ∧
        t.splice.link = { s.splice.link with interrupt := b, samples := 0, scan := first } ∧
        (∀ x, t.stream x = { s.stream x with readPending := (s.stream x).readPending || first == some x }) ∧
        { t with splice := s.splice } = s)

/-- R99: a free link starts the pending write of the lowest active stream without LINK_FAULT, with the drive enables and
ready lamps as they stand; with none to start, the pending read of the lowest active stream; a busy link starts nothing. That
a write's pending mark is cleared, and the values it carries are fixed, at the start of the transaction, and that a read's mark
stays until its end, is the model's reading (log 20), as is that a command with nothing to start changes nothing (log 41). -/
def Obligations.FreeLinkStartsTheNextTransaction : Prop :=
  ∀ s : State, s.resetAsserted = false → s.work = [] →
    let writes := fun x => (s.streamProfile x).active = true ∧ (s.stream x).writePending = true ∧ (s.stream x).linkFault = false
    let reads := fun x => (s.streamProfile x).active = true ∧ (s.stream x).readPending = true
    (s.splice.link.busy ≠ none → exec .standTransactionStart s = .next s) ∧
    ((∀ x, ¬ writes x ∧ ¬ reads x) → exec .standTransactionStart s = .next s) ∧
    (∀ x, s.splice.link.busy = none → writes x → (∀ y, writes y → x.number ≤ y.number) →
      ∃ t, exec .standTransactionStart s = .next t ∧
        t.splice.link = { s.splice.link with
          busy := some ⟨x, true, 0, ⟨(s.arm x .a).driveEnable, (s.arm x .b).driveEnable,
            (s.arm x .a).state == .ready, (s.arm x .b).state == .ready⟩⟩ } ∧
        (∀ y, t.stream y = { s.stream y with writePending := (s.stream y).writePending && x != y }) ∧
        { t with splice := s.splice } = s) ∧
    (∀ x, s.splice.link.busy = none → (∀ y, ¬ writes y) → reads x → (∀ y, reads y → x.number ≤ y.number) →
      exec .standTransactionStart s = .next { s with
        splice := { s.splice with link := { s.splice.link with busy := some ⟨x, false, 0, {}⟩ } } })

/-- R99, R101: a successful write frees the link, delivers what it carried and clears LINK_FAULT, a cleared fault making the
deferred-commit test. A failed attempt is counted; the fourth abandons the transaction, sets LINK_FAULT with STAND_FAULT
where it was clear, discards the candidate levels and holds the debounced ones, leaves an abandoned write pending and clears
the pending read of an abandoned read, whenever it was made pending. That an abandoned read moves a scan at its stream on is
the model's choice (log 53), and that an abandoned write is made pending again, its mark having been cleared at its start, its
reading (log 20). -/
def Obligations.TransactionsEndInSuccessOrFault : Prop :=
  ∀ (s : State) (x : Stream) (write : Bool) (failed : Nat) (o : StandOutputs), s.resetAsserted = false →
    s.splice.link.busy = some ⟨x, write, failed, o⟩ →
    (write = true → ∃ u : State, exec .standWrite s = .next u.settled ∧
      u.splice.link = { s.splice.link with busy := none } ∧
      u.stream x = { s.stream x with written := o, linkFault := false } ∧ (∀ y, y ≠ x → u.stream y = s.stream y) ∧
      u.work = s.work ++ (if (s.stream x).linkFault = true then [.deferred x] else []) ∧
      { u with splice := s.splice, work := s.work } = s) ∧
    (failed < 3 → s.work = [] → exec .standAttemptFailed s = .next { s with
      splice := { s.splice with link := { s.splice.link with busy := some ⟨x, write, failed + 1, o⟩ } } }) ∧
    (3 ≤ failed → s.work = [] → ∃ t, exec .standAttemptFailed s = .next t ∧
      (let scanned := write = false ∧ s.splice.link.interrupt = true ∧ s.splice.link.scan = some x;
        t.splice.link = { s.splice.link with
          busy := none, scan := if scanned then s.profile.nextActive x else s.splice.link.scan } ∧
        (∀ y, (t.stream y).readPending = true ↔
          ((s.stream y).readPending = true ∧ (write = true ∨ y ≠ x)) ∨ (scanned ∧ s.profile.nextActive x = some y))) ∧
      (t.stream x).linkFault = true ∧
      (t.stream x).writePending = ((s.stream x).writePending || write) ∧
      (∀ arm, t.arm x arm =
        { s.arm x arm with
          present := ⟨(s.arm x arm).present.level, none⟩, latched := ⟨(s.arm x arm).latched.level, none⟩
          button := ⟨(s.arm x arm).button.level, none⟩, driveGood := ⟨(s.arm x arm).driveGood.level, none⟩ }) ∧
      (t.stream x).splicerReady = ⟨(s.stream x).splicerReady.level, none⟩ ∧ (t.stream x).slot = (s.stream x).slot ∧
      ((s.stream x).linkFault = false → (s.port .wet).classes.length = 13 → (t.port .wet).rawOf 5 = true) ∧
      ((s.stream x).linkFault = true → t.ports = s.ports) ∧
      { t with splice := s.splice, ports := s.ports } = s)

/-- R99, R100: a successful read frees the link and clears the stream's pending read, whatever made it pending, moves a scan
at that stream on to the next active stream, whose read becomes pending, clears LINK_FAULT and debounces every input of the
stand, the first successful read since reset taking the levels at once; no other stream's stand is changed. -/
def Obligations.StandReadDebouncesTheInputs : Prop :=
  ∀ (v : StandLevels) (s : State) (x : Stream) (failed : Nat) (o : StandOutputs), s.resetAsserted = false →
    s.splice.link.busy = some ⟨x, false, failed, o⟩ → ∃ t, exec (.standRead v) s = .next t ∧
      t.splice.link = { s.splice.link with
        busy := none
        scan := if s.splice.link.interrupt = true ∧ s.splice.link.scan = some x then s.profile.nextActive x
          else s.splice.link.scan } ∧
      (∀ y, (t.stream y).readPending = true ↔ ((s.stream y).readPending = true ∧ y ≠ x) ∨
        (s.splice.link.interrupt = true ∧ s.splice.link.scan = some x ∧ s.profile.nextActive x = some y)) ∧
      (t.stream x).linkFault = false ∧ (t.stream x).seen = true ∧
      ArmDebounces (s.arm x .a) (t.arm x .a) v.armA s.lmu.ticks (!(s.stream x).seen) ∧
      ArmDebounces (s.arm x .b) (t.arm x .b) v.armB s.lmu.ticks (!(s.stream x).seen) ∧
      Debounces (s.stream x).splicerReady (t.stream x).splicerReady v.splicerReady s.lmu.ticks (!(s.stream x).seen) ∧
      (∀ y arm, y ≠ x → (t.arm y arm).stand = (s.arm y arm).stand) ∧ t.lmu = s.lmu ∧ t.profile = s.profile

/-- R103, R104, R122: what the debounced levels that a read leaves do to the read stream's arm: an EMPTY arm with a
declaration becomes LOADED; a press with splicer-ready set makes a LOADED arm READY, and without it leaves it LOADED; a reel
that leaves a LOADED or READY arm, present or latched having cleared, makes it EMPTY without a declaration, and one that
leaves the READY arm of a FIRED splice breaks the web; a STOPPING arm becomes EMPTY when present clears, and stays STOPPING
while only latched clears; one that leaves the RUNNING arm breaks the web. That a press is judged by splicer-ready as the same
read leaves it, all the levels of one read being taken before any of its events, is the model's choice (log 19), and so is
that the READY arm chosen by a FAULT slot is as one not chosen (log 67). -/
def Obligations.StandReadMovesTheArm : Prop :=
  ∀ (v : StandLevels) (s : State) (x : Stream) (failed : Nat) (o : StandOutputs) (arm : Arm), s.resetAsserted = false →
    s.splice.link.busy = some ⟨x, false, failed, o⟩ → ∃ t, exec (.standRead v) s = .next t ∧
      let r := s.arm x arm
      let r' := t.arm x arm
      let pressed := r.button.level = false ∧ r'.button.level = true
      let readied := pressed ∧ (t.stream x).splicerReady.level = true
      let gone := r.present.level = true ∧ r'.present.level = false
      let leaves := gone ∨ (r.latched.level = true ∧ r'.latched.level = false)
      (r.state = .empty → r.declaration ≠ none → r.present.level = false ∨ r.latched.level = false →
        r'.present.level = true → r'.latched.level = true → ¬ readied → r'.state = .loaded) ∧
      (r.state = .loaded → r'.present.level = true → r'.latched.level = true →
        (readied → r'.state = .ready) ∧ (¬ readied → r'.state = .loaded) ∧ r'.declaration = r.declaration) ∧
      (r.state = .ready → ¬ leaves → r'.state = .ready ∧ r'.declaration = r.declaration) ∧
      (r.state = .loaded ∨ r.state = .ready → leaves → r'.state = .empty ∧ r'.declaration = none) ∧
      (r.state = .ready → leaves → (∃ w, (s.stream x).slot = some w ∧ w.state = .fired ∧ w.chosen = some arm) →
        (t.stream x).broken = true ∧ (t.stream x).running = none) ∧
      (r.state = .stopping →
        (gone → r'.state = .empty ∧ r'.declaration = none ∧ r'.startCount = none) ∧
        (¬ gone → r'.state = .stopping ∧ r'.declaration = r.declaration ∧ r'.startCount = r.startCount)) ∧
      (r.state = .running → (s.stream x).broken = false → leaves →
        (t.stream x).broken = true ∧ (t.stream x).running = none ∧
        r'.state = (if r'.present.level = true then .stopping else .empty))

/-- R98, R106, R113: an arm's delay reached, and the end of a fire pulse. -/
def Rule.DriveGoodDelay : Prop :=
  ∀ (x : Stream) (arm : Arm) (s : State), s.resetAsserted = false → s.work = [] →
    ((s.streamProfile x).driveMode = .input ∨ (s.arm x arm).driveEnable = false →
      exec (.driveGoodDelay x arm) s = .next s) ∧
    (∀ d, (s.streamProfile x).driveMode.delay? = some d → (s.arm x arm).driveEnable = true →
      let r := { s.arm x arm with delay := max (s.arm x arm).delay d }
      let u := s.setStream x { s.stream x with arms := (s.stream x).arms.set arm r }
      u.driveGood x arm = true ∧
      ((s.stream x).slot = none → exec (.driveGoodDelay x arm) s = .next u) ∧
      (∀ v, (s.stream x).slot = some v → v.state ≠ .committed → exec (.driveGoodDelay x arm) s = .next u) ∧
      (∀ v, (s.stream x).slot = some v → v.state = .committed → s.streamPos x < v.firePoint →
        exec (.driveGoodDelay x arm) s = .next u) ∧
      (∀ v, (s.stream x).slot = some v → v.state = .committed → v.chosen = some arm → v.firePoint ≤ s.streamPos x →
        v.wrongGrade = false → v.advanced = false →
        exec (.driveGoodDelay x arm) s = .next (s.setStream x { s.stream x with
          arms := (s.stream x).arms.set arm r, fire := true, fireLeft := 50
          slot := some { v with
            state := .fired, fireCount := s.streamCount x
            fast := decide ((s.streamProfile x).spliceMaxSpeed < s.streamSpeed x), unsynced := s.laneUnsynced x } }))) ∧
    exec (.firePulseEnd x) s = .next (s.setStream x { s.stream x with fire := false, fireLeft := 0 })

/-- R98: an arm's drive is good: by its debounced input in INPUT mode, and in DELAY mode by the time for which its enable has been
set. -/
def Rule.DriveGood : Prop :=
  ∀ (x : Stream) (arm : Arm) (s : State),
    let r := s.arm x arm
    let after := fun ticks => s.driveGood x arm = true ↔ r.driveEnable = true ∧ ticks ≤ r.delay
    ((s.streamProfile x).driveMode = .input → s.driveGood x arm = r.driveGood.level) ∧
    ((s.streamProfile x).driveMode = .delay100 → after 100) ∧ ((s.streamProfile x).driveMode = .delay200 → after 200) ∧
    ((s.streamProfile x).driveMode = .delay400 → after 400) ∧ ((s.streamProfile x).driveMode = .delay800 → after 800)

/-- R113, R114, R119: the fire test of a stream. -/
def Rule.FireTest : Prop :=
  ∀ (x : Stream) (s : State),
    let t := s.fireTest x
    ((s.stream x).slot = none → t = s) ∧
    (∀ v, (s.stream x).slot = some v → v.state ≠ .committed ∨ s.streamPos x < v.firePoint ∨
      (∀ arm, v.chosen = some arm → s.driveGood x arm = false) → t = s) ∧
    (∀ v arm, (s.stream x).slot = some v → v.state = .committed → v.chosen = some arm → v.firePoint ≤ s.streamPos x →
      s.driveGood x arm = true →
      let fast := decide ((s.streamProfile x).spliceMaxSpeed < s.streamSpeed x)
      let seam := s.streamPos x + s.seamOffset x
      t.stream x = { s.stream x with
        fire := true, fireLeft := 50
        slot := some { v with state := .fired, fireCount := s.streamCount x, fast := fast, unsynced := s.laneUnsynced x } } ∧
      (∀ y, y ≠ x → t.stream y = s.stream y) ∧ t.map.lanes = s.map.lanes ∧
      (v.wrongGrade = true → ∀ y ∈ t.map.track, Claim.wrongGrade x ∉ y.claims) ∧
      (v.wrongGrade = true → v.advanced = false → s.closedAt t (.wrongGrade x) seam) ∧
      (v.advanced = true → t.covers .gradeEarly (s.seamExtent seam x fast (s.laneUnsynced x)).2 v.boundaryPos) ∧
      (v.wrongGrade = false → v.advanced = false → t.map = s.map ∧ t.ports = s.ports ∧ t.work = s.work) ∧
      { t with splice := s.splice, map := s.map, ports := s.ports, work := s.work } = s)

/-- R114: the wrong-grade test of a slot. -/
def Rule.WrongGradeTest : Prop :=
  ∀ (x : Stream) (s : State) (v : Slot), (s.stream x).slot = some v →
    let t := s.wrongGradeTest x
    let passed := v.kind = .grade ∧ (v.state = .planned ∨ v.state = .committed) ∧ v.wrongGrade = false ∧
      v.boundaryPos < s.streamPos x + s.seamOffset x
    (¬ passed → t = s) ∧
    (passed → t.stream x = { s.stream x with slot := some { v with wrongGrade := true } } ∧
      (∀ y, y ≠ x → t.stream y = s.stream y) ∧ t.opensClaim .wrongGrade (.wrongGrade x) v.boundaryPos ∧
      { t with splice := s.splice, map := s.map, ports := s.ports, work := s.work } = s)

/-- R116: the done-window test of a slot. -/
def Rule.DoneWindowTest : Prop :=
  ∀ (x : Stream) (s : State) (v : Slot), (s.stream x).slot = some v →
    let t := s.doneWindowTest x
    let last := (s.streamProfile x).doneWindow
    (v.state ≠ .fired ∨ s.streamCount x ≤ v.fireCount + last → t = s) ∧
    (∀ arm, v.state = .fired → v.fireCount + last < s.streamCount x → v.chosen = some arm →
      let seam := (v.fireCount : Int) + s.seamOffset x
      (t.stream x).slot = some { v with state := .fault } ∧ (t.arm x arm).driveEnable = false ∧
      (t.stream x).stand = (s.stream x).stand ∧ (∀ y, y ≠ x → t.stream y = s.stream y) ∧
      t.covers .seam (s.seamExtent seam x v.fast v.unsynced).1 (s.seamExtent (seam + last) x v.fast v.unsynced).2 ∧
      (∀ id w, v.kind = .grade → v.departed = false → v.boundary = some id → t.windowOrder? id = some w →
        w.targetSpent.get x = true) ∧
      ((s.port .wet).classes.length = 13 → (t.port .wet).rawOf 2 = true))

/-- R98, R106, R113: when an enabled drive's delay has passed its drive is good, and a COMMITTED splice whose fire point has
been reached fires: FIRE high for 50 ticks, the slot FIRED at the stream counter. The arm has nothing to reach in INPUT mode
or with its enable clear. At the end of the pulse FIRE is low. The delay brought up to the mode's value, and the count of
FIRE's ticks cleared, by the commands are the model's (log 2). Then when a drive is good, in each mode (R98); the fire test
itself, with the forms that were WRONG_GRADE (the claim is closed at the seam, R113, R114) and ADVANCED (the web from the
seam's end to B is GRADE_EARLY, R119); the wrong-grade test (R114); and the done-window test (R116). B, kept with the slot, is
the model's (log 29). -/
def Obligations.GoodDriveFiresTheSplice : Prop :=
  Rule.DriveGoodDelay ∧ Rule.DriveGood ∧ Rule.FireTest ∧ Rule.WrongGradeTest ∧ Rule.DoneWindowTest

/-- R83, R107: the figures of a GRADE slot set anew. B follows the start of the order after its boundary while the window holds
that order; the points of a splice that is not re-aimed follow B and K_s (R81). B kept with the slot once the order has left is
the model's (log 29). -/
def Rule.TargetFigures : Prop :=
  ∀ (x : Stream) (s : State),
    let t := s.refreshSlot x
    ((s.stream x).slot = none → t = s) ∧
    (∀ v, (s.stream x).slot = some v →
      (v.kind ≠ .grade ∨ v.state = .fault → t = s) ∧
      (∀ b : Pos, v.kind = .grade → v.state ≠ .fault →
        (∃ id r, v.boundary = some id ∧ v.departed = false ∧ (s.windowOrder? id).isSome = true ∧ s.order? id = some r ∧
          r.p = some b) ∨
        (b = v.boundaryPos ∧ (v.departed = true ∨ v.boundary = none ∨ ∃ id, v.boundary = some id ∧ s.windowOrder? id = none)) →
        let fire := b - s.profile.line.g - s.seamOffset x
        t = s.setSlot x (some (if v.reaimed = true then { v with boundaryPos := b }
          else { v with boundaryPos := b, firePoint := fire, commitPoint := fire - (s.streamProfile x).commitLead }))))

/-- R84: the target in a PLANNED slot is withdrawn when its stream's grades no longer differ at its boundary, and the slot is
FREE; a boundary that the window still lists with other grades, and a slot in any other state, keep it. -/
def Rule.TargetWithdrawal : Prop :=
  ∀ (x : Stream) (s : State),
    let t := s.withdrawTarget x
    ((s.stream x).slot = none → t = s) ∧
    (∀ v, (s.stream x).slot = some v →
      (v.state ≠ .planned ∨ v.kind ≠ .grade ∨ v.departed = true → t = s) ∧
      ((∀ l prev, (l, prev) ∈ s.boundaries → v.boundary ≠ some l.w.id) → t = s) ∧
      (∀ l prev, s.idsDistinct → (l, prev) ∈ s.boundaries → v.boundary = some l.w.id → v.state = .planned → v.kind = .grade →
        v.departed = false →
        let differs := (s.streamProfile x).active = true ∧ prev.grades.get x ≠ l.r.fig.grades.get x
        (differs → t = s) ∧
        (¬ differs → t = (s.setSlot x none).push [.slotFree x])))

/-- R82, R108, R126: the waiting targets of a stream offered to it, in TRACKING, while its slot is FREE and its web INTACT: in
window order, those whose grade already runs are served, and the first other one is handed in with its figures (R81). The
boundary an order keeps behind one that has left is offered too (log 13). -/
def Rule.TargetOffer : Prop :=
  ∀ (x : Stream) (s : State),
    let t := s.offerTargets x
    let grade := fun (l : Line) => l.r.fig.grades.get x
    let waits := fun (b : Line × PrevFigures) => (s.streamProfile x).active = true ∧ b.2.grades.get x ≠ grade b.1 ∧
      b.1.w.targetSpent.get x = false
    let serves := fun (bs : List (Line × PrevFigures)) => ∀ id w, s.windowOrder? id = some w → ∃ w', t.windowOrder? id = some w' ∧
      ((∃ b ∈ bs, waits b ∧ b.1.w.id = id) → w' = { w with targetSpent := w.targetSpent.set x true }) ∧
      ((∀ b ∈ bs, waits b → b.1.w.id ≠ id) → w' = w)
    (s.part = .setup ∨ (s.stream x).slot ≠ none ∨ (s.stream x).broken = true → t = s) ∧
    (s.part = .tracking → (s.stream x).slot = none → (s.stream x).broken = false →
      { t with plan := s.plan, splice := s.splice } = s ∧
      ((∀ b ∈ s.boundaries, waits b → grade b.1 = (s.stream x).runningGrade) → t.splice = s.splice ∧ serves s.boundaries) ∧
      (∀ before b after, s.boundaries = before ++ b :: after → waits b → grade b.1 ≠ (s.stream x).runningGrade →
        (∀ c ∈ before, waits c → grade c.1 = (s.stream x).runningGrade) →
        let fire := b.1.start - s.profile.line.g - s.seamOffset x
        serves before ∧
        t.splice = (s.setSlot x (some
          { state := .planned, kind := .grade, boundary := some b.1.w.id, boundaryPos := b.1.start, grade := grade b.1
            firePoint := fire, commitPoint := fire - (s.streamProfile x).commitLead })).splice))

/-- R108: a slot that becomes FREE. The waiting targets are offered at once, then the commit point of one handed in is looked at
(R82, R83), and then the run-out test is made. -/
def Rule.SlotBecomesFree : Prop :=
  ∀ (x : Stream) (s : State),
    let t := s.slotFreeAct x
    t.work = s.work ++ [.commitTest x, .runout x] ∧ { t with work := s.work } = s.offerTargets x

/-- R115: an accepted done pulse of a FIRED splice. `u` is the state before the acts of R108: the slot is FREE, the chosen
arm's drive stays enabled and the old arm's is cleared, and the seam has reached its lane's track, or, for S5, the main
track. Due are then the window test of the mark's lane (R31), a recomputation, made once (R26, log 8), for the mark, for S5's
extent, and for the mark that a full track let go (R29), and the acts of R108, R111 and R118, the deferred-commit test before the
run-out test (log 64). -/
def Rule.DonePulse : Prop :=
  ∀ (x : Stream) (arm : Arm) (v : Slot) (s : State), s.resetAsserted = false → (s.stream x).slot = some v →
    v.state = .fired → v.chosen = some arm → ∃ u t : State, exec (.donePulse x) s = .next t ∧ t = u.settled ∧
      (t.stream x).running = some arm ∧
      (t.stream x).runningGrade = ((s.arm x arm).declaration.map Declaration.grade).getD 0 ∧
      (t.arm x arm).state = .running ∧ (t.arm x arm).startCount = some v.fireCount ∧
      (t.arm x arm).declaration = (s.arm x arm).declaration ∧
      (∀ o, (s.stream x).running = some o → o ≠ arm →
        (t.arm x o).state = .stopping ∧ (u.arm x o).driveEnable = false ∧ (t.arm x o).declaration = (s.arm x o).declaration) ∧
      (u.stream x).slot = none ∧ (u.arm x arm).driveEnable = true ∧
      (∀ l, x.lane = some l → ∃ m ∈ (u.lane l).marks,
        m.stream = x ∧ m.arm = arm ∧ m.count = v.fireCount ∧ m.fast = v.fast ∧ m.unsynced = v.unsynced) ∧
      (x.lane = none → ∀ q, (s.seamExtent ((v.fireCount : Int) + s.seamOffset x) x v.fast false).1 < q →
        q ≤ (s.seamExtent ((v.fireCount : Int) + s.seamOffset x) x v.fast false).2 →
        ∃ y ∈ u.map.track, Cause.seam ∈ y.causes ∧ y.holds q) ∧
      (∃ seam, u.work = s.work ++ seam ++ [.slotFree x, .deferred x, .runout x] ∧
        (∀ l, x.lane = some l → ∃ n, seam = List.replicate n .recompute ++ .windowTest l ::
            (if s.part = .tracking then [.recompute] else []) ∧
          (s.part = .setup ∨ (s.lane l).marks.length < 8 → n = 0)) ∧
        (x.lane = none →
          let r := s.seamExtent ((v.fireCount : Int) + s.seamOffset x) x v.fast false
          seam = if s.part = .tracking ∧ r.1 < r.2 then [.recompute] else [])) ∧
      ((s.port .wet).classes.length = 13 → (t.port .wet).rawOf 1 = true) ∧
      (∀ y side, y ≠ x → (t.arm y side).stand = (s.arm y side).stand) ∧ t.lmu = s.lmu ∧ t.profile = s.profile

/-- R115: a done pulse completes a FIRED splice, and the acts of R108, R111 and R118 follow; what follows when a slot becomes
FREE (R108). Then what the planner's grade targets do in a slot: their figures set anew (R81, R83, R107), withdrawn (R84), and,
while the slot is FREE, offered and handed in (R82, R108, R126). B kept with the slot once the order has left the window
(log 29), the boundary an order keeps behind one that has left (log 13), and the order of the acts that follow (log 8,
log 64), are the model's readings. -/
def Obligations.DonePulseCompletesTheSplice : Prop :=
  Rule.DonePulse ∧ Rule.SlotBecomesFree ∧ Rule.TargetFigures ∧ Rule.TargetWithdrawal ∧ Rule.TargetOffer

/-- R117: a done pulse with no FIRED slot raises SPLICE_FAULT and changes no state of the stream. That the sampling of its
DONE input is left at high is the model's reading (log 44). -/
def Obligations.StrayDonePulseRaisesSpliceFault : Prop :=
  ∀ (x : Stream) (s : State), s.resetAsserted = false → s.work = [] →
    (∀ v, (s.stream x).slot = some v → v.state ≠ .fired) →
    ∃ t, exec (.donePulse x) s = .next t ∧
      t = (s.setStream x { s.stream x with doneSample := .high }).raise .spliceFault ∧
      ((s.port .wet).classes.length = 13 → (t.port .wet).rawOf 2 = true)

/-- R102, R103, R105: Declare Reel and Withdraw Reel, by the arm's state, with their refusals. -/
def Obligations.ReelsAreDeclaredAndWithdrawn : Prop :=
  ∀ (p : Port) (tag : Byte) (sc ac g n : Nat) (s : State), s.work = [] →
    (Heard s p 0x10 →
      (Stream.ofCode? sc = none ∨ Arm.ofCode? ac = none ∨ g = 0 ∨ 255 < g ∨ n = 0 ∨ 200000000 < n →
        exec (.declareReel p tag sc ac g n) s = .next (s.withFrame p (refusedFrame 0x10 tag 7))) ∧
      (∀ x arm, Stream.ofCode? sc = some x → Arm.ofCode? ac = some arm → 1 ≤ g → g ≤ 255 → 1 ≤ n → n ≤ 200000000 →
        let r := s.arm x arm
        (r.state = .running ∨ r.state = .stopping ∨ (r.state = .ready ∧ s.spliceHolds x arm = true) →
          exec (.declareReel p tag sc ac g n) s = .next (s.withFrame p (refusedFrame 0x10 tag 3))) ∧
        (r.state = .empty ∨ r.state = .loaded ∨ (r.state = .ready ∧ s.spliceHolds x arm = false) →
          ∃ t, exec (.declareReel p tag sc ac g n) s = .next t ∧
            t.ports = (s.withFrame p (doneFrame 0x10 tag [])).ports ∧
            t.arm x arm = { r with
              declaration := some ⟨g, n⟩
              state := if r.state = .empty ∧ ¬ (r.present.level = true ∧ r.latched.level = true) then .empty else .loaded } ∧
            t.arm x arm.other = s.arm x arm.other ∧ (t.stream x).slot = (s.stream x).slot ∧
            (∀ y, y ≠ x → t.stream y = s.stream y) ∧ { t with splice := s.splice, ports := s.ports } = s))) ∧
    (Heard s p 0x11 →
      (Stream.ofCode? sc = none ∨ Arm.ofCode? ac = none →
        exec (.withdrawReel p tag sc ac) s = .next (s.withFrame p (refusedFrame 0x11 tag 7))) ∧
      (∀ x arm, Stream.ofCode? sc = some x → Arm.ofCode? ac = some arm →
        let r := s.arm x arm
        (r.state = .running ∨ r.state = .stopping ∨ (r.state = .ready ∧ s.spliceHolds x arm = true) →
          exec (.withdrawReel p tag sc ac) s = .next (s.withFrame p (refusedFrame 0x11 tag 3))) ∧
        (r.state = .empty ∨ r.state = .loaded ∨ (r.state = .ready ∧ s.spliceHolds x arm = false) →
          ∃ t, exec (.withdrawReel p tag sc ac) s = .next t ∧
            t.ports = (s.withFrame p (doneFrame 0x11 tag [])).ports ∧
            (t.arm x arm).state = .empty ∧ (t.arm x arm).declaration = none ∧
            (r.state ≠ .empty → (t.arm x arm).driveEnable = false) ∧
            (t.arm x arm).present = r.present ∧ (t.arm x arm).latched = r.latched ∧
            t.arm x arm.other = s.arm x arm.other ∧ (t.stream x).slot = (s.stream x).slot ∧
            (∀ y, y ≠ x → t.stream y = s.stream y) ∧ { t with splice := s.splice, ports := s.ports } = s)))

/-- R121: Manual Splice, with its refusals. -/
def Rule.ManualSplice : Prop :=
  ∀ (p : Port) (tag : Byte) (sc : Nat) (s : State), Heard s p 0x12 → s.work = [] →
    (Stream.ofCode? sc = none → exec (.manualSplice p tag sc) s = .next (s.withFrame p (refusedFrame 0x12 tag 7))) ∧
    (∀ x, Stream.ofCode? sc = some x →
      let st := s.stream x
      (s.part = .setup → exec (.manualSplice p tag sc) s = .next (s.withFrame p (refusedFrame 0x12 tag 3))) ∧
      (s.part = .tracking → st.slot ≠ none →
        exec (.manualSplice p tag sc) s = .next (s.withFrame p (refusedFrame 0x12 tag 9))) ∧
      (s.part = .tracking → st.slot = none → (∀ r, ¬ s.meets x st.runningGrade r) →
        exec (.manualSplice p tag sc) s = .next (s.withFrame p (refusedFrame 0x12 tag 3))) ∧
      (∀ r, s.part = .tracking → st.slot = none → s.meets x st.runningGrade r →
        ∃ t, exec (.manualSplice p tag sc) s = .next t ∧
          JoinedBy s t p (doneFrame 0x12 tag []) ∧
          (t.stream x).slot = some
            { state := .committed, kind := .manual, grade := st.runningGrade, commitPoint := s.streamPos x
              firePoint := s.streamPos x + (s.streamProfile x).commitLead, chosen := some r.other } ∧
          (t.arm x r.other).driveEnable = true ∧ (∀ y arm, (t.arm y arm).stand = (s.arm y arm).stand) ∧
          (∀ y, y ≠ x → t.stream y = s.stream y) ∧
          ((s.port .wet).classes.length = 13 → (t.port .wet).rawOf 0 = true ∧
            ((s.streamProfile x).spliceMaxSpeed < s.streamSpeed x → (t.port .wet).rawOf 9 = true)) ∧
          { t with splice := s.splice, ports := s.ports } = s))

/-- R110: the commit point of a slot, with the pin of the boundary of a GRADE splice. -/
def Rule.CommitTest : Prop :=
  ∀ (x : Stream) (s : State) (v : Slot), (s.stream x).slot = some v →
    let t := s.commitTest x
    let due := v.state = .planned ∧ v.deferred = false ∧ v.commitPoint ≤ s.streamPos x
    (¬ due → t = s) ∧
    (due → Untouched s t ∧
      (∀ id, s.idsDistinct → v.kind = .grade → v.departed = false → v.boundary = some id → (s.order? id).isSome = true →
        t.pinnedBefore id) ∧
      ((∀ r, ¬ s.meets x v.grade r) → ∃ w, (t.stream x).slot = some w ∧ w.state = .planned ∧ w.deferred = true ∧
        w.kind = v.kind ∧ w.grade = v.grade ∧ w.boundary = v.boundary ∧ w.chosen = v.chosen ∧
        (v.kind = .grade → (s.port .wet).classes.length = 13 → (t.port .wet).rawOf 4 = true)) ∧
      (∀ r, s.meets x v.grade r → ∃ w, (t.stream x).slot = some w ∧ w.state = .committed ∧ w.deferred = false ∧
        w.kind = v.kind ∧ w.grade = v.grade ∧ w.boundary = v.boundary ∧ w.chosen = some r.other ∧
        (t.arm x r.other).driveEnable = true ∧
        ((s.port .wet).classes.length = 13 → (t.port .wet).rawOf 0 = true ∧
          ((s.streamProfile x).spliceMaxSpeed < s.streamSpeed x → (t.port .wet).rawOf 9 = true))))

/-- R111: the deferred-commit test. -/
def Rule.DeferredTest : Prop :=
  ∀ (x : Stream) (s : State) (v : Slot), (s.stream x).slot = some v →
    let t := s.deferredTest x
    (v.state ≠ .planned ∨ v.deferred = false ∨ (∀ r, ¬ s.meets x v.grade r) → t = s) ∧
    (∀ r, v.state = .planned → v.deferred = true → s.meets x v.grade r →
      (t.stream x).slot = some { v with
        state := .committed, chosen := some r.other, deferred := false, reaimed := v.kind == .grade
        commitPoint := s.streamPos x, firePoint := s.streamPos x + (s.streamProfile x).commitLead } ∧
      (t.arm x r.other).driveEnable = true ∧ (t.stream x).stand = (s.stream x).stand ∧
      ((s.port .wet).classes.length = 13 → (t.port .wet).rawOf 0 = true) ∧
      { t with splice := s.splice, ports := s.ports } = s)

/-- R112: the reel of a COMMITTED splice leaves its arm. -/
def Rule.SpliceAbort : Prop :=
  ∀ (x : Stream) (arm : Arm) (gone : Bool) (s : State) (v : Slot), (s.stream x).slot = some v → v.state = .committed →
    v.chosen = some arm → (s.arm x arm).state = .ready →
    let t := s.reelLeaves x arm gone
    (t.arm x arm).state = .empty ∧ (t.arm x arm).declaration = none ∧ (t.arm x arm).driveEnable = false ∧
    t.arm x arm.other = s.arm x arm.other ∧
    (v.kind = .manual → (t.stream x).slot = none ∧ t.work = s.work ++ [.slotFree x]) ∧
    (v.kind ≠ .manual → (t.stream x).slot = some { v with state := .planned, deferred := true, chosen := none } ∧
      t.work = s.work) ∧
    { t with splice := s.splice, work := s.work } = s

/-- R118 to R120: the run-out test. -/
def Rule.RunoutTest : Prop :=
  ∀ (x : Stream) (s : State),
    let t := s.runoutTest x
    ((s.stream x).running = none → t = s) ∧
    (∀ arm d start, (s.stream x).running = some arm → (s.arm x arm).declaration = some d →
      (s.arm x arm).startCount = some start →
      let f := s.streamProfile x
      let fire : Pos := (start : Int) + d.length - f.butt
      let due := s.part = .tracking ∧ (s.stream x).broken = false ∧
        (d.length : Int) - (s.streamCount x - start : Nat) ≤ f.runoutReserve
      let own : Slot :=
        { state := .planned, kind := .runout, grade := (s.stream x).runningGrade, firePoint := fire
          commitPoint := fire - f.commitLead }
      (¬ due → t = s) ∧
      (due → (s.stream x).slot = none → t = (s.setSlot x (some own)).push [.commitTest x]) ∧
      (∀ v, due → (s.stream x).slot = some v →
        let later := v.kind = .grade ∧ (v.state = .planned ∨ v.state = .committed) ∧ v.advanced = false ∧ fire < v.firePoint
        let o := s.arm x arm.other
        let holds := (o.state = .loaded ∨ o.state = .ready) ∧ o.declaration.map Declaration.grade = some v.grade
        (¬ later → t = s) ∧
        (later → holds → t = ((s.setSlot x (some { v with
          firePoint := fire, commitPoint := if v.state = .planned then fire - f.commitLead else v.commitPoint
          reaimed := true, advanced := true })).raise .runoutConflict).push [.commitTest x]) ∧
        (later → ¬ holds → t = ((s.setSlot x (some own)).raise .runoutConflict).push [.commitTest x])))

/-- R121: Manual Splice, with its refusals: RANGE, STATE in SETUP, CLASH with a slot that is not FREE, STATE where the commit
requirement is not met. Then the commit of a PLANNED slot at its commit point, with the pin it makes, or its deferral (R110);
the deferred-commit test (R111); the abort when the reel of a COMMITTED splice leaves its arm (R112); and the run-out test,
with a slot that is FREE (R118) and one that holds a later GRADE splice (R119, R120). That a deferred commit sets REAIMED for a
GRADE splice alone, and that a STOPPING arm falls under R120, are the model's readings (log 18, log 17), as is that a slot
whose order has left the window pins nothing at its commit (log 29). -/
def Obligations.ManualSpliceCommitsAtOnce : Prop :=
  Rule.ManualSplice ∧ Rule.CommitTest ∧ Rule.DeferredTest ∧ Rule.SpliceAbort ∧ Rule.RunoutTest

/-- R122, R39: Web Break, with its refusals. `u` is the state before the acts of R108: the slot is FREE, both drive enables
are clear, the stream's lane is UNSYNCED, and the BREAK extent is open from the stream counter plus K_s. The web of a FIRED
splice is marked first, as if its done window had passed (R116 step 3), and the claim WRONG_GRADE of a GRADE slot that has not
fired is closed there. Due are then, in TRACKING, a recomputation for these changes of the map (R26), made once (log 8), and the
acts of a slot that becomes FREE (R108, `Rule.SlotBecomesFree`). -/
def Obligations.WebBreakStopsTheStream : Prop :=
  ∀ (p : Port) (tag : Byte) (sc : Nat) (s : State), Heard s p 0x13 →
    (Stream.ofCode? sc = none → s.work = [] →
      exec (.webBreak p tag sc) s = .next (s.withFrame p (refusedFrame 0x13 tag 7))) ∧
    (∀ x, Stream.ofCode? sc = some x → (s.stream x).broken = true → s.work = [] →
      exec (.webBreak p tag sc) s = .next (s.withFrame p (refusedFrame 0x13 tag 3))) ∧
    (∀ x, Stream.ofCode? sc = some x → (s.stream x).broken = false →
      ∃ u t : State, exec (.webBreak p tag sc) s = .next t ∧ t = u.settled ∧ JoinedBy s t p (doneFrame 0x13 tag []) ∧
        (t.stream x).broken = true ∧ (t.stream x).running = none ∧
        (t.stream x).runningGrade = (s.stream x).runningGrade ∧
        (∀ arm, (t.arm x arm).state =
          (if (s.arm x arm).state = .running then
            (if (s.arm x arm).present.level = true then .stopping else .empty) else (s.arm x arm).state)) ∧
        (∀ arm, (u.arm x arm).driveEnable = false) ∧ (u.stream x).slot = none ∧
        (∀ l, x.lane = some l → (u.lane l).unsynced = true ∧ (u.lane l).offset = (s.lane l).offset ∧
          (u.lane l).marks = (s.lane l).marks) ∧
        (∃ y ∈ u.map.track, y.finish = none ∧ Cause.webBreak ∈ y.causes ∧ Claim.webBreak x ∈ y.claims ∧
          y.start ≤ max (s.streamPos x + s.seamOffset x) 0) ∧
        (∃ n, u.work = s.work ++ List.replicate n .recompute ++ [.slotFree x] ∧ (0 < n ↔ s.part = .tracking)) ∧
        (let torn := s.streamPos x + s.seamOffset x;
          (∀ v, (s.stream x).slot = some v → v.state = .fired →
            let seam := (v.fireCount : Int) + s.seamOffset x
            let first := (s.seamExtent seam x v.fast v.unsynced).1
            let last := (s.seamExtent (seam + (s.streamProfile x).doneWindow) x v.fast v.unsynced).2
            u.covers .seam first last ∧
            (∀ arm, v.chosen = some arm → s.map.track = [] → first < last → last < torn → u.map.track =
              [{ start := first, finish := some last, held := none, causes := [.seam], claims := []
                 seam := some ⟨x, arm, .unconfirmed, v.fast, v.unsynced⟩ },
               { start := torn, finish := none, held := some torn, causes := [.webBreak], claims := [.webBreak x], seam := none }])) ∧
          (∀ v, (s.stream x).slot = some v → v.kind = .grade → v.state = .planned ∨ v.state = .committed → v.wrongGrade = true →
            (∀ y ∈ u.map.track, Claim.wrongGrade x ∉ y.claims) ∧
            ∀ y ∈ s.map.track, ∀ h c, y.claims = [.wrongGrade x] → y.held = some h → s.knife < max h torn → c ∈ y.causes →
              u.covers c y.start (max h torn))) ∧
        (∀ y arm, y ≠ x → (t.arm y arm).stand = (s.arm y arm).stand) ∧ t.lmu = s.lmu ∧ t.profile = s.profile)

/-- R123, R40: Web Restored, with its refusals. `u` is the state before the acts of R108: the arm runs from the stream counter,
and the BREAK claim is closed where the rethread length, of the stream's lane, ends behind the splicer's web (R40). Due are then,
in TRACKING and where an extent holds the claim, a recomputation for its closure (R26), made once (log 8), and the acts of a slot
that is FREE (R108, `Rule.SlotBecomesFree`), the deferred-commit test (R111) and the run-out test (R118) of an arm that becomes
RUNNING, in the model's order (log 64). -/
def Obligations.WebRestoredRunsTheArm : Prop :=
  ∀ (p : Port) (tag : Byte) (sc ac n : Nat) (s : State), Heard s p 0x14 →
    (Stream.ofCode? sc = none ∨ Arm.ofCode? ac = none ∨ 200000000 < n → s.work = [] →
      exec (.webRestored p tag sc ac n) s = .next (s.withFrame p (refusedFrame 0x14 tag 7))) ∧
    (∀ x arm, Stream.ofCode? sc = some x → Arm.ofCode? ac = some arm → n ≤ 200000000 →
      let r := s.arm x arm
      let mayRun := (r.state = .loaded ∨ r.state = .ready ∨ r.state = .stopping) ∧ r.declaration ≠ none ∧
        r.present.level = true ∧ r.latched.level = true
      let rethread : Nat := match x.lane with
        | some l => (s.laneProfile l).rethreadLength
        | none => 0
      ((s.stream x).broken = false ∨ ¬ mayRun → s.work = [] →
        exec (.webRestored p tag sc ac n) s = .next (s.withFrame p (refusedFrame 0x14 tag 3))) ∧
      (∀ d, (s.stream x).broken = true → mayRun → r.declaration = some d →
        ∃ u t : State, exec (.webRestored p tag sc ac n) s = .next t ∧ t = u.settled ∧
          JoinedBy s t p (doneFrame 0x14 tag []) ∧
          (t.stream x).broken = false ∧ (t.stream x).running = some arm ∧ (t.stream x).runningGrade = d.grade ∧
          (t.arm x arm).state = .running ∧ (t.arm x arm).startCount = some (s.streamCount x) ∧
          (t.arm x arm).declaration = some ⟨d.grade, if n = 0 then d.length else n⟩ ∧
          (u.arm x arm).driveEnable = true ∧
          s.closedAt u (.webBreak x) (s.streamPos x + s.seamOffset x + rethread) ∧
          (∃ n, u.work = s.work ++ List.replicate n .recompute ++ [.slotFree x, .deferred x, .runout x] ∧
            (0 < n ↔ s.part = .tracking ∧ ∃ y ∈ s.map.track, Claim.webBreak x ∈ y.claims)) ∧
          (t.arm x arm.other).stand = (s.arm x arm.other).stand ∧
          (∀ y side, y ≠ x → (t.arm y side).stand = (s.arm y side).stand) ∧ t.lmu = s.lmu ∧ t.profile = s.profile))

/-- R124: Stream Recover, with its refusals. `u` is the state before the acts of R108 and R111. Due are then the acts of a slot
that is FREE (R108, `Rule.SlotBecomesFree`) and, where the arm becomes RUNNING, the deferred-commit test (R111) and the run-out
test (R118), in the model's order (log 64). -/
def Obligations.StreamRecoverNamesTheRunningArm : Prop :=
  ∀ (p : Port) (tag : Byte) (sc ac : Nat) (s : State), Heard s p 0x15 →
    (Stream.ofCode? sc = none ∨ Arm.ofCode? ac = none → s.work = [] →
      exec (.streamRecover p tag sc ac) s = .next (s.withFrame p (refusedFrame 0x15 tag 7))) ∧
    (∀ x arm, Stream.ofCode? sc = some x → Arm.ofCode? ac = some arm →
      let r := s.arm x arm
      let bound := ∃ v, (s.stream x).slot = some v ∧ (v.state = .committed ∨ v.state = .fired)
      let mayRun := (r.state = .loaded ∨ r.state = .ready ∨ r.state = .running) ∧ r.declaration ≠ none
      ((s.stream x).broken = true → s.work = [] →
        exec (.streamRecover p tag sc ac) s = .next (s.withFrame p (refusedFrame 0x15 tag 3))) ∧
      ((s.stream x).broken = false → bound → s.work = [] →
        exec (.streamRecover p tag sc ac) s = .next (s.withFrame p (refusedFrame 0x15 tag 9))) ∧
      ((s.stream x).broken = false → ¬ bound → ¬ mayRun → s.work = [] →
        exec (.streamRecover p tag sc ac) s = .next (s.withFrame p (refusedFrame 0x15 tag 3))) ∧
      (∀ d, (s.stream x).broken = false → ¬ bound → mayRun → r.declaration = some d →
        ∃ u t : State, exec (.streamRecover p tag sc ac) s = .next t ∧ t = u.settled ∧
          JoinedBy s t p (doneFrame 0x15 tag []) ∧
          (t.stream x).running = some arm ∧ (t.stream x).runningGrade = d.grade ∧
          (t.arm x arm).state = .running ∧ (t.arm x arm).declaration = r.declaration ∧
          (t.arm x arm).startCount = (if r.state = .running then r.startCount else some (s.streamCount x)) ∧
          (t.arm x arm.other).state =
            (if (s.arm x arm.other).state = .running then .stopping else (s.arm x arm.other).state) ∧
          ((s.arm x arm.other).state = .running ∨ (s.arm x arm.other).state = .ready →
            (u.arm x arm.other).driveEnable = false) ∧
          (r.state ≠ .running → (u.arm x arm).driveEnable = true) ∧
          ((u.stream x).slot = none ↔ (s.stream x).slot = none ∨ ∃ v, (s.stream x).slot = some v ∧ v.state = .fault) ∧
          (∀ v, (u.stream x).slot = some v → (s.stream x).slot = some v) ∧
          u.work = s.work ++ (if (u.stream x).slot = none then [.slotFree x] else []) ++
            (if r.state = .running then [] else [.deferred x, .runout x]) ∧
          (∀ y side, y ≠ x → (t.arm y side).stand = (s.arm y side).stand) ∧ t.lmu = s.lmu ∧ t.profile = s.profile))

/-! ### Station ports (08) -/

/-- R175, R177, R187: a select period begins with the oldest frame, or the idle frame, filled at that moment; each byte
clocked shifts out the next byte of it, a fill byte behind its end, the idle frame's count being that of the moment, and
keeps the byte shifted in up to the 256th. That a second start in a period, and a byte outside one, change nothing is the
model's reading (log 40). -/
def Obligations.SelectPeriodShiftsTheFrame : Prop :=
  ∀ (p : Port) (s : State), s.resetAsserted = false → s.work = [] →
    let r := s.port p
    let begun := fun f bytes => s.setPort p { r with
      select := some { chosen := f, bytes := bytes, shifted := 0, received := [], ignored := false } }
    (r.select ≠ none → exec (.selectStart p) s = .next s) ∧
    (r.select = none →
      (∀ kind tag payload rest, r.queue = .reply kind tag payload :: rest →
        exec (.selectStart p) s = .next (begun (some (.reply kind tag payload)) (frameBytes kind tag payload))) ∧
      (∀ n rest, r.queue = .notice n :: rest →
        exec (.selectStart p) s = .next (begun (some (.notice n))
          [5, 0xFD, 0, BitVec.ofNat 8 n, BitVec.ofNat 8 r.rawFlags, BitVec.ofNat 8 (r.rawFlags / 256)])) ∧
      (r.queue = [] → exec (.selectStart p) s = .next (begun none
        [5, 0xFF, 0, if s.part = .tracking then 1 else 0, if r.rawOf (Port.droppedClass p) = true then 1 else 0, 0]))) ∧
    (∀ b, r.select = none → exec (.byteClocked p b) s = .next s) ∧
    (∀ b v, r.select = some v → exec (.byteClocked p b) s = .next (s.setPort p { r with
      dataOut :=
        if v.chosen = none ∧ v.ignored = false ∧ v.shifted = 5 then BitVec.ofNat 8 r.queue.length
        else v.bytes[v.shifted]?.getD 0
      select := some { v with
        shifted := v.shifted + 1, received := if v.received.length < 256 then v.received ++ [b] else v.received } }))

/-- R176, R194: the end of a select period. The frame leaves the out-queue when every byte of it was shifted out; a first byte
of 0 or no byte carries no request; the bytes of a request's frame, with any bytes behind it, have the request taken; a frame
that is malformed (R181 check 1, R206: a length of 1, fewer bytes than its length, or a kind or a length that is not in the
catalogue) is dropped where the out-queue is full, and is otherwise refused FORMAT with the kind and tag received, 0 where
they were not; a queue attempt follows. A period in progress at the release of reset does none of this. That a SELECT_END
without a period changes nothing is the model's reading (log 40). -/
def Obligations.SelectEndDeliversAndJudges : Prop :=
  ∀ (p : Port) (s : State), s.resetAsserted = false → s.work = [] →
    let r := s.port p
    (r.select = none → exec (.selectEnd p) s = .next s) ∧
    (∀ v, r.select = some v → v.ignored = true → exec (.selectEnd p) s = .next (s.setPort p { r with select := none })) ∧
    (∀ v, r.select = some v → v.ignored = false →
      let whole := v.chosen ≠ none ∧ v.chosen = r.queue.head? ∧ v.bytes.length ≤ v.shifted
      let u := s.setPort p { r with select := none, queue := if whole then r.queue.tail else r.queue }
      ((v.received = [] ∨ ∃ rest, v.received = 0 :: rest) →
        ∃ t, exec (.selectEnd p) s = .next t ∧ Attempted (u.port p) (t.port p) ∧ t = s.setPort p (t.port p)) ∧
      (∀ (b : Byte) (rest : List Byte), v.received = b :: rest → b ≠ 0 →
        let n := b.toNat
        let kind := (rest[0]?.map BitVec.toNat).getD 0
        let tag := rest[1]?.getD 0
        let refused := fun (kind : Nat) (tag : Byte) => exec (.selectEnd p) s = .next
          ((if 16 ≤ (u.port p).queue.length then u.raise (.requestDropped p)
            else u.withFrame p (refusedFrame kind tag 1)).attempt p)
        (n = 1 → refused 0 0) ∧
        (2 ≤ n → rest.length < n ∨ n ∉ lengthsOf kind ((rest.take n).drop 2) → refused kind tag)) ∧
      (∀ i f extra, requestFrame i = some f → i.wellFormed = true → f.port = p → v.received = f.bytes ++ extra →
        exec (.selectEnd p) s =
          .next (((u.takeRequest p f.tag f.kind (verdictOf i u)).settled).attempt p).settled))

/-- R206 to R208: the bytes of a well-formed request, whatever bytes follow them in the select period, are read back as that
request with its kind and tag. -/
def Obligations.RequestFramesReadBack : Prop :=
  ∀ (i : Instr) (f : RequestFrame) (extra : List Byte), requestFrame i = some f → i.wellFormed = true →
    received f.port (f.bytes ++ extra) = .request f.kind f.tag i

/-- R179 to R181: a request that finds 16 frames is dropped, with REQUEST_DROPPED raised; every other request puts exactly
one reply into its port's out-queue, DONE with its kind plus 80h or REFUSED with its kind, and with its tag, ahead of every
notice it raises. (Clear Notices and Restart Port also take frames out: R189, R191.) -/
def Obligations.EveryRequestGetsOneReply : Prop :=
  ∀ (i : Instr) (f : RequestFrame) (s t : State), requestFrame i = some f → s.resetAsserted = false →
    f.kind ≠ 0x36 → f.kind ≠ 0x39 → exec i s = .next t →
    (16 ≤ (s.port f.port).queue.length →
      (t.port f.port).queue = (s.port f.port).queue ∧
      ((s.port f.port).classes.length = Port.classCount f.port →
        (t.port f.port).rawOf (Port.droppedClass f.port) = true)) ∧
    ((s.port f.port).queue.length < 16 →
      (∃ payload, JoinedBy s t f.port (doneFrame f.kind f.tag payload)) ∨
      ∃ cause sectionCode, JoinedBy s t f.port (refusedFrame f.kind f.tag cause sectionCode)) ∧
    (∀ p, p ≠ f.port → PortGrows (s.port p) (t.port p))

/-- R179, R181: a dropped request has no effect but its notice class, one of a kind its port does not accept is refused
RIGHTS, and one its own rule refuses changes nothing but the out-queue its reply joins. -/
def Obligations.UntakenRequestsChangeNothing : Prop :=
  ∀ (i : Instr) (f : RequestFrame) (s : State), requestFrame i = some f → s.resetAsserted = false → s.work = [] →
    (16 ≤ (s.port f.port).queue.length → exec i s = .next (s.raise (.requestDropped f.port))) ∧
    ((s.port f.port).queue.length < 16 → accepted f.port f.kind = false →
      exec i s = .next (s.withFrame f.port (refusedFrame f.kind f.tag 2))) ∧
    (∀ cause sectionCode, (s.port f.port).queue.length < 16 → accepted f.port f.kind = true →
      verdictOf i s = .refuse cause sectionCode →
      exec i s = .next (s.withFrame f.port (refusedFrame f.kind f.tag cause.code sectionCode)))

/-- R188, R189: Set Notice Enables gives every class its enable; Clear Notices clears the raw flags and markers of the classes
it names and takes their notices out of the queue. The reply joins, and a queue attempt follows. A class number that the
port does not have is refused RANGE. -/
def Obligations.NoticeEnablesAndClears : Prop :=
  ∀ (p : Port) (tag : Byte) (cs : BitVec 16) (s : State), s.work = [] →
    let r := s.port p
    let named := fun (f : Frame) => match f with
      | .notice n => cs.getLsbD n
      | .reply _ _ _ => false
    (Heard s p 0x35 → 2 ^ r.classes.length ≤ cs.toNat →
      exec (.setNoticeEnables p tag cs) s = .next (s.withFrame p (refusedFrame 0x35 tag 7))) ∧
    (Heard s p 0x36 → 2 ^ r.classes.length ≤ cs.toNat →
      exec (.clearNotices p tag cs) s = .next (s.withFrame p (refusedFrame 0x36 tag 7))) ∧
    (Heard s p 0x35 → cs.toNat < 2 ^ r.classes.length →
      ∃ t u, exec (.setNoticeEnables p tag cs) s = .next t ∧ t = s.setPort p (t.port p) ∧ Attempted u (t.port p) ∧
        u.queue = r.queue ++ [doneFrame 0x35 tag []] ∧ u.paused = r.paused ∧ u.select = r.select ∧ u.dataOut = r.dataOut ∧
        ∀ n, u.classes[n]? = (r.classes[n]?).map fun (c : NoticeClass) => { c with enable := cs.getLsbD n }) ∧
    (Heard s p 0x36 → cs.toNat < 2 ^ r.classes.length →
      ∃ t u, exec (.clearNotices p tag cs) s = .next t ∧ t = s.setPort p (t.port p) ∧ Attempted u (t.port p) ∧
        u.queue = r.queue.filter (fun f => !named f) ++ [doneFrame 0x36 tag []] ∧
        u.paused = r.paused ∧ u.select = r.select ∧ u.dataOut = r.dataOut ∧
        ∀ n, u.classes[n]? = (r.classes[n]?).map fun (c : NoticeClass) =>
          if cs.getLsbD n = true then { c with raw := false, queued := false } else c)

/-- R190: Pause Notices sets the port's pause flag; while it is set raw flags are set but no class is queued, and nothing
leaves the queue; Resume Notices clears the flag and makes a queue attempt. Both reply DONE whatever the flag was. -/
def Obligations.PauseHoldsNoticesUntilResume : Prop :=
  ∀ (p : Port) (tag : Byte) (s : State), s.work = [] →
    let r := s.port p
    (Heard s p 0x37 → exec (.pauseNotices p tag) s = .next (s.setPort p { r with
      paused := true, queue := r.queue ++ [doneFrame 0x37 tag []] })) ∧
    (Heard s p 0x38 → ∃ t, exec (.resumeNotices p tag) s = .next t ∧ t = s.setPort p (t.port p) ∧
      Attempted { r with paused := false, queue := r.queue ++ [doneFrame 0x38 tag []] } (t.port p)) ∧
    (r.paused = true → ∀ n, (r.raise n).queue = r.queue ∧ r.attempt = r ∧ (n < r.classes.length → (r.raise n).rawOf n = true))

/-- R191, R170: Restart Port empties the out-queue, clears the markers and the pause flag, and replies; a queue attempt
follows. On the dry port every released record and every tool move becomes untaken, with ACTIONS_READY when the untaken
records rise from none. Raw flags and enables are kept. -/
def Obligations.RestartPortBeginsAgain : Prop :=
  ∀ (p : Port) (tag : Byte) (s : State), Heard s p 0x39 → s.work = [] →
    let r : PortRec := { s.port p with
      queue := [doneFrame 0x39 tag []], paused := false
      classes := (s.port p).classes.map fun (c : NoticeClass) => { c with queued := false } }
    (p ≠ .dry → ∃ t, exec (.restartPort p tag) s = .next t ∧ t = s.setPort p (t.port p) ∧ Attempted r (t.port p)) ∧
    (p = .dry → ∃ t, exec (.restartPort p tag) s = .next t ∧
      t.dry = { s.dry with released := s.dry.released.map fun (x : ActionRec) => { x with taken := false } } ∧
      t.slitter = { s.slitter with moves := s.slitter.moves.map fun (m : MoveEntry) => { m with taken := false } } ∧
      Attempted (if s.dry.released ≠ [] ∧ (∀ x ∈ s.dry.released, x.taken = true) then r.raise 0 else r) (t.port p) ∧
      { t with dry := s.dry, slitter := s.slitter, ports := s.ports } = s ∧ ∀ q, q ≠ p → t.port q = s.port q)

/-- R179: every step keeps every out-queue at most 16 frames long, at most 12 of them notices, and every class table at its
port's size, from any state in which they are. -/
def Obligations.OutQueuesStayBounded : Prop :=
  ∀ s t : State, s.portsBounded → step s = .next t → t.portsBounded

/-- R207: the codes of the enumerations, and the sets as bit maps. -/
def Rule.Codes : Prop :=
  [PartState.setup, .tracking].map PartState.code = [0, 1] ∧
  [Phase.queued, .planned, .cutting, .closed, .cancelled].map Phase.code = [1, 2, 3, 4, 5] ∧
  [Blocked.none, .heads, .format].map Blocked.code = [0, 1, 2] ∧
  [ResultCause.complete, .short, .cancelledByPlan, .cancelledAfterStart, .lineCleared].map ResultCause.code = [1, 2, 3, 4, 5] ∧
  [ArmState.empty, .loaded, .ready, .running, .stopping].map ArmState.code = [1, 2, 3, 4, 5] ∧
  [SlotState.planned, .committed, .fired, .fault].map SlotState.code = [2, 3, 4, 5] ∧
  [SlotKind.grade, .runout, .manual].map SlotKind.code = [1, 2, 3] ∧
  [StationState.idle, .setting, .ready, .down, .failed].map StationState.code = [1, 2, 3, 4, 5] ∧
  [SetupResult.none, .pass, .fail].map SetupResult.code = [1, 2, 3] ∧
  [ToolState.unknown, .parked, .moving, .placed, .out].map ToolState.code = [1, 2, 3, 4, 5] ∧
  [RecogState.guard, .armed, .active, .trailing].map RecogState.code = [1, 2, 3, 4] ∧
  [ActionKind.cut, .lift, .drop].map ActionKind.code = [1, 2, 3] ∧
  [Disposition.good, .reject, .waste].map Disposition.code = [1, 2, 3] ∧
  [EntryKind.preheater, .glueUnit, .hotPlate].map EntryKind.code = [1, 2, 3] ∧
  [ToolKind.slit, .score].map toolKindCode = [1, 2] ∧
  [none, some Arm.a, some .b].map armCode = [0, 1, 2] ∧ [none, some Station.a, some .b].map stationCode = [0, 1, 2] ∧
  (∀ (l : List Cause) (n : Nat) (c : Cause),
    [Cause.seam, .quality, .stop, .webBreak, .wrongGrade, .gradeEarly, .slitNotReady, .doubleSlit, .toolLost,
      .unexpectedSeam][n]? = some c → ((causeBits l).testBit n = true ↔ c ∈ l)) ∧
  (∀ (l : List Claim) (n : Nat) (c : Claim),
    [Claim.webBreak .s1, .webBreak .s2, .webBreak .s3, .webBreak .s4, .webBreak .s5, .wrongGrade .s1, .wrongGrade .s2,
      .wrongGrade .s3, .wrongGrade .s4, .wrongGrade .s5, .slitNotReady .a, .slitNotReady .b, .toolLost .a,
      .toolLost .b][n]? = some c → ((claimBits l).testBit n = true ↔ c ∈ l)) ∧
  (∀ l, causeBits l < 2 ^ 10) ∧ (∀ l, claimBits l < 2 ^ 14) ∧
  (∀ (l : List Bool) (n : Nat), (flags l).testBit n = l[n]?.getD false)

/-- R65, R209: the order record, the summary of an order, and the Read Book reply. -/
def Rule.OrderRecords : Prop :=
  (∀ (r : OrderRec) (k : Nat),
    let f := r.fig
    Lays (orderBytes r k)
      [(0, 4, .num f.id), (4, 1, .num k), (5, 1, .num f.grades.s1), (6, 1, .num f.grades.s2), (7, 1, .num f.grades.s3),
        (8, 1, .num f.grades.s4), (9, 1, .num f.grades.s5), (10, 4, .num f.sf), (14, 4, .num f.t), (18, 2, .num f.a),
        (20, 1, .num f.m), (21, 2, .num f.q), (23, 1, .num f.layout.slits.length), (24, 1, .num f.layout.scores.length)] ∧
    LaysEach (orderBytes r k) 25 2 8 (fun i => .num? f.layout.slits[i]?) ∧
    LaysEach (orderBytes r k) 41 2 10 (fun i => .num? f.layout.scores[i]?) ∧
    Lays (orderBytes r k)
      [(61, 1, .num r.phase.code), (62, 1, .num r.pinned.toNat), (63, 1, .num r.blocked.code), (64, 1, .num (stationCode r.station)),
        (65, 6, .place? r.p), (71, 6, .place? r.e), (77, 4, .num? r.n), (81, 6, .num? r.gap), (87, 4, .num r.wasteBefore),
        (91, 4, .num? r.rejects), (95, 4, .num r.counts.good), (99, 4, .num r.counts.reject), (103, 4, .num r.counts.unconfirmed),
        (107, 4, .num r.counts.waste), (111, 4, .num r.counts.dropped), (115, 4, .num r.counts.stacksDone),
        (119, 1, .num ((r.result.map fun v => v.cause.code).getD 0)), (120, 4, .num? (r.result.map OrderResult.shortfall)),
        (124, 4, .num? (r.result.map OrderResult.overs))] ∧
    Lays (summaryBytes r) [(0, 4, .num f.id), (4, 1, .num r.phase.code), (5, 1, .num r.pinned.toNat), (6, 1, .num r.blocked.code),
      (7, 1, .num ((r.result.map fun v => v.cause.code).getD 0))]) ∧
  (∀ (book : List OrderRec) (n : Nat),
    Lays (bookBytes book n) [(0, 1, .num book.length), (1, 1, .num n), (2, 1, .num (min 8 (book.length - n)))] ∧
    ∀ i r, i < 8 → book[n + i]? = some r → HoldsAt (bookBytes book n) (3 + 8 * i) (summaryBytes r))

/-- R41, R209: the extent record, the lane mark, and the two forms of the Read Map reply. The claims of an extent that is not
OPEN are a free value (log 56), and a seam arm and seam flags of 0 where there is no seam part are the model's reading (log
34). -/
def Rule.MapRecords : Prop :=
  (∀ (x : Extent),
    Lays (extentBytes x)
      [(0, 6, .place x.start), (6, 6, .place? x.finish), (12, 6, .place? x.held), (18, 2, .num (causeBits x.causes))] ∧
    (x.finish = none → Lays (extentBytes x) [(20, 2, .num (claimBits x.claims))]) ∧
    (x.seam = none → Lays (extentBytes x) [(22, 1, .num 0), (23, 1, .num 0), (24, 1, .num 0)]) ∧
    (∀ v, x.seam = some v → Lays (extentBytes x) [(22, 1, .num v.stream.number), (23, 1, .num (armCode (some v.arm))),
      (24, 1, .num (flags [v.confirmation == .confirmed, v.confirmation == .unconfirmed, v.fast, v.unsynced]))])) ∧
  (∀ (s : State) (m : LaneMark),
    Lays (s.markBytes m) [(0, 1, .num m.stream.number), (1, 1, .num (armCode (some m.arm))), (2, 6, .num m.count),
      (8, 1, .num (flags [m.fast, m.unsynced])), (9, 6, .place (s.predicted m))]) ∧
  (∀ (track : List Extent) (n : Nat),
    Lays (mainMapBytes track n) [(0, 1, .num track.length), (1, 1, .num n), (2, 1, .num (min 8 (track.length - n)))] ∧
    ∀ i x, i < 8 → track[n + i]? = some x → HoldsAt (mainMapBytes track n) (3 + 25 * i) (extentBytes x)) ∧
  (∀ (s : State) (l : Lane),
    let r := s.lane l
    Lays (s.laneMapBytes l) [(0, 6, .signed r.offset), (6, 1, .num r.unsynced.toNat), (7, 1, .num r.recogniser.state.code),
      (8, 6, .num? r.recogniser.p0), (14, 6, .num? r.recogniser.i0), (20, 1, .num r.marks.length)] ∧
    ∀ (i : Nat) m, r.marks[i]? = some m → HoldsAt (s.laneMapBytes l) (21 + 15 * i) (s.markBytes m))

/-- R86, R135, R161, R209: the action record, the move entry, the station change, and the lists that give them behind their
count. The flag bits of a LIFT or DROP (log 34), and its causes, which are a free value (log 31), are no part of this. -/
def Rule.ActionRecords : Prop :=
  (∀ (r : ActionRec),
    Lays (actionBytes r)
      [(0, 1, .num r.kind.code), (1, 4, .num r.sequence), (5, 6, .place r.position), (11, 6, .place r.deadline),
        (18, 1, .num (stationCode r.station)), (19, 4, .num r.order), (23, 4, .num? r.sheet), (27, 6, .place? r.sheetStart),
        (33, 1, .num ((r.disposition.map Disposition.code).getD 0)), (34, 4, .num? r.stackNumber), (38, 2, .num? r.sheetInStack)] ∧
    (r.kind = .cut → Lays (actionBytes r) [(17, 1, .num (flags [r.taken, r.lastOfStack, r.lastOfOrder, r.merged]))]) ∧
    (r.disposition = some .reject → Lays (actionBytes r) [(40, 2, .num (causeBits r.causes))])) ∧
  (∀ (m : MoveEntry), Lays (moveBytes m) [(0, 1, .num (stationCode (some m.station))), (1, 1, .num (toolKindCode m.kind)),
    (2, 1, .num m.number), (3, 2, .num m.target), (5, 1, .num m.attempt)]) ∧
  (∀ (n : Nat) (k : EntryKind) (id : Nat), Lays (changeBytes (n, k, id)) [(0, 1, .num n), (1, 1, .num k.code), (2, 4, .num id)]) ∧
  (∀ (s : State) n k id, (n, k, id) ∈ s.changes ↔ 1 ≤ n ∧ n ≤ 12 ∧ nth1 s.plan.pendingChange n = some (some id) ∧
    ∃ e, nth1 s.profile.entries n = some e ∧ e.kind = k) ∧
  (∀ (α : Type) (f : α → List Byte) (size : Nat) (l : List α), (∀ x ∈ l, (f x).length = size) →
    Lays (counted f l) [(0, 1, .num l.length)] ∧
    ∀ (i : Nat) x, l[i]? = some x → HoldsAt (counted f l) (1 + size * i) (f x))

/-- R125, R209: the stream summary, with the slot and the two arms. What a FREE slot, and a field a slot does not hold, show is
the model's reading (log 34), and so is the consumed length of an arm without a start count (log 57). -/
def Rule.StreamRecords : Prop :=
  (∀ (s : State) (x : Stream),
    let r := s.stream x
    Lays (s.streamBytes x) [(0, 1, .num x.number), (1, 6, .num (s.streamCount x)), (7, 4, .num (s.streamSpeed x)),
      (11, 1, .num (armCode r.running)), (12, 1, .num r.runningGrade), (13, 1, .num (if r.broken = true then 2 else 1)),
      (14, 1, .num (flags [r.linkFault, r.splicerReady.level]))] ∧
    HoldsAt (s.streamBytes x) 15 (slotBytes r.slot) ∧ HoldsAt (s.streamBytes x) 42 (s.armBytes x .a) ∧
    HoldsAt (s.streamBytes x) 61 (s.armBytes x .b)) ∧
  Lays (slotBytes none) [(0, 1, .num 1), (1, 1, .num 0), (2, 1, .num 0), (3, 4, .num 0), (7, 1, .absent), (8, 6, .absent),
    (14, 6, .absent), (20, 1, .num 0), (21, 6, .absent)] ∧
  (∀ (v : Slot),
    Lays (slotBytes (some v)) [(0, 1, .num v.state.code), (1, 1, .num v.kind.code),
      (2, 1, .num (flags [v.deferred, v.fast, v.reaimed, v.advanced, v.wrongGrade, v.unsynced])),
      (3, 4, .num (v.boundary.getD 0)), (20, 1, .num (armCode v.chosen))] ∧
    (v.state ≠ .fault → Lays (slotBytes (some v)) [(7, 1, .num v.grade), (8, 6, .place v.commitPoint), (14, 6, .place v.firePoint)]) ∧
    (v.state = .fault → Lays (slotBytes (some v)) [(7, 1, .absent), (8, 6, .absent), (14, 6, .absent)]) ∧
    (v.state = .fired ∨ v.state = .fault → Lays (slotBytes (some v)) [(21, 6, .num v.fireCount)]) ∧
    (v.state = .planned ∨ v.state = .committed → Lays (slotBytes (some v)) [(21, 6, .absent)])) ∧
  (∀ (s : State) (x : Stream) (arm : Arm),
    let r := s.arm x arm
    Lays (s.armBytes x arm) [(0, 1, .num r.state.code), (1, 1, .num ((r.declaration.map Declaration.grade).getD 0)),
      (2, 4, .num? (r.declaration.map Declaration.length)), (6, 6, .num? r.startCount),
      (12, 6, .num (match r.startCount with
        | some c => s.streamCount x - c
        | none => 0)),
      (18, 1, .num (flags [r.present.level, r.latched.level, r.button.level, r.driveGood.level, r.driveEnable,
        s.driveGood x arm, r.state == .ready]))])

/-- R150, R209: the station summary with its tools, and the Read Stations reply. A score count of 0 where no layout is held is
the model's reading (log 68). -/
def Rule.StationRecords : Prop :=
  (∀ (t : Tool), Lays (toolBytes t) [(0, 1, .num t.state.code), (1, 1, .num t.attempts), (2, 2, .num? t.target),
    (4, 2, .num? t.measured)]) ∧
  (∀ (s : State) (st : Station), (s.station st).slits.length = 8 → (s.station st).scores.length = 10 →
    let r := s.station st
    let l := r.layout.getD ⟨[], []⟩
    Lays (s.stationBytes st)
      [(0, 1, .num r.state.code), (1, 1, .num r.current.code), (2, 1, .num r.previous.code), (3, 4, .num (r.order.getD 0)),
        (7, 1, .num l.slits.length), (8, 1, .num l.scores.length)] ∧
    LaysEach (s.stationBytes st) 9 2 8 (fun i => .num? l.slits[i]?) ∧
    LaysEach (s.stationBytes st) 25 2 10 (fun i => .num? l.scores[i]?) ∧
    Lays (s.stationBytes st)
      [(45, 4, .num ((r.late.map LateSwap.order).getD 0)), (49, 1, .num (stationCode (r.late.bind LateSwap.old))),
        (50, 6, .place? (r.late.map LateSwap.position)), (56, 1, .num (inService r.slits)), (57, 1, .num (inService r.scores))] ∧
    (∀ (i : Nat) t, r.slits[i]? = some t → HoldsAt (s.stationBytes st) (58 + 6 * i) (toolBytes t)) ∧
    (∀ (i : Nat) t, r.scores[i]? = some t → HoldsAt (s.stationBytes st) (106 + 6 * i) (toolBytes t))) ∧
  (∀ (s : State), (∀ st, (s.station st).slits.length = 8 ∧ (s.station st).scores.length = 10) →
    HoldsAt s.stationsBytes 0 (s.stationBytes .a) ∧ HoldsAt s.stationsBytes 166 (s.stationBytes .b) ∧
    Lays s.stationsBytes [(332, 1, .num s.slitter.moves.length), (333, 1, .num (s.slitter.moves.filter fun m => !m.taken).length)])

/-- R17, R171, R192, R209: the status record. What the number of records in the pending plan counts is the model's choice (log
11). -/
def Rule.StatusRecord : Prop :=
  (∀ (r : ChannelRec), Lays (channelBytes r) [(0, 6, .num r.counter), (6, 4, .num r.backTravel), (10, 4, .num r.speed),
    (14, 1, .num (flags [r.saturated, r.capped]))]) ∧
  (∀ (s : State) (p : Port),
    let r := s.port p
    HoldsAt (s.statusBytes p) 0 (channelBytes (s.channel .main)) ∧ HoldsAt (s.statusBytes p) 15 (channelBytes (s.channel .lane1)) ∧
    HoldsAt (s.statusBytes p) 30 (channelBytes (s.channel .lane2)) ∧
    Lays (s.statusBytes p)
      [(45, 1, .num s.lmu.stopped.toNat), (46, 2, .num s.lmu.stopDuration), (48, 6, .signed (s.lane .one).offset),
        (54, 1, .num (s.lane .one).unsynced.toNat), (55, 6, .signed (s.lane .two).offset), (61, 1, .num (s.lane .two).unsynced.toNat),
        (62, 1, .num s.dry.released.length), (63, 1, .num (s.dry.released.filter fun r => !r.taken).length),
        (64, 4, .num s.dry.sequence), (68, 1, .num s.dry.wrapped.toNat), (69, 6, .place s.dry.cursor),
        (75, 1, .num s.dry.merge.toNat), (76, 4, .num s.pendingCount), (80, 1, .num s.part.code),
        (81, 2, .num (flags (r.classes.map NoticeClass.raw))), (83, 2, .num (flags (r.classes.map NoticeClass.enable))),
        (85, 2, .num (flags (r.classes.map NoticeClass.queued))), (87, 1, .num r.paused.toNat), (88, 1, .num r.queue.length),
        (89, 1, .num (r.queue.filter Frame.isNotice).length)])

/-- R93, R209: the plan record: its head, its orders, and its boundaries one behind another. The targets of a boundary by
ascending stream and its triggers by ascending entry number (log 61), a target whose slot is REAIMED as in the slot (log 62), and
the LIFT shown (log 32, log 37) are the model's choices. -/
def Rule.PlanRecord : Prop :=
  (∀ (l : Line), Lays (lineBytes l) [(0, 4, .num l.w.id), (4, 1, .num l.r.phase.code), (5, 1, .num l.r.pinned.toNat),
    (6, 1, .num (stationCode l.r.station)), (7, 6, .place? l.r.p), (13, 6, .place? l.r.e), (19, 4, .num? l.r.n),
    (23, 4, .num? l.r.rejects), (27, 6, .num? l.r.gap), (33, 4, .num l.r.wasteBefore)]) ∧
  (∀ (s : State) (prev : PrevFigures) (l : Line) (x : Stream),
    let seam := l.r.p.getD 0 - s.profile.line.g
    let target := fun fire commit inSlot bytes => Lays bytes [(0, 1, .num x.number), (1, 6, .place seam), (7, 6, .place fire),
      (13, 6, .place commit), (19, 1, .num inSlot)] ∧ bytes.length = 20
    let differs := (s.streamProfile x).active = true ∧ prev.grades.get x ≠ l.r.fig.grades.get x ∧ l.w.targetSpent.get x = false
    let inSlot := fun v => (s.stream x).slot = some v ∧ v.kind = .grade ∧ v.departed = false ∧ v.boundary = some l.w.id
    (∀ v, inSlot v → v.state ≠ .fault → ∃ b, s.targetBytes prev l x = some b ∧ target v.firePoint v.commitPoint 1 b) ∧
    ((∀ v, ¬ inSlot v) → differs → ∃ b, s.targetBytes prev l x = some b ∧
      target (seam - s.seamOffset x) (seam - s.seamOffset x - (s.streamProfile x).commitLead) 0 b) ∧
    ((∀ v, ¬ inSlot v) → ¬ differs → s.targetBytes prev l x = none) ∧
    (∀ v, inSlot v → v.state = .fault → s.targetBytes prev l x = none)) ∧
  (∀ (s : State) (l : Line) (prev : PrevFigures) (n : Nat) (point : Pos) (isFired : Bool),
    Lays (triggerBytes (n, point, isFired)) [(0, 1, .num n), (1, 6, .place point), (7, 1, .num isFired.toNat)] ∧
    ((n, point, isFired) ∈ s.triggersAt l prev ↔
      (∃ x, (s.streamProfile x).active = true ∧ prev.grades.get x ≠ l.r.fig.grades.get x) ∧ 1 ≤ n ∧ n ≤ 12 ∧
      ∃ e, nth1 s.profile.entries n = some e ∧ e.enable = true ∧ point = l.r.p.getD 0 - e.dFar - e.changeLead ∧
        isFired = (nth1 l.w.triggerFired n).getD false)) ∧
  (∀ (s : State) (l : Line) (lift : Option SwapRec), l.w.swap.lifts.filter (fun r => r.status != .withdrawn) = lift.toList →
    let drop := l.w.swap.drop.filter fun r => r.status != .withdrawn
    let place := fun (r : SwapRec) => l.r.p.getD 0 - (s.stationDistance r.station : Int)
    let out := fun (r : Option SwapRec) => (r.map SwapRec.status) == some .released
    Lays (s.swapBytes l) [(0, 1, .num (flags [lift.isSome, drop.isSome, out lift, out drop])),
      (1, 1, .num (stationCode (lift.map SwapRec.station))), (2, 6, .place? (lift.map place)),
      (8, 1, .num (stationCode (drop.map SwapRec.station))), (9, 6, .place? (drop.map place))]) ∧
  (∀ (s : State) (l : Line),
    let b := l.r.p.getD 0
    (l.w.swap.bothDown → Lays (s.spanBytes l) [(0, 1, .num (flags [true, l.w.spanInserted])), (1, 6, .place b),
      (7, 6, .place (b + (s.profile.slitter.dA : Int) - s.profile.slitter.dB))]) ∧
    (¬ l.w.swap.bothDown → Lays (s.spanBytes l) [(0, 1, .num 0), (1, 6, .absent), (7, 6, .absent)])) ∧
  (∀ (s : State) (l : Line) (prev : PrevFigures),
    let targets := [Stream.s1, .s2, .s3, .s4, .s5].filterMap (s.targetBytes prev l)
    let triggers := s.triggersAt l prev
    let bytes := s.boundaryBytes (l, prev)
    let after := 7 + 20 * targets.length
    Lays bytes [(0, 6, .place (l.r.p.getD 0)), (6, 1, .num targets.length), (after, 1, .num triggers.length)] ∧
    (∀ (i : Nat) b, targets[i]? = some b → HoldsAt bytes (7 + 20 * i) b) ∧
    (∀ (i : Nat) t, triggers[i]? = some t → HoldsAt bytes (after + 1 + 8 * i) (triggerBytes t)) ∧
    (triggers.map fun t => t.1).Pairwise (· < ·) ∧
    HoldsAt bytes (after + 1 + 8 * triggers.length) (s.swapBytes l) ∧
    HoldsAt bytes (after + 16 + 8 * triggers.length) (s.spanBytes l) ∧ bytes.length = after + 29 + 8 * triggers.length) ∧
  (∀ (s : State),
    let places := s.boundaries.map s.boundaryBytes
    Lays s.planBytes [(0, 6, .place s.plan.w0), (6, 1, .num s.plan.tail.isSome.toNat),
      (7, 1, .num (stationCode (s.plan.tail.map PrevFigures.station))), (8, 1, .num s.lines.length),
      (9 + 37 * s.lines.length, 1, .num s.boundaries.length)] ∧
    (∀ (i : Nat) l, s.lines[i]? = some l → HoldsAt s.planBytes (9 + 37 * i) (lineBytes l)) ∧
    ∀ (i : Nat) b, s.boundaries[i]? = some b →
      HoldsAt s.planBytes (10 + 37 * s.lines.length + (places.take i).flatten.length) (s.boundaryBytes b))

/-- R17, R41, R64, R65, R93, R125, R150, R192: the replies of the seven reads, and the lengths of the records. -/
def Rule.Reads : Prop :=
  (∀ (p : Port) (tag : Byte) (s : State), s.work = [] →
    (Heard s p 0x30 → exec (.readStatus p tag) s = .next (s.withFrame p (doneFrame 0x30 tag (s.statusBytes p)))) ∧
    (Heard s p 0x34 → exec (.readStations p tag) s = .next (s.withFrame p (doneFrame 0x34 tag s.stationsBytes))) ∧
    (Heard s p 0x06 → exec (.readPlan p tag) s = .next (s.withFrame p (doneFrame 0x06 tag s.planBytes))) ∧
    (∀ n, Heard s p 0x05 → exec (.readBook p tag n) s = .next (s.withFrame p
      (if n ≤ 31 then doneFrame 0x05 tag (bookBytes s.book n) else refusedFrame 0x05 tag 7))) ∧
    (∀ n, Heard s p 0x31 →
      exec (.readMap p tag 0 n) s = .next (s.withFrame p
        (if n ≤ 47 then doneFrame 0x31 tag (mainMapBytes s.map.track n) else refusedFrame 0x31 tag 7)) ∧
      exec (.readMap p tag 1 n) s = .next (s.withFrame p
        (if n ≤ 47 then doneFrame 0x31 tag (s.laneMapBytes .one) else refusedFrame 0x31 tag 7)) ∧
      exec (.readMap p tag 2 n) s = .next (s.withFrame p
        (if n ≤ 47 then doneFrame 0x31 tag (s.laneMapBytes .two) else refusedFrame 0x31 tag 7)) ∧
      ∀ c, 3 ≤ c → exec (.readMap p tag c n) s = .next (s.withFrame p (refusedFrame 0x31 tag 7))) ∧
    (∀ id, Heard s p 0x32 →
      ((∀ r ∈ s.book, r.fig.id ≠ id) → exec (.readOrder p tag id) s = .next (s.withFrame p (refusedFrame 0x32 tag 4))) ∧
      ∀ r k, (s.book.map fun r => r.fig.id).Nodup → s.book[k]? = some r → r.fig.id = id →
        exec (.readOrder p tag id) s = .next (s.withFrame p (doneFrame 0x32 tag (orderBytes r k)))) ∧
    (∀ n, Heard s p 0x33 →
      (Stream.ofCode? n = none → exec (.readStream p tag n) s = .next (s.withFrame p (refusedFrame 0x33 tag 7))) ∧
      ∀ x, Stream.ofCode? n = some x →
        exec (.readStream p tag n) s = .next (s.withFrame p (doneFrame 0x33 tag (s.streamBytes x))))) ∧
  (∀ (s : State) (p : Port) (x : Stream) (st : Station) (r : OrderRec) (k : Nat) (y : Extent) (m : LaneMark) (c : ActionRec)
      (e : MoveEntry) (change : Nat × EntryKind × Nat),
    (s.statusBytes p).length = 90 ∧ (s.streamBytes x).length = 80 ∧ (orderBytes r k).length = 128 ∧
    (summaryBytes r).length = 8 ∧ (extentBytes y).length = 25 ∧ (s.markBytes m).length = 15 ∧ (actionBytes c).length = 42 ∧
    (moveBytes e).length = 6 ∧ (changeBytes change).length = 6 ∧
    ((s.station st).slits.length = 8 → (s.station st).scores.length = 10 → (s.stationBytes st).length = 166))

/-- R17, R41, R64, R65, R93, R125, R150, R192: the seven reads reply with the bytes of the state as it stands and change
nothing else; their refusals. That a first index above 47 is refused for the lane sections too is the model's reading (log
33). The records they give, and those of R86, R135 and R161, have the lengths of R209, and their fields stand at the offsets
of its tables, with the codes of R207. In the records these are the model's and not the manual's: its choices are the count of
the pending plan (log 11), the order of a boundary's targets and triggers (log 61) and the target of a REAIMED slot (log 62);
its readings are the bytes of a seam part, a FREE slot and a slot's fields that are absent (log 34), a boundary's swap bytes
(log 37), the consumed length of an arm without a start count (log 57) and the score count of a station without a layout (log
68). The bytes of a position below 0 (log 10), the causes of a record that holds none (log 31), which of two LIFTs is shown
(log 32) and the claims of an extent that is not OPEN (log 56) are free values. -/
def Obligations.ReadsReplyFromTheStateAlone : Prop :=
  Rule.Reads ∧ Rule.Codes ∧ Rule.OrderRecords ∧ Rule.MapRecords ∧ Rule.ActionRecords ∧ Rule.StreamRecords ∧ Rule.StationRecords ∧
    Rule.StatusRecord ∧ Rule.PlanRecord

/-- R86, R135, R161: the three requests that take. Read Station Changes gives every pending change and sets them to none;
Take Actions gives up to 4, and Take Tool Moves up to 6, of the oldest untaken entries, which become taken, so that they are
not given again. Nothing else changes. That the reply of Take Actions gives the records as they stand before they are taken,
the taken bit clear, is the model's choice (log 55), and the form of flag bits a record's kind does not hold is its reading (log
34). -/
def Obligations.TakesGiveAndMark : Prop :=
  ∀ (p : Port) (tag : Byte) (s : State), s.work = [] →
    (Heard s p 0x17 → exec (.readStationChanges p tag) s = .next { s.withFrame p
      (doneFrame 0x17 tag (counted changeBytes s.changes)) with
        plan := { s.plan with pendingChange := List.replicate 12 none } }) ∧
    (Heard s p 0x20 → (s.dry.released.map ActionRec.sequence).Nodup →
      let untaken := fun (d : DryList) => d.released.filter fun r => !r.taken
      ∃ t, exec (.takeActions p tag) s = .next t ∧
        t = { s.withFrame p (doneFrame 0x20 tag (counted actionBytes ((untaken s.dry).take 4))) with dry := t.dry } ∧
        untaken t.dry = (untaken s.dry).drop 4 ∧
        t.dry.released.map (fun (r : ActionRec) => { r with taken := true }) = s.dry.released.map (fun (r : ActionRec) => { r with taken := true }) ∧
        { t.dry with released := s.dry.released } = s.dry) ∧
    (Heard s p 0x23 →
      let untaken := fun (u : SlitterUnit) => u.moves.filter fun m => !m.taken
      ∃ t, exec (.takeToolMoves p tag) s = .next t ∧
        t = { s.withFrame p (doneFrame 0x23 tag (counted moveBytes ((untaken s.slitter).take 6))) with
          slitter := { s.slitter with moves := t.slitter.moves } } ∧
        untaken t.slitter = (untaken s.slitter).drop 6 ∧
        t.slitter.moves.map (fun (m : MoveEntry) => { m with taken := true }) = s.slitter.moves.map (fun (m : MoveEntry) => { m with taken := true }))

/-! ### The dry action list (07) -/

/-- R155: the number a released record takes. -/
def Rule.SequenceCounter : Prop :=
  ∀ (s : State) (r : ActionRec),
    let t := s.joinReleased r
    t.dry.released = s.dry.released ++ [{ r with sequence := s.dry.sequence, taken := false }] ∧
    (s.dry.sequence = 4294967295 → t.dry.sequence = 1 ∧ t.dry.wrapped = true) ∧
    (s.dry.sequence ≠ 4294967295 → t.dry.sequence = s.dry.sequence + 1 ∧ t.dry.wrapped = s.dry.wrapped)

/-- R155: which numbers have been given out. -/
def Rule.NumbersGivenOut : Prop :=
  ∀ (d : DryList) (q : Nat), 1 ≤ d.sequence →
    (d.givenOut q = true ↔ d.wrapped = true ∨ (1 ≤ q ∧ q ≤ d.sequence - 1))

/-- R155: the counter runs on through Clear Line and Release Line. -/
def Rule.SequenceAcrossStates : Prop :=
  ∀ (p : Port) (tag : Byte) (s : State), s.resetAsserted = false →
    ∃ u v : State, exec (.clearLine p tag) s = .next u.settled ∧ exec (.releaseLine p tag) s = .next v.settled ∧
      u.dry.sequence = s.dry.sequence ∧ u.dry.wrapped = s.dry.wrapped ∧
      v.dry.sequence = s.dry.sequence ∧ v.dry.wrapped = s.dry.wrapped

/-- R153, R154: a LIFT or DROP of the pending plan, of the swap at an order's start (R88) or of its replanned pair (R147). -/
def Rule.PendingMoves : Prop :=
  ∀ (s : State) (l : Line) (p : PendingRec),
    let move := fun (kind : ActionKind) (source : Source) (place : Pos) (r : SwapRec) => r.status = .pending ∧
      p = { kind := kind, source := source, position := place - s.stationDistance r.station, order := l.w.id
            station := some r.station, sheet := none, overrun := r.overrun }
    (p ∈ s.moveRecs l ↔
      (∃ r ∈ l.w.swap.lifts, move .lift .swap l.start r) ∨ (∃ r, l.w.swap.drop = some r ∧ move .drop .swap l.start r) ∨
      ∃ pair, l.w.replan = some pair ∧
        ((∃ r, pair.lift = some r ∧ move .lift .replan pair.x r) ∨ move .drop .replan pair.x pair.drop))

/-- R71, R72, R78, R154, R172: the pending plan, each run of cuts given by the cut of it that comes next: the LIFTs and DROPs
(with the LIFTs of an order that has left the window, log 30, and without its DROP, log 65), the cuts of an order at C(n), the
waste cuts of the gap before it, and those beyond W0. In SETUP there is none. -/
def Rule.PendingPlan : Prop :=
  ∀ (s : State) (p : PendingRec),
    let wg : Int := s.profile.line.wg
    (s.part = .setup → s.candidates = []) ∧
    (s.part = .tracking →
      (p ∈ s.candidates ↔
        (∃ x ∈ s.dry.strays, p =
          { kind := .lift, source := .stray, position := x.position, order := x.order, station := some x.station
            sheet := none, overrun := x.overrun }) ∨
        (∃ l ∈ s.lines, p ∈ s.moveRecs l) ∨
        (∃ l ∈ s.lines, l.w.gapCuts < l.r.wasteBefore ∧ p =
          { kind := .cut, source := .gap, order := l.w.id, station := none, sheet := none, overrun := false
            position := l.r.p.getD 0 - (l.r.gap.getD 0 : Nat) + (l.w.gapCuts + 1) * wg }) ∨
        (∃ l ∈ s.lines, l.w.cuts < l.r.n.getD 0 ∧ p =
          { kind := .cut, source := .cuts, order := l.w.id, station := none, sheet := some (l.w.cuts + 1), overrun := false
            position := cutPosition (l.r.p.getD 0) l.r.fig.sf (l.w.cuts + 1) }) ∨
        p = { kind := .cut, source := .waste, order := 0, station := none, sheet := none, overrun := false
              position := s.plan.w0 + (s.dry.wasteCuts + 1) * wg }))

/-- R156: the first of some records is the one of the lowest position, at equal positions LIFT before DROP before CUT, and
station A before station B. -/
def Rule.ReleaseOrder : Prop :=
  ∀ (l : List PendingRec) (p : PendingRec), firstOf l = some p → p ∈ l ∧ ∀ y ∈ l, p.position < y.position ∨
    (p.position = y.position ∧
      (p.kind = .lift ∨ (p.kind = .drop ∧ y.kind ≠ .lift) ∨ y.kind = .cut) ∧
      (p.kind = y.kind → ¬ (p.station = some .b ∧ y.station = some .a)))

/-- R156 to R159: the release test. After a release, a pin or a late swap it is due again, behind the recomputation alone
(R156). -/
def Rule.ReleaseTest : Prop :=
  ∀ (s : State) (p : PendingRec), firstOf s.candidates = some p →
    let t := s.releaseTest
    let may := p.position ≤ s.knife + s.profile.line.h ∧ p.position ≤ 2 ^ 40 - 1 ∧ s.dry.released.length < 16
    let deadline := max p.position s.knife + (s.profile.line.execTolerance : Int)
    let joins := fun c : ActionRec => t.dry.released = s.dry.released ++ [c] ∧ c.sequence = s.dry.sequence ∧ c.taken = false ∧
      c.kind = p.kind ∧ c.position = p.position ∧ c.deadline = deadline ∧ c.station = p.station ∧
      ((∀ x ∈ s.dry.released, x.taken = true) → (s.port .dry).classes.length = 10 → (t.port .dry).rawOf 0 = true)
    (¬ may → t = s) ∧
    (may → p.kind = .cut → s.finalOpen p = true → t = (s.pinEnd p.order).push [.release]) ∧
    (may → p.kind ≠ .cut → s.startOpen p.order = true → t = (s.pinStart p.order).push [.release]) ∧
    (may → p.kind = .cut → s.finalOpen p = false → ∃ c, joins c ∧
      c.sheet = p.sheet ∧ c.sheetStart = some s.dry.cursor ∧ c.order = (if p.source = .cuts then p.order else 0) ∧
      t.dry.cursor = p.position ∧ t.dry.merge = false ∧ t.work = s.work ++ [.recompute, .release] ∧
      t.dry.wasteCuts = (if p.source = .waste then s.dry.wasteCuts + 1 else s.dry.wasteCuts) ∧
      (∀ w, p.source = .gap → s.windowOrder? p.order = some w →
        t.windowOrder? p.order = some { w with gapCuts := w.gapCuts + 1 }) ∧
      (p.source ≠ .cuts ∨ (∃ r, s.order? p.order = some r ∧ r.phase = .cancelled) →
        c.disposition = some .waste ∧ c.merged = false ∧ c.causes = []) ∧
      (∀ r w, p.source = .cuts → s.order? p.order = some r → s.windowOrder? p.order = some w →
        (r.phase ≠ .cancelled →
          (s.dry.merge = true → c.disposition = some .reject ∧ c.merged = true ∧
            c.causes = s.causesOver s.dry.cursor p.position) ∧
          (s.dry.merge = false → s.overlapped s.dry.cursor p.position = true → c.disposition = some .reject ∧
            c.merged = false ∧ c.causes = s.causesOver s.dry.cursor p.position) ∧
          (s.dry.merge = false → s.overlapped s.dry.cursor p.position = false → c.disposition = some .good ∧
            c.merged = false ∧ c.causes = [])) ∧
        (c.lastOfOrder = true ↔ p.sheet = r.n) ∧
        (c.disposition = some .good → c.stackNumber = some w.stackNumber ∧ c.sheetInStack = some (w.stackCount + 1) ∧
          (c.lastOfStack = true ↔ r.fig.q ≤ w.stackCount + 1)) ∧
        (c.disposition ≠ some .good → c.stackNumber = none ∧ c.sheetInStack = none ∧ c.lastOfStack = false) ∧
        ∃ w', t.windowOrder? p.order = some w' ∧ w'.cuts = w.cuts + 1 ∧ w'.rejectsOverrun = w.rejectsOverrun ∧
          w'.rejectsReleased = (if c.disposition = some .reject then w.rejectsReleased + 1 else w.rejectsReleased) ∧
          (c.disposition ≠ some .good → w'.stackNumber = w.stackNumber ∧ w'.stackCount = w.stackCount) ∧
          (c.lastOfStack = true → w'.stackNumber = w.stackNumber + 1 ∧ w'.stackCount = 0) ∧
          (c.disposition = some .good → c.lastOfStack = false →
            w'.stackNumber = w.stackNumber ∧ w'.stackCount = w.stackCount + 1)) ∧
      { t with dry := s.dry, plan := s.plan, ports := s.ports, work := s.work } = s) ∧
    (∀ st, may → p.station = some st → s.startOpen p.order = false →
      p.kind = .lift ∨ (p.kind = .drop ∧ s.readyFor st p.order = true) → ∃ c, joins c ∧ c.order = p.order ∧
        t.dry.cursor = s.dry.cursor ∧ t.work = s.work ++ [.release] ∧
        { t with dry := s.dry, plan := s.plan, ports := s.ports, work := s.work } = s) ∧
    (∀ st, may → p.kind = .drop → p.station = some st → s.startOpen p.order = false → s.readyFor st p.order = false →
      t = (s.takeLateSwap st p.order (p.source == .replan)).push [.release])

/-- R164: the first record whose deadline L has passed. -/
def Rule.DeclareTest : Prop :=
  ∀ (s : State),
    let t := s.declare
    ((∀ x ∈ s.dry.released, s.knife ≤ x.deadline) → t = s) ∧
    (∀ (before after : List ActionRec) (r : ActionRec), s.dry.released = before ++ r :: after →
      (∀ x ∈ before, s.knife ≤ x.deadline) → r.deadline < s.knife →
      t.dry = { s.dry with released := s.dry.released.filter fun x => x.sequence != r.sequence } ∧
      ((s.port .dry).classes.length = 10 → (t.port .dry).rawOf 2 = true) ∧
      (r.kind = .cut →
        t.work = s.work ++ [Task.expiry] ++ (if r.order = 0 then [] else [Task.close r.order]) ++ [Task.release, Task.declare] ∧
        (s.windowOrder? r.order = none → t.book = s.book) ∧
        (∀ w o, s.windowOrder? r.order = some w → s.order? r.order = some o → ∃ o', t.order? r.order = some o' ∧
          o'.fig = o.fig ∧ o'.phase = o.phase ∧
          o'.counts = { o.counts with unconfirmed := min (o.counts.unconfirmed + 1) 1009998 }) ∧
        { t with dry := s.dry, book := s.book, ports := s.ports, work := s.work } = s) ∧
      (∀ st, r.kind = .drop → r.station = some st → (t.station st).state = .down) ∧
      (∀ st, r.kind = .lift → r.station = some st → (s.station st).state ≠ .down → t.slitter = s.slitter) ∧
      (∀ st, r.kind = .lift → r.station = some st → (s.station st).state = .down → (t.station st).state ≠ .down))

/-- R165 to R167: the first record of the pending plan that L has passed. -/
def Rule.Overrun : Prop :=
  ∀ (s : State),
    let passed := s.candidates.filter fun p => !p.overrun && decide (p.position < s.knife)
    let t := s.overrun
    (passed = [] → t = s) ∧
    (∀ p, firstOf passed = some p →
      ((s.port .dry).classes.length = 10 → (t.port .dry).rawOf 1 = true) ∧
      (p.kind = .cut → s.finalOpen p = false →
        t.dry.released = s.dry.released ∧ t.dry.cursor = s.dry.cursor ∧ t.dry.sequence = s.dry.sequence ∧
        t.dry.merge = true ∧ t.map = s.map ∧
        (p.source ≠ .cuts → t.book = s.book ∧ t.work = s.work ++ [.recompute, .overrun]) ∧
        t.dry.wasteCuts = (if p.source = .waste then s.dry.wasteCuts + 1 else s.dry.wasteCuts) ∧
        (∀ w, p.source = .gap → s.windowOrder? p.order = some w →
          t.windowOrder? p.order = some { w with gapCuts := w.gapCuts + 1 }) ∧
        (p.source = .cuts → t.work = s.work ++ [.recompute, .close p.order, .overrun]) ∧
        (∀ r w, p.source = .cuts → s.order? p.order = some r → s.windowOrder? p.order = some w →
          ∃ r' w', t.order? p.order = some r' ∧ t.windowOrder? p.order = some w' ∧ r'.fig = r.fig ∧ r'.phase = r.phase ∧
            r'.counts = { r.counts with dropped := min (r.counts.dropped + 1) 1009998 } ∧
            w' = { w with cuts := w.cuts + 1, rejectsOverrun := w.rejectsOverrun + 1 })) ∧
      (p.kind = .cut → s.finalOpen p = true → t.dry.merge = true ∧ t.dry.released = s.dry.released ∧
        t.dry.cursor = s.dry.cursor ∧ (s.idsDistinct → t.pinnedThrough p.order)) ∧
      (∀ st, p.kind = .lift → p.station = some st →
        { p with overrun := true } ∈ t.candidates ∧ t.dry.released = s.dry.released ∧ t.slitter = s.slitter ∧
        ((s.station st).state ≠ .down → t.map = s.map) ∧
        ((s.station st).state = .down →
          t.opensClaim .toolLost (.toolLost st) (p.position + s.stationDistance st))) ∧
      (∀ st, p.kind = .drop → p.station = some st → t =
        (((s.takeLateSwap st p.order (p.source == .replan)).settleSwap st).raise .actionOverrun).push [.overrun]))

/-- Which records stand in the pending plan (R71, R72, R78, R154); that a LIFT of an order that has left the window stays in
it is the model's reading (log 30), and that a DROP of one does not is its choice (log 65). R155: a record that is released
takes the sequence counter's value, and the counter advances, from its last value to 1 with the wrapped flag; the counter runs
on through Clear Line and Release Line; which numbers have been given out. Then what comes first in release order (R156); the
release test: a record beyond L + H, beyond 2^40 - 1 or without room is not released, a final cut whose end is OPEN and a LIFT
or DROP whose start is OPEN are pinned first (R157), and a cut is released with its deadline (R156), sheet start, disposition,
causes, LAST_OF_STACK and LAST_OF_ORDER, and moves the release cursor and the stack state (R158, R159); what becomes of the
first record whose deadline L has passed (R164); and the overrun of the first record that L has passed (R165 to R167). The
order of the records and acts made due is the model's (log 7, log 8). -/
def Obligations.SequenceNumbersRunOn : Prop :=
  Rule.PendingMoves ∧ Rule.PendingPlan ∧ Rule.SequenceCounter ∧ Rule.NumbersGivenOut ∧ Rule.SequenceAcrossStates ∧
    Rule.ReleaseOrder ∧ Rule.ReleaseTest ∧ Rule.DeclareTest ∧ Rule.Overrun

/-- R25: the expiry test removes the closed extents that lie behind L and hold no released record, and no others. -/
def Rule.Expiry : Prop :=
  ∀ (s : State),
    let t := s.expireExtents
    let gone := fun x : Extent => ∃ e, x.finish = some e ∧ e ≤ s.knife ∧
      ∀ r ∈ s.dry.released, r.position < x.start ∨ e < r.position
    ((∀ x ∈ s.map.track, ¬ gone x) → t = s) ∧
    (∃ p : Extent → Bool, (∀ x, p x = true ↔ gone x) ∧ t.map.track = s.map.track.filter fun x => !p x) ∧
    ((∃ x ∈ s.map.track, gone x) → s.part = .tracking → t.work = s.work ++ [.recompute]) ∧
    { t with map := { t.map with track := s.map.track }, work := s.work } = s

/-- R162, R163: Action Done. -/
def Rule.ActionDone : Prop :=
  ∀ (p : Port) (tag : Byte) (q m : Nat) (s : State), Heard s p 0x21 →
    let left := s.dry.released.filter fun r => r.sequence != q
    (q = 0 ∨ 2 ^ 40 - 1 < m → s.work = [] →
      exec (.actionDone p tag q m) s = .next (s.withFrame p (refusedFrame 0x21 tag 7))) ∧
    (q ≠ 0 → m ≤ 2 ^ 40 - 1 → (∀ r ∈ s.dry.released, r.sequence ≠ q) → s.work = [] →
      exec (.actionDone p tag q m) s = .next (s.withFrame p
        (if s.dry.wrapped = true ∨ q < s.dry.sequence then refusedFrame 0x21 tag 10 else refusedFrame 0x21 tag 4))) ∧
    (∀ r, q ≠ 0 → m ≤ 2 ^ 40 - 1 → s.dry.released.find? (fun r => r.sequence == q) = some r →
      ∃ u : State, exec (.actionDone p tag q m) s = .next u.settled ∧ JoinedBy s u p (doneFrame 0x21 tag []) ∧
        u.dry = { s.dry with released := left } ∧
        (r.kind = .cut →
          u.work = s.work ++ [Task.expiry] ++ (if r.order = 0 then [] else [Task.close r.order]) ++ [Task.release] ∧
          { u with dry := s.dry, book := s.book, ports := s.ports, work := s.work } = s ∧
          (∀ o w, s.order? r.order = some o → s.windowOrder? r.order = some w →
            ∃ o', u.order? r.order = some o' ∧ o'.fig = o.fig ∧ o'.phase = o.phase ∧
              o'.counts = { o.counts with
                good := if r.disposition = some .good then min (o.counts.good + 1) 1009998 else o.counts.good
                stacksDone :=
                  if r.disposition = some .good ∧ r.lastOfStack = true then min (o.counts.stacksDone + 1) 1009998
                  else o.counts.stacksDone
                reject := if r.disposition = some .reject then min (o.counts.reject + 1) 1009998 else o.counts.reject
                waste := if r.disposition = some .waste then min (o.counts.waste + 1) 1009998 else o.counts.waste }) ∧
          (s.windowOrder? r.order = none → u.book = s.book) ∧
          ((s.port .dry).classes.length = 10 → s.profile.line.execTolerance < ((m : Int) - r.position).natAbs →
            (u.port .dry).rawOf 3 = true)) ∧
        (∀ st, r.kind = .drop → r.station = some st →
          (u.station st).state = .down ∧
          ((s.station st).state = .ready ∨ (s.station st).state = .down →
            u.station st = { s.station st with state := .down } ∧ u.map = s.map ∧ u.slitter.moves = s.slitter.moves) ∧
          ((s.station st).state ≠ .ready → (s.station st).state ≠ .down →
            u.opensClaim .toolLost (.toolLost st) (s.knife + s.stationDistance st) ∧
            u.slitter.moves = s.slitter.moves.filter (fun e => e.station != st))) ∧
        (∀ st, r.kind = .lift → r.station = some st →
          ((s.station st).state ≠ .down → u.slitter = s.slitter) ∧
          ((s.station st).state = .down →
            (∀ y ∈ u.map.track, Claim.toolLost st ∉ y.claims) ∧
            ((s.station st).late = none ∨ (s.station st).demand = none →
              s.closedAt u (.toolLost st) (s.knife + s.stationDistance st)) ∧
            ((s.station st).demand = none → u.station st = { s.station st with state := .idle }) ∧
            (∀ d, (s.station st).demand = some d → (u.station st).state ≠ .down ∧
              (u.station st).layout = some d.layout ∧ (u.station st).order = some d.order))))

/-- R162, R163, R143, R144: Action Done, with its refusals. The record leaves the released set; a cut reported off its position
by more than the tolerance raises ACTION_OFF, and adds to the count of its order that its disposition names while the order
is in the window; a DROP lowers its station, a READY one changing no tool or web, and one that is neither READY nor DOWN
opening TOOL_LOST at L + D and losing its moves (R143); a LIFT of a DOWN station makes it IDLE, or begins the setup of its
demand, and closes TOOL_LOST at L + D, and one of any other station changes no station (R144); where the station also holds
a late swap and has a demand, that setup may insert web beside the closed claim. The acts of R163 follow, the first of them the
expiry test, which removes exactly the extents of R25. That an IDLE station
is lowered as a SETTING or FAILED one is the model's reading (log 24). -/
def Obligations.ActionDoneExecutesTheRecord : Prop := Rule.ActionDone ∧ Rule.Expiry

/-- R169: Quality Reject counts the released cuts whose span meets the stretch, and those among them released GOOD, inserts
the stretch with cause QUALITY, and replies with the counts; an empty stretch, or one beyond 2^40 - 1, is refused RANGE. -/
def Obligations.QualityRejectInsertsTheStretch : Prop :=
  ∀ (p : Port) (tag : Byte) (a b : Nat) (s : State), Heard s p 0x22 →
    let meets := fun (r : ActionRec) => r.kind == .cut && (match r.sheetStart with
      | some x => decide (x < (b : Int) ∧ (a : Int) < r.position)
      | none => false)
    let covered := s.dry.released.filter meets
    let good := covered.filter fun r => r.disposition == some .good
    (b ≤ a ∨ 2 ^ 40 - 1 < b → s.work = [] →
      exec (.qualityReject p tag a b) s = .next (s.withFrame p (refusedFrame 0x22 tag 7))) ∧
    (a < b → b ≤ 2 ^ 40 - 1 → ∃ u : State, exec (.qualityReject p tag a b) s = .next u.settled ∧
      JoinedBy s u p (doneFrame 0x22 tag [BitVec.ofNat 8 covered.length, BitVec.ofNat 8 good.length]) ∧
      (∃ y ∈ u.map.track, Cause.quality ∈ y.causes ∧ ∀ q : Pos, (a : Int) < q → q ≤ (b : Int) → y.holds q) ∧
      u.map.lanes = s.map.lanes ∧ u.map.zoneTaken = s.map.zoneTaken ∧
      { u with map := s.map, ports := s.ports, work := s.work } = s)

/-! ### Slitter-scorer stations (06) -/

/-- R131: a feasible assignment gives the positions in order, one to each in-service tool, until they are used up; a tool that
is OUT is given none. -/
def Obligations.AssignmentGivesPositionsInOrder : Prop :=
  ∀ (ts : List Tool) (ps : List Nat), ps.length ≤ inService ts →
    (assign ts ps).length = ts.length ∧ (assign ts ps).filterMap (fun x => x) = ps ∧
    (∀ (n : Nat) (t : Tool), ts[n]? = some t → t.state = .out → (assign ts ps)[n]? = some none) ∧
    (∀ (n m : Nat) (t : Tool), n ≤ m → ts[n]? = some t → t.state ≠ .out → (assign ts ps)[n]? = some none →
      ∀ x, (assign ts ps)[m]? = some x → x = none)

/-- R136, R137, R138: Tool Placed, with its refusals. Within the tolerance the tool is PLACED and its move leaves the list, the
station becoming READY with PASS and SETUP_DONE when it was SETTING and owes no other move; outside it the move is entered
again, or, at the last attempt, the tool is OUT with TOOL_OUT raised, and the assignment of the held layout is computed again
(R137, what that does being stated with Tool Out). That a tool retired so keeps its attempts, the failed
one counted, is the model's reading (log 23). -/
def Obligations.ToolPlacedIsJudged : Prop :=
  ∀ (p : Port) (tag : Byte) (sc kc n m : Nat) (s : State), Heard s p 0x24 →
    let named := fun (st : Station) (k : ToolKind) (t : Tool) => Station.ofCode? sc = some st ∧ ToolKind.ofCode? kc = some k ∧
      1 ≤ n ∧ n ≤ k.tools ∧ s.tool? st k n = some t
    ((∀ st k t, ¬ named st k t) ∨ 28000 < m → s.work = [] →
      exec (.toolPlaced p tag sc kc n m) s = .next (s.withFrame p (refusedFrame 0x24 tag 7))) ∧
    (∀ st k t, named st k t → m ≤ 28000 →
      (t.state ≠ .moving → s.work = [] →
        exec (.toolPlaced p tag sc kc n m) s = .next (s.withFrame p (refusedFrame 0x24 tag 3))) ∧
      (∀ x, t.state = .moving → t.target = some x →
        ∃ u : State, exec (.toolPlaced p tag sc kc n m) s = .next u.settled ∧ JoinedBy s u p (doneFrame 0x24 tag []) ∧
          (m ≤ x + s.profile.slitter.placeTolerance → x ≤ m + s.profile.slitter.placeTolerance →
            u.tool? st k n = some { t with state := .placed, measured := some m } ∧
            u.slitter.moves = s.slitter.moves.filter (fun e => !e.isFor st k n) ∧
            ((s.station st).state = .setting → (s.station st).late = none →
              (∀ j n' t', (j, n') ≠ (k, n) → s.tool? st j n' = some t' → t'.state ≠ .moving) →
              (u.station st).state = .ready ∧ (u.station st).current = .pass ∧
              ((s.port .dry).classes.length = 10 → (u.port .dry).rawOf 5 = true))) ∧
          (¬ (m ≤ x + s.profile.slitter.placeTolerance ∧ x ≤ m + s.profile.slitter.placeTolerance) →
            (t.attempts + 1 < s.profile.slitter.placeAttempts →
              u.tool? st k n = some { t with attempts := t.attempts + 1, measured := some m } ∧
              u.slitter.moves = s.slitter.moves.filter (fun e => !e.isFor st k n) ++ [⟨st, k, n, x, t.attempts + 2, false⟩] ∧
              (u.station st).state = (s.station st).state) ∧
            (s.profile.slitter.placeAttempts ≤ t.attempts + 1 →
              u.tool? st k n = some
                { state := .out, target := none, attempts := t.attempts + 1, measured := some m } ∧
              (∀ e ∈ u.slitter.moves, e.isFor st k n = false) ∧
              ((s.port .dry).classes.length = 10 → (u.port .dry).rawOf 7 = true) ∧
              u = (((((s.withFrame p (doneFrame 0x24 tag [])).modifyTool st k n fun t =>
                { t with state := .out, target := none, attempts := t.attempts + 1, measured := some m }).dropMoves
                  fun e => e.isFor st k n).raise .toolOut).reassignHeld st).replan))))

/-- R133: a setup starts. The layout is failed where a kind has fewer tools in service than positions; otherwise every tool in
service that the assignment of R131 gives a position is PLACED where it was measured within the tolerance of it, and MOVING
with an entry where not, and every other one is PARKED; a station that owes no move is READY at once (R138). -/
def Rule.SetupStart : Prop :=
  ∀ (s : State) (st : Station) (d : Demand),
    let r := s.station st
    let tolerance := s.profile.slitter.placeTolerance
    let t := s.startSetup st d
    let fits := d.layout.slits.length ≤ inService r.slits ∧ d.layout.scores.length ≤ inService r.scores
    (t.station st).previous = r.current ∧ (t.station st).layout = some d.layout ∧ (t.station st).order = some d.order ∧
    t.station st.other = s.station st.other ∧
    t.slitter.moves.filter (fun e => e.station != st) = s.slitter.moves.filter (fun e => e.station != st) ∧
    (¬ fits → (t.station st).state = .failed ∧ (t.station st).current = .fail ∧
      (∀ e ∈ t.slitter.moves, e.station ≠ st) ∧ (∀ k n x, t.tool? st k n = some x → x.state ≠ .moving) ∧
      ((s.port .dry).classes.length = 10 → (t.port .dry).rawOf 6 = true)) ∧
    (fits →
      (∀ k n x, s.tool? st k n = some x → x.state = .out → t.tool? st k n = some x) ∧
      (∀ k n x given, s.tool? st k n = some x → x.state ≠ .out →
        (assign (r.tools k) (d.layout.positions k))[n - 1]? = some given →
        (given = none → t.tool? st k n = some { x with state := .parked, target := none, attempts := 0 }) ∧
        (∀ y, given = some y →
          let stays := x.state = .placed ∧ ∃ m, x.measured = some m ∧ m ≤ y + tolerance ∧ y ≤ m + tolerance
          (stays → t.tool? st k n = some { x with target := some y, attempts := 0 }) ∧
          (¬ stays → t.tool? st k n = some { x with state := .moving, target := some y, attempts := 0 } ∧
            (⟨st, k, n, y, 1, false⟩ : MoveEntry) ∈ t.slitter.moves))) ∧
      ((∀ k n x, t.tool? st k n = some x → x.state ≠ .moving) →
        (t.station st).state = .ready ∧ (t.station st).current = .pass ∧
        ((s.port .dry).classes.length = 10 → (t.port .dry).rawOf 5 = true)) ∧
      ((∃ k n x, t.tool? st k n = some x ∧ x.state = .moving) →
        (t.station st).state = .setting ∧ (t.station st).current = .none ∧
        ((s.port .dry).classes.length = 10 → (t.port .dry).rawOf 4 = true)))

/-- R146: a late swap is taken for the DROP at an order's start, or for that of its replanned pair (R147), on a station that
holds none: the start is pinned, the DROP and its unreleased pair leave the pending plan, SLIT_NOT_READY opens at the order's
start, or the pair's X, and the late-swap record keeps the order, the old station and that position. -/
def Rule.SwapTakenLate : Prop :=
  ∀ (s : State) (st : Station) (id : Nat) (w : WindowOrder) (r : OrderRec), (s.station st).late = none →
    s.windowOrder? id = some w → s.order? id = some r →
    (∀ replanned,
      let t := s.takeLateSwap st id replanned
      t.station st = { s.station st with late := (t.station st).late } ∧ t.dry = s.dry ∧
      (s.idsDistinct → t.pinnedBefore id) ∧
      ((s.port .dry).classes.length = 10 → (t.port .dry).rawOf 8 = true)) ∧
    (let t := s.takeLateSwap st id false
      ∃ r' w', t.order? id = some r' ∧ t.windowOrder? id = some w' ∧
        (t.station st).late = some ⟨id, w.swap.oldStation, r'.p.getD 0⟩ ∧
        t.opensClaim .slitNotReady (.slitNotReady st) (r'.p.getD 0) ∧
        (∀ x, w'.swap.drop = some x → x.status ≠ .pending) ∧
        (∀ x ∈ w'.swap.lifts, w'.swap.paired x = true → x.status ≠ .pending)) ∧
    (∀ x, w.swap.kind = .boundary → w.swap.drop.map SwapRec.station = some st → w.swap.lifts = [x] → x.station ≠ st →
      w.swap.oldStation = if x.status = .pending then some x.station else none) ∧
    (∀ pair, w.replan = some pair →
      let t := s.takeLateSwap st id true
      ∃ w' pair', t.windowOrder? id = some w' ∧ w'.replan = some pair' ∧ w'.swap = w.swap ∧
        (∃ old, (t.station st).late = some ⟨id, old, pair.x⟩ ∧
          (∀ x, pair.lift = some x → old = if x.status = .pending then some x.station else none) ∧
          (pair.lift = none → old = none)) ∧
        t.opensClaim .slitNotReady (.slitNotReady st) pair.x ∧ pair'.x = pair.x ∧ pair'.drop.status ≠ .pending ∧
        ∀ x, pair'.lift = some x → x.status ≠ .pending)

/-- R147, R148: a late swap whose station is READY with its order's layout is settled: its pair is planned again at the first
cut that leaves swap_lead before station A, where SLIT_NOT_READY closes and the double-slit span of a swap from B to A is
inserted; with no such cut it lapses at the order's end. On any other station nothing happens. -/
def Rule.SwapSettled : Prop :=
  ∀ (s : State) (st : Station) (l : LateSwap), (s.station st).late = some l →
    let t := s.settleSwap st
    let ready := (s.station st).state = .ready ∧
      ∃ r, s.order? l.order = some r ∧ (s.station st).layout = some r.fig.layout
    (¬ ready → t = s) ∧
    (∀ r, ready → s.order? l.order = some r →
      let cut := fun n => cutPosition (r.p.getD 0) r.fig.sf n
      let reaches := fun n => s.knife + s.profile.line.swapLead ≤ cut n - s.profile.slitter.dA
      t.station st = { s.station st with late := none } ∧ t.dry = s.dry ∧
      (∀ y ∈ t.map.track, Claim.slitNotReady st ∉ y.claims) ∧
      (∀ n k, r.n = some k → 1 ≤ n → n ≤ k → reaches n → (∀ m, 1 ≤ m → m < n → ¬ reaches m) →
        (∀ w, t.windowOrder? l.order = some w →
          w.replan = some ⟨cut n, { station := st }, l.old.map fun o => { station := o }⟩) ∧
        (¬ (st = .a ∧ l.old = some .b) → s.closedAt t (.slitNotReady st) (cut n)) ∧
        (st = .a → l.old = some .b → t.covers .doubleSlit (cut n) (cut n + s.doubleSlitLength))) ∧
      ((∀ n k, r.n = some k → 1 ≤ n → n ≤ k → ¬ reaches n) →
        (∀ w, t.windowOrder? l.order = some w → w.lapsed = true) ∧
        (s.part = .tracking → s.work = [] → lastRecompute t.work = [.recompute]) ∧
        s.closedAt t (.slitNotReady st) (r.e.getD l.position)))

/-- R148: the lapse test. A late swap lapses once the order's end less D_A comes before L + swap_lead. The recomputation comes
next, which plans the DROP of R149, and the station's demand is set anew behind it (R130). -/
def Rule.SwapLapse : Prop :=
  ∀ (s : State) (st : Station),
    let t := s.lapseTest st
    ((s.station st).late = none → t = s) ∧
    (∀ l r, (s.station st).late = some l → s.order? l.order = some r →
      let gone := r.e.getD 0 - s.profile.slitter.dA < s.knife + s.profile.line.swapLead
      (¬ gone → t = s) ∧
      (gone → t.station st = { s.station st with late := none } ∧
        (s.part = .tracking → s.work = [] → lastRecompute t.work = [.recompute]) ∧
        (∀ w, t.windowOrder? l.order = some w → w.lapsed = true) ∧
        s.closedAt t (.slitNotReady st) (r.e.getD l.position)))

/-- R140, R141: Tool Out and Tool In, with their refusals. -/
def Rule.ToolService : Prop :=
  ∀ (p : Port) (tag : Byte) (sc kc n : Nat) (s : State),
    let named := fun (st : Station) (k : ToolKind) (t : Tool) => Station.ofCode? sc = some st ∧ ToolKind.ofCode? kc = some k ∧
      1 ≤ n ∧ n ≤ k.tools ∧ s.tool? st k n = some t
    (Heard s p 0x25 →
      ((∀ st k t, ¬ named st k t) → s.work = [] →
        exec (.toolOut p tag sc kc n) s = .next (s.withFrame p (refusedFrame 0x25 tag 7))) ∧
      (∀ st k t, named st k t → t.state = .out → s.work = [] →
        exec (.toolOut p tag sc kc n) s = .next (s.withFrame p (refusedFrame 0x25 tag 3))) ∧
      (∀ st k t, named st k t → t.state ≠ .out →
        ∃ u : State, exec (.toolOut p tag sc kc n) s = .next u.settled ∧ JoinedBy s u p (doneFrame 0x25 tag []) ∧
          u.tool? st k n = some { t with state := .out, target := none, attempts := 0 } ∧
          (∀ e ∈ u.slitter.moves, e.isFor st k n = false) ∧
          ((s.station st).state = .down → t.assigned = true →
            (u.station st).state = .down ∧
            u.opensClaim .toolLost (.toolLost st) (s.knife + s.stationDistance st)) ∧
          ((s.station st).state = .idle ∨ (s.station st).state = .failed →
            (u.station st).state = (s.station st).state ∧ u.map = s.map) ∧
          (let v := ((s.withFrame p (doneFrame 0x25 tag [])).modifyTool st k n fun t =>
              { t with state := .out, target := none, attempts := 0 }).dropMoves fun e => e.isFor st k n;
            ((s.station st).state = .setting → u = (v.reassignHeld st).replan) ∧
            ((s.station st).state = .ready → t.assigned = false → u = v.replan) ∧
            ((s.station st).state = .ready → t.assigned = true →
              ((s.station st).demand = none → u = (v.reassignHeld st).replan) ∧
              (∀ d, (s.station st).demand = some d → u = (v.startSetup st d).replan))))) ∧
    (Heard s p 0x26 →
      ((∀ st k t, ¬ named st k t) → s.work = [] →
        exec (.toolIn p tag sc kc n) s = .next (s.withFrame p (refusedFrame 0x26 tag 7))) ∧
      (∀ st k t, named st k t → t.state ≠ .out → s.work = [] →
        exec (.toolIn p tag sc kc n) s = .next (s.withFrame p (refusedFrame 0x26 tag 3))) ∧
      (∀ st k t, named st k t → t.state = .out →
        ((s.station st).state ≠ .failed ∨ (s.station st).demand = none →
          ∃ u : State, exec (.toolIn p tag sc kc n) s = .next u.settled ∧ JoinedBy s u p (doneFrame 0x26 tag []) ∧
            u.tool? st k n = some {} ∧ u.slitter.moves = s.slitter.moves ∧
            (u.station st).state = (if (s.station st).state = .failed then .idle else (s.station st).state) ∧
            u.map = s.map) ∧
        (∀ d, (s.station st).state = .failed → (s.station st).demand = some d →
          ∃ u : State, exec (.toolIn p tag sc kc n) s = .next u.settled ∧ JoinedBy s u p (doneFrame 0x26 tag []) ∧
            (u.station st).layout = some d.layout ∧ (u.station st).order = some d.order)))

/-- R137, R140: the assignment of the held layout computed again after a tool has left service. It is failed where a kind has
fewer tools in service than positions. Otherwise a tool whose target is unchanged keeps its state, attempts and entry, one newly
without a position is PARKED, and any other is PLACED where it was measured within the tolerance of its new position, and MOVING
with a new entry where not. A station that owes a move is SETTING; one that was SETTING and owes none is READY with SETUP_DONE
(R138), and any other stays as it is. That a tool that becomes UNKNOWN keeps its attempts is the model's reading (log 23), and
that one PARKED here has attempts 0 is its choice (log 60). -/
def Rule.Reassignment : Prop :=
  ∀ (s : State) (st : Station),
    let r := s.station st
    let tolerance := s.profile.slitter.placeTolerance
    let t := s.reassignHeld st
    let entries := fun (u : State) k n => u.slitter.moves.filter fun e => e.isFor st k n
    (r.layout = none → t = s) ∧
    (∀ l, r.layout = some l →
      let fits := l.slits.length ≤ inService r.slits ∧ l.scores.length ≤ inService r.scores
      (t.station st).layout = some l ∧ (t.station st).order = r.order ∧ (t.station st).demand = r.demand ∧
      t.station st.other = s.station st.other ∧
      t.slitter.moves.filter (fun e => e.station != st) = s.slitter.moves.filter (fun e => e.station != st) ∧
      (¬ fits → (t.station st).state = .failed ∧ (t.station st).current = .fail ∧ (∀ e ∈ t.slitter.moves, e.station ≠ st) ∧
        (∀ k n x, s.tool? st k n = some x →
          t.tool? st k n = some (if x.state = .moving then { x with state := .unknown, target := none } else x)) ∧
        ((s.port .dry).classes.length = 10 → (t.port .dry).rawOf 6 = true)) ∧
      (fits →
        (∀ k n x, s.tool? st k n = some x → x.state = .out → t.tool? st k n = some x ∧ entries t k n = []) ∧
        (∀ k n x given, s.tool? st k n = some x → x.state ≠ .out →
          (assign (r.tools k) (l.positions k))[n - 1]? = some given →
          (given = none → t.tool? st k n = some { x with state := .parked, target := none, attempts := 0 } ∧
            entries t k n = []) ∧
          (∀ y, given = some y →
            let kept := (x.state = .moving ∨ x.state = .placed) ∧ x.target = some y
            let stays := x.state = .placed ∧ ∃ m, x.measured = some m ∧ m ≤ y + tolerance ∧ y ≤ m + tolerance
            (kept → t.tool? st k n = some x ∧ (x.state = .moving → entries t k n = entries s k n)) ∧
            (¬ kept → stays → t.tool? st k n = some { x with target := some y, attempts := 0 } ∧ entries t k n = []) ∧
            (¬ kept → ¬ stays → t.tool? st k n = some { x with state := .moving, target := some y, attempts := 0 } ∧
              entries t k n = [⟨st, k, n, y, 1, false⟩]))) ∧
        ((∃ k n x, t.tool? st k n = some x ∧ x.state = .moving) → (t.station st).state = .setting ∧
          (t.station st).current = r.current ∧ (t.station st).late = r.late) ∧
        ((∀ k n x, t.tool? st k n = some x → x.state ≠ .moving) →
          (r.state = .setting → (t.station st).state = .ready ∧ (t.station st).current = .pass ∧
            ((s.port .dry).classes.length = 10 → (t.port .dry).rawOf 5 = true)) ∧
          (r.state ≠ .setting → (t.station st).state = r.state ∧ (t.station st).current = r.current ∧
            t.ports = s.ports ∧ t.work = s.work))))

/-- R130, R151: a station's demand set anew, which a recomputation makes due for both stations: in TRACKING the first order of
the window for which a drop of the station is still to come, a DROP of its swap or its replanned pair that is pending or
released, or its late swap; a change of it is acted on. In SETUP there is none to set. -/
def Rule.DemandSet : Prop :=
  ∀ (s : State) (st : Station),
    let t := s.setDemand st
    let comes := fun w : WindowOrder =>
      (∃ x, w.swap.drop = some x ∧ x.station = st ∧ x.status = .pending) ∨
      (∃ pair, w.replan = some pair ∧ pair.drop.station = st ∧ pair.drop.status = .pending) ∨
      (∃ r ∈ s.dry.released, r.kind = .drop ∧ r.station = some st ∧ r.order = w.id) ∨
      (∃ x, (s.station st).late = some x ∧ x.order = w.id)
    (s.part = .setup → t = s) ∧
    (s.part = .tracking → Task.demand st ∈ s.recompute.work) ∧
    (∀ new : Option Demand, s.part = .tracking →
      (new = none ∧ (∀ l ∈ s.lines, ¬ comes l.w)) ∨ (∃ before l after, s.lines = before ++ l :: after ∧ comes l.w ∧
        (∀ m ∈ before, ¬ comes m.w) ∧ new = some ⟨l.w.id, l.r.fig.layout⟩) →
      (new = (s.station st).demand → t = s) ∧
      (new ≠ (s.station st).demand → t = (s.setStation st { s.station st with demand := new }).demandChanged st new))

/-- R132, R139: what a change of a station's demand does. An IDLE or FAILED station that gains one, and a SETTING or READY one
whose layout does not serve it, starts a setup; a SETTING one whose layout serves it goes on, and a READY one counts it as a
repeat-layout setup; without a demand a setup is abandoned, a FAILED station becomes IDLE, and a READY or IDLE one stays. A
DOWN station is not changed. That the setup then counts as begun for the new order (log 28), and that a tool that becomes
UNKNOWN keeps its attempts (log 23), are the model's readings. -/
def Rule.DemandChange : Prop :=
  ∀ (s : State) (st : Station),
    let r := s.station st
    (∀ new, r.state = .down → s.demandChanged st new = s) ∧
    (let t := s.demandChanged st none;
      (r.state = .idle ∨ r.state = .ready → t = s) ∧
      (r.state = .failed → t = s.setStation st { r with state := .idle }) ∧
      (r.state = .setting →
        t.station st = { r with state := .idle, slits := (t.station st).slits, scores := (t.station st).scores } ∧
        (∀ k n x, s.tool? st k n = some x →
          t.tool? st k n = some (if x.state = .moving then { x with state := .unknown, target := none } else x)) ∧
        t.slitter.moves = s.slitter.moves.filter (fun e => e.station != st) ∧
        t.station st.other = s.station st.other ∧ { t with slitter := s.slitter } = s)) ∧
    (∀ d,
      let t := s.demandChanged st (some d)
      let begun := fun (u : State) => ∀ w, s.windowOrder? d.order = some w → u.windowOrder? d.order = some { w with setupOn := some st }
      (r.state = .idle ∨ r.state = .failed → t = s.startSetup st d) ∧
      (r.state = .setting ∨ r.state = .ready → r.layout ≠ some d.layout → t = s.startSetup st d) ∧
      (r.state = .setting → r.layout = some d.layout → begun t ∧
        t = { s.setStation st { r with order := some d.order } with plan := t.plan }) ∧
      (r.state = .ready → r.layout = some d.layout → ∃ u : State, begun u ∧
        u = { s.setStation st { r with order := some d.order, previous := r.current, current := .pass } with plan := u.plan } ∧
        t = (u.raise .setupDone).settleSwap st))

/-- R140, R141: Tool Out and Tool In, with their refusals. A tool goes OUT with its target absent, its attempts 0 and its move
gone; a tool that returns is UNKNOWN with nothing measured, and a FAILED station without a demand becomes IDLE, one with a
demand begins its setup. Then the assignment computed again after a tool has left service (R137); a station's demand set anew
(R130) and what a change of it does (R132, R139); the start of a setup (R133); and what becomes of a swap whose station is not
ready: taken late (R146), planned again (R147), lapsed (R148). Which LIFT is a DROP's pair (log 15), that a tool that becomes
UNKNOWN keeps its attempts (log 23), and that a setup that goes on for a new demand counts as begun for it (log 28), are the
model's readings; that a tool PARKED at a recomputed assignment has attempts 0 (log 60) is its choice. -/
def Obligations.ToolsLeaveAndReturnToService : Prop :=
  Rule.ToolService ∧ Rule.Reassignment ∧ Rule.DemandSet ∧ Rule.DemandChange ∧ Rule.SetupStart ∧ Rule.SwapTakenLate ∧
    Rule.SwapSettled ∧ Rule.SwapLapse

/-! ### The order book (03) and the planner (04) -/

/-- R47: Add Order, its checks in their order, and the record appended with the figures given and the initial values of R46. In
SETUP that is all; in TRACKING the planner is offered the order: `u`, the state before the acts that follow, differs from `s` in
the reply, the record and the recomputation that is due (R69, log 8). The figures of the book are those before with the new ones
behind. -/
def Obligations.AddOrderAppendsTheRecord : Prop :=
  ∀ (p : Port) (tag : Byte) (o : RawOrder) (s : State), Heard s p 0x01 → s.work = [] →
    let no := fun cause => exec (.addOrder p tag o) s = .next (s.withFrame p (refusedFrame 0x01 tag cause))
    let held := ∃ r ∈ s.book, r.fig.id = o.id
    (32 ≤ s.book.length → no 6) ∧
    (s.book.length < 32 → held → no 5) ∧
    (s.book.length < 32 → ¬ held → figuresInRange o = false → no 7) ∧
    (s.book.length < 32 → ¬ held → figuresInRange o = true → s.profile.formatPasses (figuresOf o) = false → no 1) ∧
    (s.book.length < 32 → ¬ held → figuresInRange o = true → s.profile.formatPasses (figuresOf o) = true →
      (let u : State := { s.withFrame p (doneFrame 0x01 tag [BitVec.ofNat 8 s.book.length]) with
          book := s.book ++ [{
            fig := figuresOf o, phase := .queued, pinned := false, blocked := .none, station := none, p := none, e := none
            n := none, gap := none, wasteBefore := 0, rejects := some 0, counts := {}, result := none }]
          work := if s.part = .tracking then [.recompute] else [] };
        exec (.addOrder p tag o) s = .next u.settled ∧ (s.part = .setup → u.settled = u)) ∧
      ((s.book.map fun r => r.fig.id).Nodup → ∃ t, exec (.addOrder p tag o) s = .next t ∧
        JoinedBy s t p (doneFrame 0x01 tag [BitVec.ofNat 8 s.book.length]) ∧
        t.book.map OrderRec.fig = s.book.map OrderRec.fig ++ [figuresOf o] ∧ t.lmu = s.lmu ∧ t.profile = s.profile ∧
        t.part = s.part ∧ ∀ x arm, (t.arm x arm).stand = (s.arm x arm).stand))

/-- R45: the ranges of the figures of an Add Order. R48: an order passes the format test when neighbouring positions of each
kind lie at least the kind's least spacing apart, it has a grade on exactly the active streams, and its sheet is no longer
than H. -/
def Obligations.OrderFiguresAreInRange : Prop :=
  (∀ o : RawOrder, figuresInRange o = true ↔
    1 ≤ o.id ∧ o.id ≤ 4294967295 ∧
    o.grade1 ≤ 255 ∧ o.grade2 ≤ 255 ∧ o.grade3 ≤ 255 ∧ o.grade4 ≤ 255 ∧ o.grade5 ≤ 255 ∧
    (o.grade1 ≠ 0 ∨ o.grade2 ≠ 0 ∨ o.grade3 ≠ 0 ∨ o.grade4 ≠ 0 ∨ o.grade5 ≠ 0) ∧
    48000 ≤ o.sf ∧ o.sf ≤ 1280000 ∧ 1 ≤ o.t ∧ o.t ≤ 999999 ∧ o.a ≤ 9999 ∧ o.m ≤ 255 ∧ 1 ≤ o.q ∧ o.q ≤ 9999 ∧
    2 ≤ o.layout.slitCount ∧ o.layout.slitCount ≤ 8 ∧ o.layout.scoreCount ≤ 10 ∧
    (∀ x ∈ (figuresOf o).layout.slits ++ (figuresOf o).layout.scores, x ≤ 28000) ∧
    (figuresOf o).layout.slits.Pairwise (· < ·) ∧ (figuresOf o).layout.scores.Pairwise (· < ·)) ∧
  (∀ (p : Profile) (f : OrderFigures), p.formatPasses f = true ↔
    f.layout.slits.Pairwise (fun x y => x + p.slitter.minSlitSpacing ≤ y) ∧
    f.layout.scores.Pairwise (fun x y => x + p.slitter.minScoreSpacing ≤ y) ∧
    (∀ x, f.grades.get x ≠ 0 ↔ (p.streams.get x).active = true) ∧ (f.sf + 15) / 16 ≤ p.line.h)

/-- R51, R52: Amend Order. A record that is CUTTING, CLOSED, CANCELLED, or PLANNED with its end PINNED is refused FROZEN (where
it carries nothing by the model's choice, log 54), as is a lowered T, A or M of a PLANNED one, or a layout whose setup has
begun; figures carried for a QUEUED order, or a PLANNED one whose end is OPEN, that pass the checks are written, the others
keep their values, and the blocked cause returns to NONE; the layout of a PLANNED order must also fit the station it would be
given (R53). -/
def Obligations.AmendOrderWritesCarriedFigures : Prop :=
  ∀ (p : Port) (tag : Byte) (x : RawAmend) (s : State), Heard s p 0x02 → s.work = [] →
    let no := fun cause => exec (.amendOrder p tag x) s = .next (s.withFrame p (refusedFrame 0x02 tag cause))
    let inRange := (x.hasT = true → 1 ≤ x.t ∧ x.t ≤ 999999) ∧ (x.hasA = true → x.a ≤ 9999) ∧ (x.hasM = true → x.m ≤ 255) ∧
      (x.hasQ = true → 1 ≤ x.q ∧ x.q ≤ 9999) ∧ (x.hasLayout = true → layoutInRange x.layout = true)
    let lay := layoutOf x.layout
    let yes := fun (r : OrderRec) (st : Option Station) =>
      ∃ u : State, exec (.amendOrder p tag x) s = .next u.settled ∧ JoinedBy s u p (doneFrame 0x02 tag []) ∧
        u.order? x.id = some { r with
          blocked := .none, station := st
          fig := { r.fig with
            t := if x.hasT = true then x.t else r.fig.t, a := if x.hasA = true then x.a else r.fig.a
            m := if x.hasM = true then x.m else r.fig.m, q := if x.hasQ = true then x.q else r.fig.q
            layout := if x.hasLayout = true then lay else r.fig.layout } } ∧
        (∀ id, id ≠ x.id → u.order? id = s.order? id) ∧
        { u with book := s.book, ports := s.ports, work := s.work } = s
    ((∀ r ∈ s.book, r.fig.id ≠ x.id) → no 4) ∧
    (∀ r, s.order? x.id = some r → ¬ inRange → no 7) ∧
    (∀ r, s.order? x.id = some r → inRange →
      let lowers := (x.hasT = true ∧ x.t < r.fig.t) ∨ (x.hasA = true ∧ x.a < r.fig.a) ∨ (x.hasM = true ∧ x.m < r.fig.m)
      let begun := x.hasLayout = true ∧ ∃ l ∈ s.lines, l.w.id = x.id ∧ l.w.setupOn ≠ none ∧ l.w.setupOn = l.r.station
      let fits := x.hasLayout = true → s.profile.spacingPasses lay = true ∧
        ∀ l ∈ s.lines, l.w.id = x.id → (s.station (s.stationFor l lay)).canPlace lay = true
      (r.phase = .cutting ∨ r.phase = .closed ∨ r.phase = .cancelled ∨ (r.phase = .planned ∧ r.pinned = true) → no 8) ∧
      (r.phase = .planned → lowers ∨ begun → no 8) ∧
      (r.phase = .queued → s.windowOrder? x.id = none →
        (x.hasLayout = true → s.profile.spacingPasses lay = false → no 1) ∧
        ((x.hasLayout = true → s.profile.spacingPasses lay = true) → yes r none)) ∧
      (r.phase = .planned → r.pinned = false → ¬ lowers → ¬ begun → (¬ fits → no 1) ∧ (fits → yes r r.station)))

/-- R56, R90, R84: an order leaves the window by a cancel, its start not pinned. Its successor takes its gap before and
waste-before, and its start, which is the end of the order now before it plus that gap; the boundary at its start is new, with
no target spent, no trigger fired and no span inserted, and its station and swap are chosen against the order now before it. The
PLANNED targets of the two dissolved boundaries leave their slots, and every other slot keeps its splice. With no successor W0
follows the end of the new last order. A recomputation is due. -/
def Rule.CancelReplans : Prop :=
  ∀ (s : State) (id : Nat) (before rest : List Line) (j c : Line), s.idsDistinct → s.lines = before ++ j :: c :: rest → c.w.id = id →
    let t := s.cancelUnpinned id
    let dissolved := fun v : Slot => v.state = .planned ∧ v.kind = .grade ∧ v.departed = false ∧
      ∃ i, v.boundary = some i ∧ (i = id ∨ ∃ k after, rest = k :: after ∧ i = k.w.id)
    (t.plan.window.map fun w => w.id) = (s.plan.window.map fun w => w.id).filter (· != id) ∧
    (∀ k after, rest = k :: after → ∃ rj r w, t.order? j.w.id = some rj ∧ t.order? k.w.id = some r ∧ t.windowOrder? k.w.id = some w ∧
      rj.fig = j.r.fig ∧ r.fig = k.r.fig ∧ r.phase = k.r.phase ∧ r.pinned = k.r.pinned ∧
      r.gap = c.r.gap ∧ r.wasteBefore = c.r.wasteBefore ∧
      (k.r.pinned = false → ∀ b, rj.e = some b → r.p = some (b + (c.r.gap.getD 0 : Nat)) ∧
        r.e = some (cutPosition (r.p.getD 0) r.fig.sf (r.n.getD 0))) ∧
      (k.r.pinned = true ∨ rj.e = none → r.p = c.r.p) ∧
      w = { k.w with
        targetSpent := ⟨false, false, false, false, false⟩, triggerFired := List.replicate 12 false, replan := none
        spanInserted := false, swap := w.swap } ∧
      (j.w.lapsed = false → ∀ st, rj.station = some st →
        (j.r.fig.layout = k.r.fig.layout → r.station = some st ∧ w.swap.drop = none ∧ w.swap.lifts = []) ∧
        (j.r.fig.layout ≠ k.r.fig.layout → r.station = some st.other ∧
          w.swap = { kind := .boundary, drop := some { station := st.other }, lifts := [{ station := st }] }))) ∧
    (rest = [] → ∀ r b, t.order? j.w.id = some r → r.e = some b → t.plan.w0 = b) ∧
    (∀ x v, (s.stream x).slot = some v →
      (dissolved v → (t.stream x).slot = none ∧ Task.slotFree x ∈ t.work) ∧
      (¬ dissolved v → ∃ v', (t.stream x).slot = some v' ∧
        v' = { v with boundaryPos := v'.boundaryPos, firePoint := v'.firePoint, commitPoint := v'.commitPoint })) ∧
    (s.part = .tracking → Task.recompute ∈ t.work) ∧ t.map = s.map ∧ t.slitter = s.slitter ∧ t.dry = s.dry ∧ t.ports = s.ports

/-- R55 to R57, R62: Cancel Order and Discard Order. -/
def Rule.CancelAndDiscard : Prop :=
  ∀ (p : Port) (tag : Byte) (id : Nat) (s : State),
    (Heard s p 0x03 →
      let no := fun cause => exec (.cancelOrder p tag id) s = .next (s.withFrame p (refusedFrame 0x03 tag cause))
      let yes := fun u : State => exec (.cancelOrder p tag id) s = .next u.settled ∧ JoinedBy s u p (doneFrame 0x03 tag [])
      (s.order? id = none → s.work = [] → no 4) ∧
      (∀ r, s.order? id = some r →
        (r.phase = .closed ∨ r.phase = .cancelled → s.work = [] → no 3) ∧
        (r.phase = .queued → ∃ u, yes u ∧ u.order? id = some { r with
          phase := .cancelled, blocked := .none, station := none
          result := some ⟨.cancelledByPlan, r.fig.t, 0⟩ } ∧
          { u with book := s.book, ports := s.ports, work := s.work } = s) ∧
        (r.phase = .planned → s.startPinned id = false → ∃ u, yes u ∧ u.order? id = some { r with
          phase := .cancelled, blocked := .none, station := none, p := none, e := none, n := none, gap := none
          rejects := none, wasteBefore := 0, result := some ⟨.cancelledByPlan, r.fig.t, 0⟩ } ∧
          u.windowOrder? id = none ∧ u = (s.withFrame p (doneFrame 0x03 tag [])).cancelUnpinned id) ∧
        (r.phase = .cutting ∨ (r.phase = .planned ∧ s.startPinned id = true) → ∃ u r', yes u ∧ u.order? id = some r' ∧
          r'.fig = r.fig ∧ r'.phase = .cancelled ∧ r'.counts = r.counts ∧
          r'.result = some ⟨.cancelledAfterStart, r.fig.t - r.counts.good, r.counts.good - r.fig.t⟩ ∧
          (u.plan.window.map fun w => w.id) = (s.plan.window.map fun w => w.id) ∧
          (r.pinned = true → r'.n = r.n ∧ r'.e = r.e) ∧ ((s.windowOrder? id).isSome = true → r'.pinned = true) ∧
          Task.close id ∈ u.work))) ∧
    (Heard s p 0x04 → s.work = [] →
      let no := fun cause => exec (.discardOrder p tag id) s = .next (s.withFrame p (refusedFrame 0x04 tag cause))
      (s.order? id = none → no 4) ∧
      (∀ r, s.order? id = some r →
        let finished := r.phase = .closed ∨ (r.phase = .cancelled ∧ s.windowOrder? id = none)
        (¬ finished → no 3) ∧
        (finished → exec (.discardOrder p tag id) s = .next { s.withFrame p (doneFrame 0x04 tag []) with
          book := s.book.filter fun r => r.fig.id != id })))

/-- R55 to R57, R62: Cancel Order and Discard Order, with their refusals. A QUEUED order is withdrawn; a PLANNED order whose start
is not pinned leaves the window with its plan; one whose start is pinned, or that is CUTTING, is cancelled after start and
keeps its place. A discarded record leaves the book, the others in their order. Then how the order that leaves the window is
replaced by its successor (R90). That the close test is made at the cancel after start too is the model's choice (log 69). -/
def Obligations.OrdersAreCancelledAndDiscarded : Prop := Rule.CancelAndDiscard ∧ Rule.CancelReplans

/-- R74: provisional extension of an OPEN order of the window keeps N from falling, between T and T + A, at the least sheet number
from N on that is no less than T + min(R, A) for the rejects R it counts over the sheets up to it, so that N stays where the
count asks no more, and sets E to C(N). -/
def Rule.ProvisionalExtension : Prop :=
  ∀ (s : State) (e : Option Pos) (spans : List (Pos × Pos)) (l : Line) (n : Nat), l.r.pinned = false → l.r.n = some n →
    l.r.fig.t ≤ n → n ≤ l.r.fig.t + l.r.fig.a →
    let l' := s.countLine e spans l
    ∃ n', l'.r.n = some n' ∧ n ≤ n' ∧ n' ≤ l.r.fig.t + l.r.fig.a ∧
      (let rejects := s.countRejects (spans ++ (s.plannedSpan l').toList) l'
        let enough := fun m => l.r.fig.t + min (rejects m) l.r.fig.a ≤ m
        l'.r.rejects = some (rejects n') ∧ enough n' ∧ (∀ m, n ≤ m → m < n' → ¬ enough m) ∧ (enough n → n' = n)) ∧
      l'.r.e = some (l'.cut n') ∧ l'.r.fig = l.r.fig ∧ (∀ b, e = some b → l'.r.p = some (b + (l.r.gap.getD 0 : Nat)))

/-- R73: R is the sum of the rejects released, those of the overruns, and the sheets whose cuts are still to come that an
extent or a planned double-slit span overlaps. -/
def Rule.RejectCount : Prop :=
  ∀ (s : State) (spans : List (Pos × Pos)) (l : Line) (n : Nat),
    let spoiled := fun k => s.overlapped (l.cut (k - 1)) (l.cut k) = true ∨ ∃ x ∈ spans, x.1 < l.cut k ∧ l.cut (k - 1) < x.2
    ∃ sheets : List Nat, sheets.Nodup ∧ (∀ k, k ∈ sheets ↔ l.w.cuts < k ∧ k ≤ n ∧ spoiled k) ∧
      s.countRejects spans l n = l.w.rejectsReleased + l.w.rejectsOverrun + sheets.length

/-- R76: the end of one order is pinned at the greater of N and T + min(R + M, A), counted at its final start, with M taken as
0 at pin point (f); pinning an order's end pins every earlier one and leaves the later ones as they are. -/
def Rule.Pin : Prop :=
  (∀ (s : State) (id : Nat) (withMargin : Bool) (l : Line), s.idsDistinct → l ∈ s.lines → l.w.id = id →
    let t := s.pinOne id withMargin
    (l.r.pinned = true → t = s) ∧
    (l.r.pinned = false → ∃ n rejects r, (s.countFinal l).r.n = some n ∧ (s.countFinal l).r.rejects = some rejects ∧
      t.order? id = some r ∧ r.fig = l.r.fig ∧ r.phase = l.r.phase ∧ r.counts = l.r.counts ∧ r.pinned = true ∧
      (let margin := if withMargin = true then l.r.fig.m else 0
        let final := max n (l.r.fig.t + min (rejects + margin) l.r.fig.a)
        r.n = some final ∧ r.e = some (cutPosition (r.p.getD 0) l.r.fig.sf final)) ∧
      (∀ k b, lineBefore id none s.lines = some k → k.r.e = some b → r.p = some (b + (l.r.gap.getD 0 : Nat))) ∧
      ((s.port .planning).classes.length = 12 → (t.port .planning).rawOf 1 = true))) ∧
  (∀ (s : State) (id : Nat) (withMargin : Bool), s.idsDistinct → (s.windowOrder? id).isSome = true →
    (s.pinEnd id withMargin).pinnedThrough id ∧
    ∀ before w rest, s.plan.window = before ++ w :: rest → w.id = id → ∀ v ∈ rest,
      ((s.pinEnd id withMargin).order? v.id).map OrderRec.pinned = (s.order? v.id).map OrderRec.pinned)

/-- R79: the required start is the greatest term of the streams that need a grade splice; where it, or the floor of R80, lies
beyond the end of the order before, that order's end is pinned and the gap is the least number of waste lengths that reaches
it. -/
def Rule.GapDecision : Prop :=
  ∀ (s : State) (prev : PrevFigures) (r : OrderRec),
    let term := fun x => s.freeCount x + (s.streamProfile x).commitLead + s.seamOffset x + s.profile.line.g
    let needs := fun x => (s.streamProfile x).active = true ∧ prev.grades.get x ≠ r.fig.grades.get x
    let req := s.requiredStart prev r
    let g := s.gapDecision prev r
    let wg : Int := s.profile.line.wg
    ((∀ x, ¬ needs x) → req = none) ∧
    (∀ x, needs x → ∃ b y, req = some b ∧ needs y ∧ b = term y ∧ ∀ z, needs z → term z ≤ b) ∧
    (s.minStart req ≤ s.plan.w0 → g = (s, 0)) ∧
    (s.plan.w0 < s.minStart req →
      (∀ before k, s.plan.window = before ++ [k] → g.1 = s.pinEnd k.id) ∧ (s.plan.window = [] → g.1 = s) ∧
      (0 < wg → g.1.minStart req ≤ g.1.plan.w0 + g.2 * wg ∧
        (g.2 = 0 ∨ g.1.plan.w0 + (g.2 - 1) * wg < g.1.minStart req)))

/-- R80: the free count of a stream is its counter, or, where that is more, the latest fire point of the grade splices in its slot
or waiting for it, for the boundaries of the window, plus the done window; which splices count is the model's reading (log 38).
The floor is W0 raised to the last waste cut released, and to L when the window is empty; B_min is the greater of the required
start and the floor (R79). -/
def Rule.FreeCountAndFloor : Prop :=
  (∀ (s : State) (x : Stream),
    let inSlot := fun (l : Line) (v : Slot) => (s.stream x).slot = some v ∧ v.kind = .grade ∧ v.departed = false ∧ v.boundary = some l.w.id
    let fires := fun f : Pos => ∃ l prev, (l, prev) ∈ s.boundaries ∧
      ((∃ v, inSlot l v ∧ v.state ≠ .fault ∧ f = v.firePoint) ∨
       ((∀ v, ¬ inSlot l v) ∧ (s.streamProfile x).active = true ∧ prev.grades.get x ≠ l.r.fig.grades.get x ∧
         l.w.targetSpent.get x = false ∧ f = l.start - s.profile.line.g - s.seamOffset x))
    ((∀ f, ¬ fires f) → s.freeCount x = s.streamPos x) ∧
    (∀ f, fires f → (∀ h, fires h → h ≤ f) →
      s.freeCount x = max (s.streamPos x) (f + (s.streamProfile x).doneWindow))) ∧
  (∀ (s : State),
    let floor := if s.plan.window = [] then max (max s.plan.w0 s.dry.cursor) s.knife else max s.plan.w0 s.dry.cursor
    s.minStart none = floor ∧ ∀ b, s.minStart (some b) = max b floor)

/-- R85: a boundary with a grade change has a trigger for each enabled entry at B - D_far - change_lead; of the triggers that L
has reached, the first by point and entry fires: the boundary is pinned, the entry's pending change is the order's id, and
STATION_CHANGE is raised. -/
def Rule.Triggers : Prop :=
  ∀ (s : State),
    (∀ point n id, (point, n, id) ∈ s.dueTriggers ↔ ∃ l prev e, (l, prev) ∈ s.boundaries ∧ l.w.id = id ∧
      (∃ x, (s.streamProfile x).active = true ∧ prev.grades.get x ≠ l.r.fig.grades.get x) ∧ 1 ≤ n ∧ n ≤ 12 ∧
      nth1 s.profile.entries n = some e ∧ e.enable = true ∧ nth1 l.w.triggerFired n ≠ some true ∧
      point = l.start - e.dFar - e.changeLead ∧ point ≤ s.knife) ∧
    (s.dueTriggers = [] → s.fireTrigger = s) ∧
    (∀ point n id, (point, n, id) ∈ s.dueTriggers →
      (∀ q m k, (q, m, k) ∈ s.dueTriggers → (q, m, k) = (point, n, id) ∨ point < q ∨ (point = q ∧ n < m)) →
      let t := s.fireTrigger
      (s.plan.pendingChange.length = 12 → nth1 t.plan.pendingChange n = some (some id)) ∧
      (∀ m, m ≠ n → nth1 t.plan.pendingChange m = nth1 s.plan.pendingChange m) ∧
      (∀ w, s.windowOrder? id = some w → w.triggerFired.length = 12 →
        ∃ w', t.windowOrder? id = some w' ∧ nth1 w'.triggerFired n = some true) ∧
      (s.idsDistinct → t.pinnedBefore id) ∧
      ((s.port .wet).classes.length = 13 → (t.port .wet).rawOf 8 = true))

/-- R70: the window is filled by the first QUEUED record of the book, or that record is blocked with cause FORMAT or HEADS. An
order that enters is counted from T upward and starts a whole number of waste lengths behind W0, the end of the order before
it as its gap decision leaves it (R78, R79); one placed without a predecessor starts at the first point of the waste grid of
W0 that is not less than W0, L and the last waste cut released (R78, log 12), and has the swap of R88. An order whose start L
has reached enters CUTTING at once (R49). -/
def Rule.Filling : Prop :=
  ∀ (s : State),
    let t := s.fillOne
    (6 ≤ s.plan.window.length ∨ (∀ r ∈ s.book, r.phase ≠ .queued) → t = s) ∧
    (∀ before after r, s.book = before ++ r :: after → (∀ x ∈ before, x.phase ≠ .queued) → r.phase = .queued →
      r.pinned = false → s.plan.window.length < 6 → s.idsDistinct → s.windowOrder? r.fig.id = none →
      let st := chooseStation s.entryPrev r.fig.layout
      let fits := (s.station st).canPlace r.fig.layout
      let blocked := fun (cause : Blocked) (station : Option Station) => t.order? r.fig.id = some { r with blocked := cause, station := station } ∧
        (r.blocked = .none → (s.port .planning).classes.length = 12 → (t.port .planning).rawOf 6 = true) ∧
        { t with book := s.book, ports := s.ports } = s
      (s.profile.formatPasses r.fig = false → blocked .format none) ∧
      (s.profile.formatPasses r.fig = true → fits = false → blocked .heads (some st)) ∧
      (s.profile.formatPasses r.fig = true → fits = true → ∃ r' w n,
        t.order? r.fig.id = some r' ∧ t.windowOrder? r.fig.id = some w ∧
        (t.plan.window.map fun v => v.id) = (s.plan.window.map fun v => v.id) ++ [r.fig.id] ∧
        r'.fig = r.fig ∧ r'.phase = (if r'.p.getD 0 ≤ s.knife then .cutting else .planned) ∧ r'.blocked = .none ∧ r'.station = some st ∧
        r'.gap = some (r'.wasteBefore * s.profile.line.wg) ∧
        (let taken := State.watchQueued s (s.modifyOrder r.fig.id fun r =>
            { r with phase := .planned, blocked := .none, station := some st })
          let g := taken.entryGap r s.entryPrev
          r'.wasteBefore = g.2 ∧ r'.p = some (g.1.plan.w0 + (g.2 * s.profile.line.wg : Nat)) ∧
          (∀ prev, s.entryPrev = some prev → g = taken.gapDecision prev r) ∧
          (s.entryPrev = none → 0 < s.profile.line.wg →
            let least := max s.knife (max s.plan.w0 s.dry.cursor)
            ∀ b, r'.p = some b → g.1.plan.w0 = s.plan.w0 ∧ least ≤ b ∧ (b = s.plan.w0 ∨ b - s.profile.line.wg < least))) ∧
        r'.n = some n ∧ r.fig.t ≤ n ∧ n ≤ r.fig.t + r.fig.a ∧
        r'.e = some (cutPosition (r'.p.getD 0) r.fig.sf n) ∧
        (s.entryPrev = none → w.swap.drop.map SwapRec.station = some .a ∧
          w.swap.lifts.map SwapRec.station = [Station.a, .b].filter fun x => (s.station x).state == .down) ∧
        ((s.port .planning).classes.length = 12 → (t.port .planning).rawOf 0 = true ∧
          (r'.phase = .cutting → (t.port .planning).rawOf 3 = true))))

/-- R87, R88, R149: an order keeps its station once a LIFT or DROP of the swap at its start has been released. Until then it
takes its predecessor's station where the layouts are identical, without a swap, and otherwise the other one, with a DROP of
its own station and a LIFT of its predecessor's. Behind a lapsed order there are a DROP of its station and a LIFT of each DOWN
station. The records stand at the start less the station's distance. -/
def Rule.Swaps : Prop :=
  (∀ (s : State) (l : Line) (prev : PrevFigures),
    let l' := s.replanLine (some prev) l
    (l.w.swapReleased = true → l'.r.station = some (l.r.station.getD .a) ∧ (prev.lapsed = false → l'.w.swap = l.w.swap)) ∧
    (l.w.swapReleased = false → prev.layout = l.r.fig.layout → l'.r.station = some prev.station) ∧
    (l.w.swapReleased = false → prev.layout ≠ l.r.fig.layout → l'.r.station = some prev.station.other) ∧
    (l.w.swapReleased = false → prev.lapsed = false →
      (prev.layout = l.r.fig.layout → l'.w.swap.drop = none ∧ l'.w.swap.lifts = []) ∧
      (prev.layout ≠ l.r.fig.layout → l'.w.swap.drop.map SwapRec.station = some prev.station.other ∧
        l'.w.swap.lifts.map SwapRec.station = [prev.station])) ∧
    (prev.lapsed = true → l.w.swap = {} → l'.w.swap.drop.map SwapRec.station = l'.r.station ∧
      l'.w.swap.lifts.map SwapRec.station = [Station.a, .b].filter fun x => (s.station x).state == .down)) ∧
  (∀ (s : State) (l : Line) (p : PendingRec) (st : Station), l.w.replan = none → p ∈ s.moveRecs l → p.station = some st →
    p.order = l.w.id ∧ p.position = l.start - s.stationDistance st)

/-- The planner's acts: provisional extension (R74), the count of the rejects (R73), pinning (R76), the gap decision (R79),
the recipe triggers (R85), the filling of the window (R70), with the free count and the floor of a gap (R80), and the stations
and swaps (R87, R88, R149). That a dropped cut's sheet is not counted again among the rejects is the model's choice (log 50).
What stands of a swap planned before a lapse (log 49) is its reading, and so are that a withdrawn record is not released (log
48), the gap of an order placed without a predecessor (log 12), the boundary kept behind an order that has left (log 13) and
the splices that count in a free count, with the whole waste lengths found behind the pin (log 38). That a filling takes one
order in, and the next at the recomputation which that makes due, is its choice (log 63). -/
def Obligations.ProvisionalExtensionStaysWithinTheAllowance : Prop :=
  Rule.ProvisionalExtension ∧ Rule.RejectCount ∧ Rule.Pin ∧ Rule.GapDecision ∧ Rule.FreeCountAndFloor ∧ Rule.Triggers ∧
    Rule.Filling ∧ Rule.Swaps

/-- R49: at a counter update every PLANNED order of the window whose start L has reached enters CUTTING, with STARTED. No other
record changes. -/
def Rule.Cutting : Prop :=
  ∀ (s : State), s.idsDistinct →
    let t := s.cutting
    (∀ id r b, s.order? id = some r → r.p = some b →
      let starts := r.phase = .planned ∧ (s.windowOrder? id).isSome = true ∧ b ≤ s.knife
      (starts → t.order? id = some { r with phase := .cutting } ∧
        ((s.port .planning).classes.length = 12 → (t.port .planning).rawOf 3 = true)) ∧
      (¬ starts → t.order? id = some r)) ∧
    (t.book.map OrderRec.fig) = (s.book.map OrderRec.fig) ∧
    ((∀ id r, s.order? id = some r → r.phase = .planned → (s.windowOrder? id).isSome = true → ∃ b, r.p = some b ∧ s.knife < b) → t = s) ∧
    { t with book := s.book, ports := s.ports } = s

/-- R89, R77: a swap that lowers A while B is lifted has a planned double-slit span from B to B + D_A - D_B, until it is inserted.
The pin of the order before inserts it at the start that the pin fixes; a recomputation inserts that of every boundary pinned
already (log 14). -/
def Rule.DoubleSlitSpans : Prop :=
  (∀ (s : State) (l : Line),
    let span := (l.r.p.getD 0, l.r.p.getD 0 + (s.profile.slitter.dA : Int) - s.profile.slitter.dB)
    (l.w.swap.bothDown → l.w.spanInserted = false → s.plannedSpan l = some span) ∧
    (¬ l.w.swap.bothDown ∨ l.w.spanInserted = true → s.plannedSpan l = none)) ∧
  (∀ (s : State) (id : Nat) (withMargin : Bool) (before after : List Line) (l k : Line), s.idsDistinct →
    s.lines = before ++ l :: k :: after → l.w.id = id → l.r.pinned = false →
    let t := s.pinOne id withMargin
    (¬ k.w.swap.bothDown ∨ k.w.spanInserted = true → t.map = s.map ∧
      (t.windowOrder? k.w.id).map WindowOrder.spanInserted = some k.w.spanInserted) ∧
    (k.w.swap.bothDown → k.w.spanInserted = false → ∃ r w, t.order? k.w.id = some r ∧ t.windowOrder? k.w.id = some w ∧
      w.spanInserted = true ∧ t.covers .doubleSlit (r.p.getD 0) (r.p.getD 0 + (s.profile.slitter.dA : Int) - s.profile.slitter.dB))) ∧
  (∀ (s : State), s.idsDistinct →
    let t := s.insertPinnedSpans
    let due := fun (b : Line × PrevFigures) => b.1.w.swap.bothDown ∧ b.1.w.spanInserted = false ∧ s.startPinned b.1.w.id = true
    ((∀ b ∈ s.boundaries, ¬ due b) → t = s) ∧
    (∀ b ∈ s.boundaries, due b → (∃ w, t.windowOrder? b.1.w.id = some w ∧ w = { b.1.w with spanInserted := true }) ∧
      t.covers .doubleSlit b.1.start (b.1.start + (s.profile.slitter.dA : Int) - s.profile.slitter.dB)) ∧
    t.book = s.book ∧ { t with map := s.map, plan := s.plan, ports := s.ports, work := s.work } = s)

/-- R72: the cut positions of an order. -/
def Rule.CutPositions : Prop :=
  ∀ (p d : Pos) (sf n m : Nat),
    cutPosition p sf 0 = p ∧
    -8 < 16 * (cutPosition p sf n - p) - (n * sf : Nat) ∧ 16 * (cutPosition p sf n - p) - (n * sf : Nat) ≤ 8 ∧
    ((cutPosition p sf (n + 1) - cutPosition p sf n) - (cutPosition p sf (m + 1) - cutPosition p sf m)).natAbs ≤ 1 ∧
    cutPosition (p + d) sf n = cutPosition p sf n + d

/-- R72: C(0) = P; C(n) is within half a web count of the exact position P + n Sf / 16, halves upward; two sheets of an order
differ by at most 1 wc; a change of P moves every cut by the change. Then the entry of an order into CUTTING when L reaches its
start P (R49), and the planned double-slit span at an order's start (R77, R89). That a recomputation inserts the spans of
boundaries that are pinned already is the model's reading (log 14). -/
def Obligations.CutPositionsAreRounded : Prop := Rule.CutPositions ∧ Rule.Cutting ∧ Rule.DoubleSlitSpans

/-- R71, R92: the order `w`, of record `r`, leaves the window from the head. Where that empties the window, W0 keeps the order's end
and the tail takes its grades, layout and station; otherwise W0 and the tail stand, the new head keeps the figures its start was
planned against, and no other record moves. That these figures carry the mark of a lapsed order into the new head and not into
the tail is the model's reading (log 39, log 13), and a late swap of the order lapses with it (log 16). -/
def Rule.Departure (s t : State) (w : WindowOrder) (ws : List WindowOrder) (r : OrderRec) : Prop :=
  let lapsed := w.lapsed = true ∨ ∃ st x, (s.station st).late = some x ∧ x.order = w.id
  (∀ b st, r.e = some b → r.station = some st →
    (ws = [] → t.plan.w0 = b ∧ t.plan.tail = some ⟨r.fig.grades, r.fig.layout, st, false⟩) ∧
    (∀ v rest, ws = v :: rest → t.plan.w0 = s.plan.w0 ∧ t.plan.tail = s.plan.tail ∧
      ∃ v', t.plan.window.head? = some v' ∧ v'.id = v.id ∧ ∃ f, v'.prev = some f ∧ f.grades = r.fig.grades ∧
        f.layout = r.fig.layout ∧ f.station = st ∧ (f.lapsed = true ↔ lapsed))) ∧
  (t.plan.window.map fun v => v.id) = (ws.map fun v => v.id) ∧ (∀ n, n ≠ r.fig.id → t.order? n = s.order? n) ∧
  (s.part = .tracking → Task.recompute ∈ t.work)

/-- R60, R61, R58: the close test of an order at the head whose cuts have all been dealt with closes it with its result, raising
CLOSED and, with a shortfall, SHORT, and the order leaves the window (R71, R92); an order cancelled after start leaves it as it
is. What the new head and the tail keep of an order that has lapsed (log 13, log 39), and that a late swap of the order lapses at
its departure (log 16), are the model's readings. -/
def Obligations.CloseWritesTheResult : Prop :=
  ∀ (id : Nat) (w : WindowOrder) (ws : List WindowOrder) (r : OrderRec) (s : State), s.plan.window = w :: ws → w.id = id →
    (∀ v ∈ ws, v.id ≠ id) → s.order? id = some r →
    (s.dealtWith w r = true ↔ r.pinned = true ∧ r.n.getD 0 ≤ w.cuts ∧
      ∀ x ∈ s.dry.released, x.kind = .cut → x.order ≠ id) ∧
    (s.dealtWith w r = false → s.closeTest id = s) ∧
    (s.dealtWith w r = true → r.phase = .cutting →
      let t := s.closeTest id
      t.order? id = some { r with
        phase := .closed
        result := some ⟨if r.counts.good < r.fig.t then .short else .complete, r.fig.t - r.counts.good, r.counts.good - r.fig.t⟩ } ∧
      t.windowOrder? id = none ∧ Rule.Departure s t w ws r ∧
      ((s.port .planning).classes.length = 12 → (t.port .planning).rawOf 4 = true ∧
        (r.counts.good < r.fig.t → (t.port .planning).rawOf 5 = true))) ∧
    (s.dealtWith w r = true → r.phase = .cancelled →
      (s.closeTest id).order? id = some r ∧ (s.closeTest id).windowOrder? id = none ∧
      Rule.Departure s (s.closeTest id) w ws r)

/-! ### Line profile and part states (09) -/

/-- R196, R197: Load Profile Section. In TRACKING it is refused STATE. In SETUP a section whose fields lie in their ranges is
taken whole, a lane section setting the lane's offset to its K base and its UNSYNCED flag; anything else is refused RANGE.
No field of another section changes. A stream made inactive loses its pending read and write and nothing else. That a
transaction of that stream in progress is given up too (log 21), and that a scan at it goes on to the next active stream, or
begins at a stream made active where it stood at none (log 22), are the model's readings of "is no longer addressed". -/
def Obligations.LoadTakesASectionWhole : Prop :=
  ∀ (p : Port) (tag : Byte) (s : State), Heard s p 0x07 → s.work = [] →
    let no := fun load cause => exec (.loadProfileSection p tag load) s = .next (s.withFrame p (refusedFrame 0x07 tag cause))
    (s.part = .tracking → ∀ load, no load 3) ∧
    (s.part = .setup →
      (∀ code, no (.unknown code) 7) ∧
      (∀ n f, (∀ x v, Stream.ofCode? n = some x → v.inRange → f ≠ StreamProfile.raw v) → no (.stream n f) 7) ∧
      (∀ n f, (∀ l v, Lane.ofCode? n = some l → v.inRange → f ≠ LaneProfile.raw v) → no (.lane n f) 7) ∧
      (∀ f, (∀ v, v.inRange → f ≠ LineProfile.raw v) → no (.line f) 7) ∧
      (∀ f, (∀ v, v.inRange → f ≠ SlitterProfile.raw v) → no (.slitter f) 7) ∧
      (∀ n f, (∀ v, 1 ≤ n → n ≤ 12 → v.inRange → f ≠ EntryProfile.raw v) → no (.entry n f) 7) ∧
      (∀ n x v, Stream.ofCode? n = some x → v.inRange → ∃ t, exec (.loadProfileSection p tag (.stream n v.raw)) s = .next t ∧
        t.profile = { s.profile with streams := s.profile.streams.set x v } ∧
        t.ports = (s.withFrame p (doneFrame 0x07 tag [])).ports ∧
        (let k := s.splice.link;
          let begins := k.interrupt = true ∧ k.scan = none
          let leaves := k.interrupt = true ∧ k.scan = some x
          (v.active = true →
            t.splice.link = { k with scan := if begins then some x else k.scan } ∧
            t.stream x = { s.stream x with readPending := (s.stream x).readPending || decide begins } ∧
            (∀ y, y ≠ x → t.stream y = s.stream y)) ∧
          (v.active = false →
            t.splice.link = { k with
              busy := if (∃ b, k.busy = some b ∧ b.stream = x) then none else k.busy
              scan := if leaves then t.profile.nextActive x else k.scan } ∧
            t.stream x = { s.stream x with readPending := false, writePending := false } ∧
            (∀ y, y ≠ x → t.stream y =
              { s.stream y with
                readPending := (s.stream y).readPending || decide (leaves ∧ t.profile.nextActive x = some y) }))) ∧
        { t with profile := s.profile, splice := s.splice, ports := s.ports } = s) ∧
      (∀ n l v, Lane.ofCode? n = some l → v.inRange →
        ∃ u : State, exec (.loadProfileSection p tag (.lane n v.raw)) s = .next u.settled ∧
          JoinedBy s u p (doneFrame 0x07 tag []) ∧
          u.profile = { s.profile with lanes := s.profile.lanes.set l v } ∧
          u.map = { s.map with lanes := s.map.lanes.set l { s.lane l with offset := v.kBase, unsynced := true } } ∧
          ((s.lane l).unsynced = false → (s.port .wet).classes.length = 13 → (u.port .wet).rawOf 11 = true) ∧
          { u with profile := s.profile, map := s.map, ports := s.ports, work := s.work } = s) ∧
      (∀ v, v.inRange → exec (.loadProfileSection p tag (.line v.raw)) s = .next { s.withFrame p (doneFrame 0x07 tag []) with
        profile := { s.profile with line := v } }) ∧
      (∀ v, v.inRange → exec (.loadProfileSection p tag (.slitter v.raw)) s = .next
        { s.withFrame p (doneFrame 0x07 tag []) with profile := { s.profile with slitter := v } }) ∧
      (∀ n v, 1 ≤ n → n ≤ 12 → v.inRange → exec (.loadProfileSection p tag (.entry n v.raw)) s = .next
        { s.withFrame p (doneFrame 0x07 tag []) with
          profile := { s.profile with entries := modify1 s.profile.entries n fun _ => v } }))

/-- R199, R200: Release Line. In TRACKING it is refused STATE. In SETUP its five checks are made in their order, the first that
fails naming its section; when they pass, the part is TRACKING, PART_STATE is raised, and W0 and the release cursor are L,
without a tail. `u` is the state before the recomputation, the release test and, for every stream, the run-out and
deferred-commit tests of R200, which are then due. That step 5 of R200 takes S1 to S5, and of each stream the run-out test before
the deferred-commit test, is the model's choice (log 59). -/
def Obligations.ReleaseLineChecksTheProfile : Prop :=
  ∀ (p : Port) (tag : Byte) (s : State), Heard s p 0x08 →
    let no := fun cause sectionCode => exec (.releaseLine p tag) s = .next (s.withFrame p (refusedFrame 0x08 tag cause sectionCode))
    let f := s.profile
    let weights := ∀ c, 256 ≤ f.line.pulseWeight.get c ∧ f.line.pulseWeight.get c ≤ 16384
    let streams := ∃ x, (f.streams.get x).active = true
    let distances := f.slitter.dB < f.slitter.dA
    let fails := fun n => ∃ e, nth1 f.entries n = some e ∧ e.enable = true ∧ e.dFar ≤ e.dNear
    let entries := ∀ n, 1 ≤ n → n ≤ 12 → ¬ fails n
    let lane := fun (l : Lane) => (∃ x ∈ l.streams, (f.streams.get x).active = true) →
      (f.line.h : Int) < ((f.lanes.get l).dDet : Int) - (f.lanes.get l).wConfirm
    (s.part = .tracking → s.work = [] → no 3 0) ∧
    (s.part = .setup →
      (s.work = [] →
        (¬ weights → no 7 8) ∧
        (weights → ¬ streams → no 7 1) ∧
        (weights → streams → ¬ distances → no 7 9) ∧
        (∀ n, weights → streams → distances → 1 ≤ n → n ≤ 12 → fails n → (∀ m, 1 ≤ m → m < n → ¬ fails m) → no 7 (9 + n)) ∧
        (weights → streams → distances → entries → ¬ lane .one → no 7 6) ∧
        (weights → streams → distances → entries → lane .one → ¬ lane .two → no 7 7)) ∧
      (weights → streams → distances → entries → lane .one → lane .two →
        ∃ u : State, exec (.releaseLine p tag) s = .next u.settled ∧ JoinedBy s u p (doneFrame 0x08 tag []) ∧
          u.part = .tracking ∧ u.settled.part = .tracking ∧
          u.plan = { s.plan with w0 := s.knife, tail := none } ∧ u.dry = { s.dry with cursor := s.knife, wasteCuts := 0 } ∧
          u.work = s.work ++ [.recompute, .release, .runout .s1, .deferred .s1, .runout .s2, .deferred .s2, .runout .s3,
            .deferred .s3, .runout .s4, .deferred .s4, .runout .s5, .deferred .s5] ∧
          ((s.port .planning).classes.length = 12 → (u.port .planning).rawOf 10 = true) ∧
          { u with part := s.part, plan := s.plan, dry := s.dry, ports := s.ports, work := s.work } = s))

/-- R201, R202: Clear Line. In SETUP it is refused STATE. In TRACKING everything planned against the web is discarded, in
every block, and what the line physically is stays: the counters, the profile, the lane offsets, recognisers and markers,
the sequence counter and cursor, the arms' states, the tools in place and the stations that are down. That a MOVING tool that
becomes UNKNOWN keeps its attempts is the model's reading (log 23). -/
def Obligations.ClearLineDiscardsThePlan : Prop :=
  ∀ (p : Port) (tag : Byte) (s : State), Heard s p 0x09 → s.work = [] →
    (s.part = .setup → exec (.clearLine p tag) s = .next (s.withFrame p (refusedFrame 0x09 tag 3))) ∧
    (s.part = .tracking → ∃ t, exec (.clearLine p tag) s = .next t ∧ JoinedBy s t p (doneFrame 0x09 tag []) ∧
      t.part = .setup ∧ t.lmu = s.lmu ∧ t.profile = s.profile ∧ t.work = [] ∧
      t.dry = { s.dry with released := [], strays := [], merge := false } ∧
      t.plan = { s.plan with window := [], tail := none, pendingChange := List.replicate 12 none } ∧
      t.book = s.book.map (fun r =>
        match r.phase with
        | .queued => { r with blocked := .none, station := none }
        | .planned => { r with
            phase := .cancelled
            result := some ⟨.lineCleared, r.fig.t - r.counts.good, r.counts.good - r.fig.t⟩ }
        | .cutting => { r with
            phase := .cancelled
            result := some ⟨.lineCleared, r.fig.t - r.counts.good, r.counts.good - r.fig.t⟩ }
        | .closed => r
        | .cancelled => r) ∧
      (∀ x, (t.stream x).slot = none ∧ (t.stream x).running = (s.stream x).running ∧
        (t.stream x).broken = (s.stream x).broken ∧ (t.stream x).linkFault = (s.stream x).linkFault ∧
        ∀ arm, (t.arm x arm).stand = (s.arm x arm).stand ∧
          ((∃ v, (s.stream x).slot = some v ∧ v.chosen = some arm) → (t.arm x arm).driveEnable = false) ∧
          ((∀ v, (s.stream x).slot = some v → v.chosen ≠ some arm) → t.arm x arm = s.arm x arm)) ∧
      t.slitter.moves = [] ∧
      (∀ st, (t.station st).state = (if (s.station st).state = .down then .down else .idle) ∧ (t.station st).late = none ∧
        (t.station st).layout = (s.station st).layout ∧ (t.station st).current = (s.station st).current ∧
        ∀ k n x, s.tool? st k n = some x →
          t.tool? st k n = some (if x.state = .moving then { x with state := .unknown, target := none } else x)) ∧
      t.map.track = [] ∧ t.map.zoneTaken = s.map.zoneTaken ∧
      (∀ l, t.lane l = { s.lane l with marks := [], unsynced := true }) ∧
      ((s.port .planning).classes.length = 12 → (t.port .planning).rawOf 10 = true))

/-- R196, R198, R204: the part state changes to TRACKING at a Release Line alone and to SETUP at a Clear Line alone, and no
command but a Load Profile Section in SETUP changes the profile, until reset. A request is taken at its own row or, with the
bytes of its frame, at the end of a select period (R176, log 6). -/
def Obligations.PartStateAndProfileChangeByTheirRequests : Prop :=
  ∀ (i : Instr) (s t : State), i ≠ .resetAssert → exec i s = .next t →
    (t.part ≠ s.part →
      (s.part = .setup ∧ t.part = .tracking ∧ ∃ p tag, s.carries i (.releaseLine p tag)) ∨
      (s.part = .tracking ∧ t.part = .setup ∧ ∃ p tag, s.carries i (.clearLine p tag))) ∧
    (t.profile ≠ s.profile → s.part = .setup ∧ ∃ p tag load, s.carries i (.loadProfileSection p tag load))

/-! ### Invariants of every step -/

/-- R1, R2, R15, R195: every step keeps the profile's fields in the ranges of their table and the LMU's figures in theirs, from
any state in which they are. -/
def Obligations.FiguresStayInRange : Prop :=
  ∀ s t : State, s.lmu.wf → s.profile.inRange → step s = .next t → t.lmu.wf ∧ t.profile.inRange

/-- R29, R44, R68, R156: every step keeps the collections within their capacities and the ids of the book distinct, from any
state in which they are. -/
def Obligations.CollectionsStayWithinCapacity : Prop :=
  ∀ s t : State, s.withinCapacity → step s = .next t → t.withinCapacity

/-- The invariants hold after reset. -/
def Obligations.ResetMeetsTheInvariants : Prop :=
  State.reset.lmu.wf ∧ State.reset.profile.inRange ∧ State.reset.trackCanonical ∧ State.reset.portsBounded ∧
  State.reset.withinCapacity
end

