-- ==== Sys2Proof/Laws/State.lean ====
section
/-! SUPPORT. One lemma for each field of the state and each update of it: what an update leaves alone, and what it sets. -/

namespace Sys2Proof.Machine

variable (s : State)

/-! ### Speed buckets -/

/-- A saturated counter gives buckets of 0 (R14). -/
@[simp] theorem ChannelRec.newBucket_saturated (r : ChannelRec) (h : r.saturated = true) : r.newBucket = 0 := by
  rw [ChannelRec.newBucket, if_pos h]

@[simp] theorem ChannelRec.newBucket_counting (r : ChannelRec) (h : r.saturated = false) : r.newBucket = r.gain := by
  rw [ChannelRec.newBucket, h]
  rfl

/-- A bucket is no more than the gain it closes. -/
theorem ChannelRec.newBucket_le (r : ChannelRec) : r.newBucket ≤ r.gain := by
  rw [ChannelRec.newBucket]
  split <;> omega

/-! ### Collections -/

@[simp] theorem PerChannel.get_set_same {α : Type} (p : PerChannel α) (i : Channel) (v : α) : (p.set i v).get i = v := by
  cases i <;> rfl

theorem PerChannel.get_set_other {α : Type} (p : PerChannel α) (i j : Channel) (v : α) (h : j ≠ i) : (p.set i v).get j = p.get j := by
  cases i <;> cases j <;> first | rfl | exact absurd rfl h

theorem PerChannel.get_set {α : Type} (p : PerChannel α) (i j : Channel) (v : α) : (p.set i v).get j = if j = i then v else p.get j := by
  cases i <;> cases j <;> rfl

@[simp] theorem PerLane.get_set_same {α : Type} (p : PerLane α) (i : Lane) (v : α) : (p.set i v).get i = v := by
  cases i <;> rfl

theorem PerLane.get_set_other {α : Type} (p : PerLane α) (i j : Lane) (v : α) (h : j ≠ i) : (p.set i v).get j = p.get j := by
  cases i <;> cases j <;> first | rfl | exact absurd rfl h

theorem PerLane.get_set {α : Type} (p : PerLane α) (i j : Lane) (v : α) : (p.set i v).get j = if j = i then v else p.get j := by
  cases i <;> cases j <;> rfl

@[simp] theorem PerStream.get_set_same {α : Type} (p : PerStream α) (i : Stream) (v : α) : (p.set i v).get i = v := by
  cases i <;> rfl

theorem PerStream.get_set_other {α : Type} (p : PerStream α) (i j : Stream) (v : α) (h : j ≠ i) : (p.set i v).get j = p.get j := by
  cases i <;> cases j <;> first | rfl | exact absurd rfl h

theorem PerStream.get_set {α : Type} (p : PerStream α) (i j : Stream) (v : α) : (p.set i v).get j = if j = i then v else p.get j := by
  cases i <;> cases j <;> rfl

@[simp] theorem PerArm.get_set_same {α : Type} (p : PerArm α) (i : Arm) (v : α) : (p.set i v).get i = v := by
  cases i <;> rfl

theorem PerArm.get_set_other {α : Type} (p : PerArm α) (i j : Arm) (v : α) (h : j ≠ i) : (p.set i v).get j = p.get j := by
  cases i <;> cases j <;> first | rfl | exact absurd rfl h

theorem PerArm.get_set {α : Type} (p : PerArm α) (i j : Arm) (v : α) : (p.set i v).get j = if j = i then v else p.get j := by
  cases i <;> cases j <;> rfl

@[simp] theorem PerStation.get_set_same {α : Type} (p : PerStation α) (i : Station) (v : α) : (p.set i v).get i = v := by
  cases i <;> rfl

theorem PerStation.get_set_other {α : Type} (p : PerStation α) (i j : Station) (v : α) (h : j ≠ i) : (p.set i v).get j = p.get j := by
  cases i <;> cases j <;> first | rfl | exact absurd rfl h

theorem PerStation.get_set {α : Type} (p : PerStation α) (i j : Station) (v : α) : (p.set i v).get j = if j = i then v else p.get j := by
  cases i <;> cases j <;> rfl

@[simp] theorem PerPort.get_set_same {α : Type} (p : PerPort α) (i : Port) (v : α) : (p.set i v).get i = v := by
  cases i <;> rfl

theorem PerPort.get_set_other {α : Type} (p : PerPort α) (i j : Port) (v : α) (h : j ≠ i) : (p.set i v).get j = p.get j := by
  cases i <;> cases j <;> first | rfl | exact absurd rfl h

theorem PerPort.get_set {α : Type} (p : PerPort α) (i j : Port) (v : α) : (p.set i v).get j = if j = i then v else p.get j := by
  cases i <;> cases j <;> rfl

/-! ### What an update leaves alone -/

@[simp] theorem State.setChannel_resetAsserted (c : Channel) (r : ChannelRec) : (s.setChannel c r).resetAsserted = s.resetAsserted := rfl
@[simp] theorem State.setChannel_part (c : Channel) (r : ChannelRec) : (s.setChannel c r).part = s.part := rfl
@[simp] theorem State.setChannel_profile (c : Channel) (r : ChannelRec) : (s.setChannel c r).profile = s.profile := rfl
@[simp] theorem State.setChannel_map (c : Channel) (r : ChannelRec) : (s.setChannel c r).map = s.map := rfl
@[simp] theorem State.setChannel_book (c : Channel) (r : ChannelRec) : (s.setChannel c r).book = s.book := rfl
@[simp] theorem State.setChannel_plan (c : Channel) (r : ChannelRec) : (s.setChannel c r).plan = s.plan := rfl
@[simp] theorem State.setChannel_splice (c : Channel) (r : ChannelRec) : (s.setChannel c r).splice = s.splice := rfl
@[simp] theorem State.setChannel_slitter (c : Channel) (r : ChannelRec) : (s.setChannel c r).slitter = s.slitter := rfl
@[simp] theorem State.setChannel_dry (c : Channel) (r : ChannelRec) : (s.setChannel c r).dry = s.dry := rfl
@[simp] theorem State.setChannel_ports (c : Channel) (r : ChannelRec) : (s.setChannel c r).ports = s.ports := rfl
@[simp] theorem State.setChannel_pins (c : Channel) (r : ChannelRec) : (s.setChannel c r).pins = s.pins := rfl
@[simp] theorem State.setChannel_work (c : Channel) (r : ChannelRec) : (s.setChannel c r).work = s.work := rfl
@[simp] theorem State.setChannel_pending (c : Channel) (r : ChannelRec) : (s.setChannel c r).pending = s.pending := rfl

@[simp] theorem State.setLane_resetAsserted (l : Lane) (r : LaneRec) : (s.setLane l r).resetAsserted = s.resetAsserted := rfl
@[simp] theorem State.setLane_part (l : Lane) (r : LaneRec) : (s.setLane l r).part = s.part := rfl
@[simp] theorem State.setLane_profile (l : Lane) (r : LaneRec) : (s.setLane l r).profile = s.profile := rfl
@[simp] theorem State.setLane_lmu (l : Lane) (r : LaneRec) : (s.setLane l r).lmu = s.lmu := rfl
@[simp] theorem State.setLane_book (l : Lane) (r : LaneRec) : (s.setLane l r).book = s.book := rfl
@[simp] theorem State.setLane_plan (l : Lane) (r : LaneRec) : (s.setLane l r).plan = s.plan := rfl
@[simp] theorem State.setLane_splice (l : Lane) (r : LaneRec) : (s.setLane l r).splice = s.splice := rfl
@[simp] theorem State.setLane_slitter (l : Lane) (r : LaneRec) : (s.setLane l r).slitter = s.slitter := rfl
@[simp] theorem State.setLane_dry (l : Lane) (r : LaneRec) : (s.setLane l r).dry = s.dry := rfl
@[simp] theorem State.setLane_ports (l : Lane) (r : LaneRec) : (s.setLane l r).ports = s.ports := rfl
@[simp] theorem State.setLane_pins (l : Lane) (r : LaneRec) : (s.setLane l r).pins = s.pins := rfl
@[simp] theorem State.setLane_work (l : Lane) (r : LaneRec) : (s.setLane l r).work = s.work := rfl
@[simp] theorem State.setLane_pending (l : Lane) (r : LaneRec) : (s.setLane l r).pending = s.pending := rfl

@[simp] theorem State.setStream_resetAsserted (x : Stream) (r : StreamRec) : (s.setStream x r).resetAsserted = s.resetAsserted := rfl
@[simp] theorem State.setStream_part (x : Stream) (r : StreamRec) : (s.setStream x r).part = s.part := rfl
@[simp] theorem State.setStream_profile (x : Stream) (r : StreamRec) : (s.setStream x r).profile = s.profile := rfl
@[simp] theorem State.setStream_lmu (x : Stream) (r : StreamRec) : (s.setStream x r).lmu = s.lmu := rfl
@[simp] theorem State.setStream_map (x : Stream) (r : StreamRec) : (s.setStream x r).map = s.map := rfl
@[simp] theorem State.setStream_book (x : Stream) (r : StreamRec) : (s.setStream x r).book = s.book := rfl
@[simp] theorem State.setStream_plan (x : Stream) (r : StreamRec) : (s.setStream x r).plan = s.plan := rfl
@[simp] theorem State.setStream_slitter (x : Stream) (r : StreamRec) : (s.setStream x r).slitter = s.slitter := rfl
@[simp] theorem State.setStream_dry (x : Stream) (r : StreamRec) : (s.setStream x r).dry = s.dry := rfl
@[simp] theorem State.setStream_ports (x : Stream) (r : StreamRec) : (s.setStream x r).ports = s.ports := rfl
@[simp] theorem State.setStream_pins (x : Stream) (r : StreamRec) : (s.setStream x r).pins = s.pins := rfl
@[simp] theorem State.setStream_work (x : Stream) (r : StreamRec) : (s.setStream x r).work = s.work := rfl
@[simp] theorem State.setStream_pending (x : Stream) (r : StreamRec) : (s.setStream x r).pending = s.pending := rfl

@[simp] theorem State.setSlot_resetAsserted (x : Stream) (v : Option Slot) : (s.setSlot x v).resetAsserted = s.resetAsserted := rfl
@[simp] theorem State.setSlot_part (x : Stream) (v : Option Slot) : (s.setSlot x v).part = s.part := rfl
@[simp] theorem State.setSlot_profile (x : Stream) (v : Option Slot) : (s.setSlot x v).profile = s.profile := rfl
@[simp] theorem State.setSlot_lmu (x : Stream) (v : Option Slot) : (s.setSlot x v).lmu = s.lmu := rfl
@[simp] theorem State.setSlot_map (x : Stream) (v : Option Slot) : (s.setSlot x v).map = s.map := rfl
@[simp] theorem State.setSlot_book (x : Stream) (v : Option Slot) : (s.setSlot x v).book = s.book := rfl
@[simp] theorem State.setSlot_plan (x : Stream) (v : Option Slot) : (s.setSlot x v).plan = s.plan := rfl
@[simp] theorem State.setSlot_slitter (x : Stream) (v : Option Slot) : (s.setSlot x v).slitter = s.slitter := rfl
@[simp] theorem State.setSlot_dry (x : Stream) (v : Option Slot) : (s.setSlot x v).dry = s.dry := rfl
@[simp] theorem State.setSlot_ports (x : Stream) (v : Option Slot) : (s.setSlot x v).ports = s.ports := rfl
@[simp] theorem State.setSlot_pins (x : Stream) (v : Option Slot) : (s.setSlot x v).pins = s.pins := rfl
@[simp] theorem State.setSlot_work (x : Stream) (v : Option Slot) : (s.setSlot x v).work = s.work := rfl
@[simp] theorem State.setSlot_pending (x : Stream) (v : Option Slot) : (s.setSlot x v).pending = s.pending := rfl

@[simp] theorem State.setStation_resetAsserted (x : Station) (r : StationRec) : (s.setStation x r).resetAsserted = s.resetAsserted := rfl
@[simp] theorem State.setStation_part (x : Station) (r : StationRec) : (s.setStation x r).part = s.part := rfl
@[simp] theorem State.setStation_profile (x : Station) (r : StationRec) : (s.setStation x r).profile = s.profile := rfl
@[simp] theorem State.setStation_lmu (x : Station) (r : StationRec) : (s.setStation x r).lmu = s.lmu := rfl
@[simp] theorem State.setStation_map (x : Station) (r : StationRec) : (s.setStation x r).map = s.map := rfl
@[simp] theorem State.setStation_book (x : Station) (r : StationRec) : (s.setStation x r).book = s.book := rfl
@[simp] theorem State.setStation_plan (x : Station) (r : StationRec) : (s.setStation x r).plan = s.plan := rfl
@[simp] theorem State.setStation_splice (x : Station) (r : StationRec) : (s.setStation x r).splice = s.splice := rfl
@[simp] theorem State.setStation_dry (x : Station) (r : StationRec) : (s.setStation x r).dry = s.dry := rfl
@[simp] theorem State.setStation_ports (x : Station) (r : StationRec) : (s.setStation x r).ports = s.ports := rfl
@[simp] theorem State.setStation_pins (x : Station) (r : StationRec) : (s.setStation x r).pins = s.pins := rfl
@[simp] theorem State.setStation_work (x : Station) (r : StationRec) : (s.setStation x r).work = s.work := rfl
@[simp] theorem State.setStation_pending (x : Station) (r : StationRec) : (s.setStation x r).pending = s.pending := rfl

@[simp] theorem State.setPort_resetAsserted (p : Port) (r : PortRec) : (s.setPort p r).resetAsserted = s.resetAsserted := rfl
@[simp] theorem State.setPort_part (p : Port) (r : PortRec) : (s.setPort p r).part = s.part := rfl
@[simp] theorem State.setPort_profile (p : Port) (r : PortRec) : (s.setPort p r).profile = s.profile := rfl
@[simp] theorem State.setPort_lmu (p : Port) (r : PortRec) : (s.setPort p r).lmu = s.lmu := rfl
@[simp] theorem State.setPort_map (p : Port) (r : PortRec) : (s.setPort p r).map = s.map := rfl
@[simp] theorem State.setPort_book (p : Port) (r : PortRec) : (s.setPort p r).book = s.book := rfl
@[simp] theorem State.setPort_plan (p : Port) (r : PortRec) : (s.setPort p r).plan = s.plan := rfl
@[simp] theorem State.setPort_splice (p : Port) (r : PortRec) : (s.setPort p r).splice = s.splice := rfl
@[simp] theorem State.setPort_slitter (p : Port) (r : PortRec) : (s.setPort p r).slitter = s.slitter := rfl
@[simp] theorem State.setPort_dry (p : Port) (r : PortRec) : (s.setPort p r).dry = s.dry := rfl
@[simp] theorem State.setPort_pins (p : Port) (r : PortRec) : (s.setPort p r).pins = s.pins := rfl
@[simp] theorem State.setPort_work (p : Port) (r : PortRec) : (s.setPort p r).work = s.work := rfl
@[simp] theorem State.setPort_pending (p : Port) (r : PortRec) : (s.setPort p r).pending = s.pending := rfl

@[simp] theorem State.setLink_resetAsserted (l : StandLink) : (s.setLink l).resetAsserted = s.resetAsserted := rfl
@[simp] theorem State.setLink_part (l : StandLink) : (s.setLink l).part = s.part := rfl
@[simp] theorem State.setLink_profile (l : StandLink) : (s.setLink l).profile = s.profile := rfl
@[simp] theorem State.setLink_lmu (l : StandLink) : (s.setLink l).lmu = s.lmu := rfl
@[simp] theorem State.setLink_map (l : StandLink) : (s.setLink l).map = s.map := rfl
@[simp] theorem State.setLink_book (l : StandLink) : (s.setLink l).book = s.book := rfl
@[simp] theorem State.setLink_plan (l : StandLink) : (s.setLink l).plan = s.plan := rfl
@[simp] theorem State.setLink_slitter (l : StandLink) : (s.setLink l).slitter = s.slitter := rfl
@[simp] theorem State.setLink_dry (l : StandLink) : (s.setLink l).dry = s.dry := rfl
@[simp] theorem State.setLink_ports (l : StandLink) : (s.setLink l).ports = s.ports := rfl
@[simp] theorem State.setLink_pins (l : StandLink) : (s.setLink l).pins = s.pins := rfl
@[simp] theorem State.setLink_work (l : StandLink) : (s.setLink l).work = s.work := rfl
@[simp] theorem State.setLink_pending (l : StandLink) : (s.setLink l).pending = s.pending := rfl

@[simp] theorem State.modifyOrder_resetAsserted (id : Nat) (f : OrderRec → OrderRec) : (s.modifyOrder id f).resetAsserted = s.resetAsserted := rfl
@[simp] theorem State.modifyOrder_part (id : Nat) (f : OrderRec → OrderRec) : (s.modifyOrder id f).part = s.part := rfl
@[simp] theorem State.modifyOrder_profile (id : Nat) (f : OrderRec → OrderRec) : (s.modifyOrder id f).profile = s.profile := rfl
@[simp] theorem State.modifyOrder_lmu (id : Nat) (f : OrderRec → OrderRec) : (s.modifyOrder id f).lmu = s.lmu := rfl
@[simp] theorem State.modifyOrder_map (id : Nat) (f : OrderRec → OrderRec) : (s.modifyOrder id f).map = s.map := rfl
@[simp] theorem State.modifyOrder_plan (id : Nat) (f : OrderRec → OrderRec) : (s.modifyOrder id f).plan = s.plan := rfl
@[simp] theorem State.modifyOrder_splice (id : Nat) (f : OrderRec → OrderRec) : (s.modifyOrder id f).splice = s.splice := rfl
@[simp] theorem State.modifyOrder_slitter (id : Nat) (f : OrderRec → OrderRec) : (s.modifyOrder id f).slitter = s.slitter := rfl
@[simp] theorem State.modifyOrder_dry (id : Nat) (f : OrderRec → OrderRec) : (s.modifyOrder id f).dry = s.dry := rfl
@[simp] theorem State.modifyOrder_ports (id : Nat) (f : OrderRec → OrderRec) : (s.modifyOrder id f).ports = s.ports := rfl
@[simp] theorem State.modifyOrder_pins (id : Nat) (f : OrderRec → OrderRec) : (s.modifyOrder id f).pins = s.pins := rfl
@[simp] theorem State.modifyOrder_work (id : Nat) (f : OrderRec → OrderRec) : (s.modifyOrder id f).work = s.work := rfl
@[simp] theorem State.modifyOrder_pending (id : Nat) (f : OrderRec → OrderRec) : (s.modifyOrder id f).pending = s.pending := rfl

@[simp] theorem State.modifyWindow_resetAsserted (id : Nat) (f : WindowOrder → WindowOrder) : (s.modifyWindow id f).resetAsserted = s.resetAsserted := rfl
@[simp] theorem State.modifyWindow_part (id : Nat) (f : WindowOrder → WindowOrder) : (s.modifyWindow id f).part = s.part := rfl
@[simp] theorem State.modifyWindow_profile (id : Nat) (f : WindowOrder → WindowOrder) : (s.modifyWindow id f).profile = s.profile := rfl
@[simp] theorem State.modifyWindow_lmu (id : Nat) (f : WindowOrder → WindowOrder) : (s.modifyWindow id f).lmu = s.lmu := rfl
@[simp] theorem State.modifyWindow_map (id : Nat) (f : WindowOrder → WindowOrder) : (s.modifyWindow id f).map = s.map := rfl
@[simp] theorem State.modifyWindow_book (id : Nat) (f : WindowOrder → WindowOrder) : (s.modifyWindow id f).book = s.book := rfl
@[simp] theorem State.modifyWindow_splice (id : Nat) (f : WindowOrder → WindowOrder) : (s.modifyWindow id f).splice = s.splice := rfl
@[simp] theorem State.modifyWindow_slitter (id : Nat) (f : WindowOrder → WindowOrder) : (s.modifyWindow id f).slitter = s.slitter := rfl
@[simp] theorem State.modifyWindow_dry (id : Nat) (f : WindowOrder → WindowOrder) : (s.modifyWindow id f).dry = s.dry := rfl
@[simp] theorem State.modifyWindow_ports (id : Nat) (f : WindowOrder → WindowOrder) : (s.modifyWindow id f).ports = s.ports := rfl
@[simp] theorem State.modifyWindow_pins (id : Nat) (f : WindowOrder → WindowOrder) : (s.modifyWindow id f).pins = s.pins := rfl
@[simp] theorem State.modifyWindow_work (id : Nat) (f : WindowOrder → WindowOrder) : (s.modifyWindow id f).work = s.work := rfl
@[simp] theorem State.modifyWindow_pending (id : Nat) (f : WindowOrder → WindowOrder) : (s.modifyWindow id f).pending = s.pending := rfl

@[simp] theorem State.setMarks_resetAsserted (l : Lane) (ms : List LaneMark) : (s.setMarks l ms).resetAsserted = s.resetAsserted := rfl
@[simp] theorem State.setMarks_part (l : Lane) (ms : List LaneMark) : (s.setMarks l ms).part = s.part := rfl
@[simp] theorem State.setMarks_profile (l : Lane) (ms : List LaneMark) : (s.setMarks l ms).profile = s.profile := rfl
@[simp] theorem State.setMarks_lmu (l : Lane) (ms : List LaneMark) : (s.setMarks l ms).lmu = s.lmu := rfl
@[simp] theorem State.setMarks_book (l : Lane) (ms : List LaneMark) : (s.setMarks l ms).book = s.book := rfl
@[simp] theorem State.setMarks_plan (l : Lane) (ms : List LaneMark) : (s.setMarks l ms).plan = s.plan := rfl
@[simp] theorem State.setMarks_splice (l : Lane) (ms : List LaneMark) : (s.setMarks l ms).splice = s.splice := rfl
@[simp] theorem State.setMarks_slitter (l : Lane) (ms : List LaneMark) : (s.setMarks l ms).slitter = s.slitter := rfl
@[simp] theorem State.setMarks_dry (l : Lane) (ms : List LaneMark) : (s.setMarks l ms).dry = s.dry := rfl
@[simp] theorem State.setMarks_ports (l : Lane) (ms : List LaneMark) : (s.setMarks l ms).ports = s.ports := rfl
@[simp] theorem State.setMarks_pins (l : Lane) (ms : List LaneMark) : (s.setMarks l ms).pins = s.pins := rfl
@[simp] theorem State.setMarks_work (l : Lane) (ms : List LaneMark) : (s.setMarks l ms).work = s.work := rfl
@[simp] theorem State.setMarks_pending (l : Lane) (ms : List LaneMark) : (s.setMarks l ms).pending = s.pending := rfl

@[simp] theorem State.dropMoves_resetAsserted (f : MoveEntry → Bool) : (s.dropMoves f).resetAsserted = s.resetAsserted := rfl
@[simp] theorem State.dropMoves_part (f : MoveEntry → Bool) : (s.dropMoves f).part = s.part := rfl
@[simp] theorem State.dropMoves_profile (f : MoveEntry → Bool) : (s.dropMoves f).profile = s.profile := rfl
@[simp] theorem State.dropMoves_lmu (f : MoveEntry → Bool) : (s.dropMoves f).lmu = s.lmu := rfl
@[simp] theorem State.dropMoves_map (f : MoveEntry → Bool) : (s.dropMoves f).map = s.map := rfl
@[simp] theorem State.dropMoves_book (f : MoveEntry → Bool) : (s.dropMoves f).book = s.book := rfl
@[simp] theorem State.dropMoves_plan (f : MoveEntry → Bool) : (s.dropMoves f).plan = s.plan := rfl
@[simp] theorem State.dropMoves_splice (f : MoveEntry → Bool) : (s.dropMoves f).splice = s.splice := rfl
@[simp] theorem State.dropMoves_dry (f : MoveEntry → Bool) : (s.dropMoves f).dry = s.dry := rfl
@[simp] theorem State.dropMoves_ports (f : MoveEntry → Bool) : (s.dropMoves f).ports = s.ports := rfl
@[simp] theorem State.dropMoves_pins (f : MoveEntry → Bool) : (s.dropMoves f).pins = s.pins := rfl
@[simp] theorem State.dropMoves_work (f : MoveEntry → Bool) : (s.dropMoves f).work = s.work := rfl
@[simp] theorem State.dropMoves_pending (f : MoveEntry → Bool) : (s.dropMoves f).pending = s.pending := rfl

@[simp] theorem State.dropReleased_resetAsserted (q : Nat) : (s.dropReleased q).resetAsserted = s.resetAsserted := rfl
@[simp] theorem State.dropReleased_part (q : Nat) : (s.dropReleased q).part = s.part := rfl
@[simp] theorem State.dropReleased_profile (q : Nat) : (s.dropReleased q).profile = s.profile := rfl
@[simp] theorem State.dropReleased_lmu (q : Nat) : (s.dropReleased q).lmu = s.lmu := rfl
@[simp] theorem State.dropReleased_map (q : Nat) : (s.dropReleased q).map = s.map := rfl
@[simp] theorem State.dropReleased_book (q : Nat) : (s.dropReleased q).book = s.book := rfl
@[simp] theorem State.dropReleased_plan (q : Nat) : (s.dropReleased q).plan = s.plan := rfl
@[simp] theorem State.dropReleased_splice (q : Nat) : (s.dropReleased q).splice = s.splice := rfl
@[simp] theorem State.dropReleased_slitter (q : Nat) : (s.dropReleased q).slitter = s.slitter := rfl
@[simp] theorem State.dropReleased_ports (q : Nat) : (s.dropReleased q).ports = s.ports := rfl
@[simp] theorem State.dropReleased_pins (q : Nat) : (s.dropReleased q).pins = s.pins := rfl
@[simp] theorem State.dropReleased_work (q : Nat) : (s.dropReleased q).work = s.work := rfl
@[simp] theorem State.dropReleased_pending (q : Nat) : (s.dropReleased q).pending = s.pending := rfl

@[simp] theorem State.push_resetAsserted (ts : List Task) : (s.push ts).resetAsserted = s.resetAsserted := rfl
@[simp] theorem State.push_part (ts : List Task) : (s.push ts).part = s.part := rfl
@[simp] theorem State.push_profile (ts : List Task) : (s.push ts).profile = s.profile := rfl
@[simp] theorem State.push_lmu (ts : List Task) : (s.push ts).lmu = s.lmu := rfl
@[simp] theorem State.push_map (ts : List Task) : (s.push ts).map = s.map := rfl
@[simp] theorem State.push_book (ts : List Task) : (s.push ts).book = s.book := rfl
@[simp] theorem State.push_plan (ts : List Task) : (s.push ts).plan = s.plan := rfl
@[simp] theorem State.push_splice (ts : List Task) : (s.push ts).splice = s.splice := rfl
@[simp] theorem State.push_slitter (ts : List Task) : (s.push ts).slitter = s.slitter := rfl
@[simp] theorem State.push_dry (ts : List Task) : (s.push ts).dry = s.dry := rfl
@[simp] theorem State.push_ports (ts : List Task) : (s.push ts).ports = s.ports := rfl
@[simp] theorem State.push_pins (ts : List Task) : (s.push ts).pins = s.pins := rfl
@[simp] theorem State.push_pending (ts : List Task) : (s.push ts).pending = s.pending := rfl

@[simp] theorem State.raise_resetAsserted (n : Notice) : (s.raise n).resetAsserted = s.resetAsserted := rfl
@[simp] theorem State.raise_part (n : Notice) : (s.raise n).part = s.part := rfl
@[simp] theorem State.raise_profile (n : Notice) : (s.raise n).profile = s.profile := rfl
@[simp] theorem State.raise_lmu (n : Notice) : (s.raise n).lmu = s.lmu := rfl
@[simp] theorem State.raise_map (n : Notice) : (s.raise n).map = s.map := rfl
@[simp] theorem State.raise_book (n : Notice) : (s.raise n).book = s.book := rfl
@[simp] theorem State.raise_plan (n : Notice) : (s.raise n).plan = s.plan := rfl
@[simp] theorem State.raise_splice (n : Notice) : (s.raise n).splice = s.splice := rfl
@[simp] theorem State.raise_slitter (n : Notice) : (s.raise n).slitter = s.slitter := rfl
@[simp] theorem State.raise_dry (n : Notice) : (s.raise n).dry = s.dry := rfl
@[simp] theorem State.raise_pins (n : Notice) : (s.raise n).pins = s.pins := rfl
@[simp] theorem State.raise_work (n : Notice) : (s.raise n).work = s.work := rfl
@[simp] theorem State.raise_pending (n : Notice) : (s.raise n).pending = s.pending := rfl

/-! ### What an update sets -/

@[simp] theorem State.channel_setChannel (c : Channel) (r : ChannelRec) : (s.setChannel c r).channel c = r := by
  simp [State.channel, State.setChannel]

@[simp] theorem State.lane_setLane (l : Lane) (r : LaneRec) : (s.setLane l r).lane l = r := by
  simp [State.lane, State.setLane]

@[simp] theorem State.stream_setStream (x : Stream) (r : StreamRec) : (s.setStream x r).stream x = r := by
  simp [State.stream, State.setStream]

@[simp] theorem State.station_setStation (x : Station) (r : StationRec) : (s.setStation x r).station x = r := by
  simp [State.station, State.setStation]

@[simp] theorem State.port_setPort (p : Port) (r : PortRec) : (s.setPort p r).port p = r := by
  simp [State.port, State.setPort]

theorem State.stream_setStream_ite (x y : Stream) (r : StreamRec) :
    (s.setStream x r).stream y = if y = x then r else s.stream y := by
  simp [State.stream, State.setStream, PerStream.get_set]

theorem State.port_setPort_ite (p q : Port) (r : PortRec) : (s.setPort p r).port q = if q = p then r else s.port q := by
  simp [State.port, State.setPort, PerPort.get_set]

@[simp] theorem State.work_push (ts : List Task) : (s.push ts).work = s.work ++ ts := rfl

@[simp] theorem State.link_setLink (l : StandLink) : (s.setLink l).splice.link = l := rfl

@[simp] theorem State.link_setStream (x : Stream) (r : StreamRec) : (s.setStream x r).splice.link = s.splice.link := rfl

@[simp] theorem State.stream_setLink (l : StandLink) (x : Stream) : (s.setLink l).stream x = s.stream x := rfl

theorem State.replan_eq : s.replan = s ∨ s.replan = s.push [.recompute] := by
  unfold State.replan
  split
  · exact .inr rfl
  · exact .inl rfl

theorem State.scanTo_link (x : Option Stream) : (s.scanTo x).splice.link = { s.splice.link with scan := x } := by
  cases x <;> rfl

theorem State.scanTo_stream (x : Option Stream) (y : Stream) :
    (s.scanTo x).stream y = { s.stream y with readPending := (s.stream y).readPending || x == some y } := by
  cases x with
  | none => simp [State.scanTo]
  | some z =>
    by_cases h : y = z
    · subst h; simp [State.scanTo, State.pendRead]
    · have e : (z == y) = false := by simpa using Ne.symm h
      simp [State.scanTo, State.pendRead, State.stream_setStream_ite, h, e]

/-- The scan after a read has been made or abandoned (R99, log 53). -/
theorem State.readMade_link (x : Stream) : (s.readMade x).splice.link =
    if s.splice.link.interrupt && s.splice.link.scan == some x then { s.splice.link with scan := s.profile.nextActive x }
    else s.splice.link := by
  unfold State.readMade
  by_cases h : (s.splice.link.interrupt && s.splice.link.scan == some x) = true
  · simp only [State.link_setStream, h, if_true, State.scanTo_link]
    rfl
  · simp [h]

/-- The reads that are pending after a read has been made or abandoned (R99, R101). -/
theorem State.readMade_stream (x y : Stream) : (s.readMade x).stream y = { s.stream y with
    readPending := ((s.stream y).readPending && y != x) ||
      (s.splice.link.interrupt && s.splice.link.scan == some x && s.profile.nextActive x == some y) } := by
  have k : (s.setStream x { s.stream x with readPending := false }).stream y =
      { s.stream y with readPending := (s.stream y).readPending && y != x } := by
    rw [State.stream_setStream_ite]
    split
    · next h => subst h; simp
    · next h =>
      have e : (y != x) = true := by simpa using h
      simp [e]
  unfold State.readMade
  by_cases h : (s.splice.link.interrupt && s.splice.link.scan == some x) = true
  · simp only [State.link_setStream, h, if_true, State.scanTo_stream, k, Bool.true_and]
    rfl
  · simp [h, k]

/-- An offset corrected or not, the lane's window test comes first of what is made due (R35, step 5). -/
theorem State.correctOffset_work (l : Lane) (k : Int) :
    ∃ ts, (s.correctOffset l k).work = s.work ++ Task.windowTest l :: ts := by
  unfold State.correctOffset State.setOffset State.offsetActs
  split
  · rcases (s.push [.windowTest l]).replan_eq with e | e <;> rw [e] <;> simp
  · split <;> simp [State.setLane]

theorem State.raiseIf_eq (b : Bool) (n : Notice) : s.raiseIf b n = s ∨ s.raiseIf b n = s.raise n := by
  unfold State.raiseIf
  split
  · exact .inr rfl
  · exact .inl rfl

end Sys2Proof.Machine
end

