-- ==== Sys2Proof/Laws/Ports.lean ====
section
/-! SUPPORT. Notices and out-queues: what queueing a class, raising a notice and a queue attempt can do. -/

namespace Sys2Proof.Machine

theorem PortGrows.refl (r : PortRec) : PortGrows r r :=
  ⟨rfl, rfl, rfl, rfl, ⟨[], by simp, by simp, .inl rfl⟩, fun _ h => h⟩

theorem PortGrows.trans {r t u : PortRec} (h : PortGrows r t) (k : PortGrows t u) : PortGrows r u := by
  obtain ⟨l, hl, el, bl⟩ := h.queue
  obtain ⟨m, hm, em, bm⟩ := k.queue
  refine ⟨k.paused.trans h.paused, k.select.trans h.select, k.dataOut.trans h.dataOut, k.enables.trans h.enables,
    ⟨l ++ m, ?_, ?_, ?_⟩, fun n x => k.raw n (h.raw n x)⟩
  · intro f hf
    rcases List.mem_append.mp hf with hf | hf
    · exact hl f hf
    · exact hm f hf
  · rw [em, el, List.append_assoc]
  · rcases bm with rfl | bm
    · rcases bl with rfl | bl
      · exact .inl (by simp)
      · refine .inr ?_
        have : u.queue = t.queue := by simp [em]
        unfold PortRec.bounded PortRec.notices at *
        rwa [this]
    · exact .inr bm

/-- A class that joins finds room, so the limits of R179 hold after it. -/
theorem PortRec.bounded_of_room (p : PortRec) (h : p.room = true) (n : Nat) :
    p.queue.length + 1 ≤ Config.framesMax ∧ ((p.queue ++ [Frame.notice n]).filter Frame.isNotice).length ≤ Config.noticesMax := by
  simp only [PortRec.room, PortRec.notices, Bool.and_eq_true] at h
  have h1 := of_decide_eq_true h.1
  have h2 := of_decide_eq_true h.2
  have e : ([Frame.notice n].filter Frame.isNotice).length = 1 := rfl
  simp only [List.filter_append, List.length_append, e]
  omega

theorem map_enable_modify (l : List NoticeClass) (n : Nat) (f : NoticeClass → NoticeClass)
    (h : ∀ c, (f c).enable = c.enable) : (l.modify n f).map NoticeClass.enable = l.map NoticeClass.enable := by
  induction l generalizing n with
  | nil => cases n <;> simp
  | cons c cs ih =>
    cases n with
    | zero => simp [h]
    | succ n => simp [ih]

theorem raw_modify (l : List NoticeClass) (n m : Nat) (f : NoticeClass → NoticeClass)
    (h : ∀ c, c.raw = true → (f c).raw = true)
    (k : ((l[m]?).map NoticeClass.raw).getD false = true) :
    (((l.modify n f)[m]?).map NoticeClass.raw).getD false = true := by
  rw [List.getElem?_modify]
  cases hm : l[m]? with
  | none => simp [hm] at k
  | some c =>
    simp only [hm, Option.map_some, Option.getD_some] at k ⊢
    split
    · exact h c k
    · exact k

/-- Queueing a class leaves the port as it is, or adds one notice where there is room and sets the marker (R185). -/
theorem PortRec.queueClass_cases (p : PortRec) (n : Nat) :
    p.queueClass n = p ∨
    (p.waiting n = true ∧ p.paused = false ∧ p.room = true ∧
      p.queueClass n =
        { p with queue := p.queue ++ [.notice n], classes := p.classes.modify n fun c => { c with queued := true } }) := by
  unfold PortRec.queueClass
  split
  · next h =>
    simp only [Bool.and_eq_true, Bool.not_eq_true'] at h
    exact .inr ⟨h.1.1, h.1.2, h.2, rfl⟩
  · exact .inl rfl

theorem PortRec.queueClass_grows (p : PortRec) (n : Nat) : PortGrows p (p.queueClass n) := by
  rcases p.queueClass_cases n with h | ⟨-, -, hr, h⟩
  · rw [h]
    exact .refl p
  · rw [h]
    obtain ⟨h1, h2⟩ := p.bounded_of_room hr n
    refine ⟨rfl, rfl, rfl, map_enable_modify _ _ _ fun _ => rfl, ⟨[.notice n], by simp [Frame.isNotice], rfl, .inr ⟨?_, h2⟩⟩, ?_⟩
    · simpa using h1
    · intro m
      exact raw_modify _ _ _ _ fun _ h => h

theorem PortRec.raise_grows (p : PortRec) (n : Nat) : PortGrows p (p.raise n) := by
  unfold PortRec.raise
  refine PortGrows.trans ?_ (PortRec.queueClass_grows _ n)
  exact ⟨rfl, rfl, rfl, map_enable_modify _ _ _ fun _ => rfl, ⟨[], by simp, by simp, .inl rfl⟩,
    fun m => raw_modify _ _ _ _ fun _ _ => rfl⟩

/-- A raised class has its raw flag set (R185). -/
theorem PortRec.raise_raw (p : PortRec) (n : Nat) (h : n < p.classes.length) : (p.raise n).rawOf n = true := by
  refine (PortRec.queueClass_grows _ n).raw n ?_
  simp [PortRec.rawOf, List.getElem?_eq_getElem h]

theorem PortRec.attempt_grows (p : PortRec) : PortGrows p p.attempt := by
  unfold PortRec.attempt
  generalize List.range p.classes.length = l
  induction l generalizing p with
  | nil => exact .refl p
  | cons n ns ih => exact (p.queueClass_grows n).trans (ih _)

/-- The limits of R179 stay while a port only grows. -/
theorem PortGrows.bounded {r t : PortRec} (h : PortGrows r t) (k : r.bounded) : t.bounded := by
  obtain ⟨l, -, e, b⟩ := h.queue
  rcases b with rfl | b
  · have : t.queue = r.queue := by simp [e]
    unfold PortRec.bounded PortRec.notices at *
    rwa [this]
  · exact b

end Sys2Proof.Machine
end

