-- ==== Sys2Proof/Laws/Untouched.lean ====
section
/-! SUPPORT. The acts that follow from a command leave alone what `Untouched` names: first the updates, then each shared
operation that an act uses. -/

namespace Sys2Proof.Machine

variable {s t : State}

theorem Untouched.refl (s : State) : Untouched s s :=
  ⟨rfl, rfl, rfl, rfl, rfl, rfl, rfl, fun _ => rfl, fun _ => .refl _, fun _ => rfl⟩

theorem Untouched.trans {u : State} (h : Untouched s t) (k : Untouched t u) : Untouched s u where
  resetAsserted := k.resetAsserted.trans h.resetAsserted
  part := k.part.trans h.part
  profile := k.profile.trans h.profile
  lmu := k.lmu.trans h.lmu
  pins := k.pins.trans h.pins
  pending := k.pending.trans h.pending
  link := k.link.trans h.link
  stands := fun x => (k.stands x).trans (h.stands x)
  ports := fun p => (h.ports p).trans (k.ports p)
  figures := fun n => by
    have e := h.figures n
    refine (k.figures ?_).trans e
    have : t.book.map (fun r => r.fig.id) = s.book.map fun r => r.fig.id := by
      have := congrArg (List.map OrderFigures.id) e
      simpa [List.map_map, Function.comp_def] using this
    rwa [this]

/-! ### Updates -/

theorem Untouched.withMap (h : Untouched s t) (m : WebMap) : Untouched s { t with map := m } := h.trans
  ⟨rfl, rfl, rfl, rfl, rfl, rfl, rfl, fun _ => rfl, fun _ => .refl _, fun _ => rfl⟩

theorem Untouched.withPlan (h : Untouched s t) (m : Planner) : Untouched s { t with plan := m } := h.trans
  ⟨rfl, rfl, rfl, rfl, rfl, rfl, rfl, fun _ => rfl, fun _ => .refl _, fun _ => rfl⟩

theorem Untouched.withDry (h : Untouched s t) (m : DryList) : Untouched s { t with dry := m } := h.trans
  ⟨rfl, rfl, rfl, rfl, rfl, rfl, rfl, fun _ => rfl, fun _ => .refl _, fun _ => rfl⟩

theorem Untouched.withSlitter (h : Untouched s t) (m : SlitterUnit) : Untouched s { t with slitter := m } := h.trans
  ⟨rfl, rfl, rfl, rfl, rfl, rfl, rfl, fun _ => rfl, fun _ => .refl _, fun _ => rfl⟩

theorem Untouched.withWork (h : Untouched s t) (w : List Task) : Untouched s { t with work := w } := h.trans
  ⟨rfl, rfl, rfl, rfl, rfl, rfl, rfl, fun _ => rfl, fun _ => .refl _, fun _ => rfl⟩

theorem Untouched.push (h : Untouched s t) (ts : List Task) : Untouched s (t.push ts) := h.withWork _

theorem Untouched.replan (h : Untouched s t) : Untouched s t.replan := by
  rcases t.replan_eq with e | e <;> rw [e]
  · exact h
  · exact h.push _

theorem Untouched.raise (h : Untouched s t) (n : Notice) : Untouched s (t.raise n) := h.trans
  { resetAsserted := rfl, part := rfl, profile := rfl, lmu := rfl, pins := rfl, pending := rfl, link := rfl
    stands := fun _ => rfl, figures := fun _ => rfl
    ports := fun p => by
      unfold State.raise
      rw [State.port_setPort_ite]
      split
      · next e => subst e; exact PortRec.raise_grows _ _
      · exact .refl _ }

theorem Untouched.raiseIf (h : Untouched s t) (b : Bool) (n : Notice) : Untouched s (t.raiseIf b n) := by
  rcases t.raiseIf_eq b n with e | e <;> rw [e]
  · exact h
  · exact h.raise n

theorem Untouched.setStream (h : Untouched s t) (x : Stream) (r : StreamRec) (e : r.stand = (t.stream x).stand) :
    Untouched s (t.setStream x r) := h.trans
  { resetAsserted := rfl, part := rfl, profile := rfl, lmu := rfl, pins := rfl, pending := rfl, link := rfl
    ports := fun _ => .refl _, figures := fun _ => rfl
    stands := fun y => by
      rw [State.stream_setStream_ite]
      split
      · next k => rw [k, e]
      · rfl }

theorem Untouched.setSlot (h : Untouched s t) (x : Stream) (v : Option Slot) : Untouched s (t.setSlot x v) :=
  h.setStream x _ rfl

theorem Untouched.setLane (h : Untouched s t) (l : Lane) (r : LaneRec) : Untouched s (t.setLane l r) := h.withMap _

theorem Untouched.setMarks (h : Untouched s t) (l : Lane) (ms : List LaneMark) : Untouched s (t.setMarks l ms) := h.withMap _

theorem Untouched.setStation (h : Untouched s t) (x : Station) (r : StationRec) : Untouched s (t.setStation x r) :=
  h.withSlitter _

theorem Untouched.modifyWindow (h : Untouched s t) (id : Nat) (f : WindowOrder → WindowOrder) :
    Untouched s (t.modifyWindow id f) := h.withPlan _

theorem Untouched.withBook (h : Untouched s t) (b : List OrderRec)
    (e : (t.book.map fun r => r.fig.id).Nodup → b.map OrderRec.fig = t.book.map OrderRec.fig) :
    Untouched s { t with book := b } := h.trans
  ⟨rfl, rfl, rfl, rfl, rfl, rfl, rfl, fun _ => rfl, fun _ => .refl _, e⟩

theorem Untouched.withBookPlan (h : Untouched s t) (b : List OrderRec) (m : Planner)
    (e : (t.book.map fun r => r.fig.id).Nodup → b.map OrderRec.fig = t.book.map OrderRec.fig) :
    Untouched s { t with book := b, plan := m } := h.trans
  ⟨rfl, rfl, rfl, rfl, rfl, rfl, rfl, fun _ => rfl, fun _ => .refl _, e⟩

theorem Untouched.withPlanDry (h : Untouched s t) (m : Planner) (d : DryList) : Untouched s { t with plan := m, dry := d } :=
  h.trans ⟨rfl, rfl, rfl, rfl, rfl, rfl, rfl, fun _ => rfl, fun _ => .refl _, fun _ => rfl⟩

theorem Untouched.modifyOrder (h : Untouched s t) (id : Nat) (f : OrderRec → OrderRec) (e : ∀ r, (f r).fig = r.fig) :
    Untouched s (t.modifyOrder id f) := by
  refine h.withBook _ fun _ => ?_
  rw [List.map_map]
  refine List.map_congr_left fun r _ => ?_
  simp only [Function.comp_apply]
  split
  · exact e r
  · rfl

theorem Untouched.foldl {α : Type} (f : State → α → State) (hf : ∀ {u} (a : α), Untouched s u → Untouched s (f u a))
    (l : List α) (h : Untouched s t) : Untouched s (l.foldl f t) := by
  induction l generalizing t with
  | nil => exact h
  | cons a as ih => exact ih (hf a h)

/-! ### The map -/

theorem Untouched.insertExtent (h : Untouched s t) (x : Extent) : Untouched s (t.insertExtent x) := by
  unfold State.insertExtent
  dsimp only
  split
  · split
    · exact ((h.withMap _).raise _).replan
    · exact (h.withMap _).replan
  · exact h

theorem Untouched.expireExtents (h : Untouched s t) : Untouched s t.expireExtents := by
  unfold State.expireExtents
  split
  · exact (h.withMap _).replan
  · exact h

theorem Untouched.closeClaim (h : Untouched s t) (c : Claim) (e : Pos) : Untouched s (t.closeClaim c e) := by
  unfold State.closeClaim
  split
  · exact (h.withMap _).replan.expireExtents
  · exact h

theorem Untouched.setOffset (h : Untouched s t) (l : Lane) (k : Int) : Untouched s (t.setOffset l k) := by
  unfold State.setOffset
  split
  · exact h
  · exact (h.setLane _ _).push _

theorem Untouched.correctOffset (h : Untouched s t) (l : Lane) (k : Int) : Untouched s (t.correctOffset l k) := by
  unfold State.correctOffset
  split
  · exact (h.push _).replan
  · exact h.setOffset l k

theorem Untouched.setUnsynced (h : Untouched s t) (l : Lane) : Untouched s (t.setUnsynced l) := (h.setLane _ _).raiseIf _ _

theorem Untouched.clearUnsynced (h : Untouched s t) (l : Lane) : Untouched s (t.clearUnsynced l) := h.setLane _ _

theorem Untouched.spillMark (h : Untouched s t) (l : Lane) : Untouched s (t.spillMark l) := by
  unfold State.spillMark
  split
  · exact h
  · split
    · exact (h.setMarks _ _).insertExtent _
    · exact h

theorem Untouched.enterMark (h : Untouched s t) (l : Lane) (x : Stream) (side : Arm) (n : Nat) (f u : Bool) :
    Untouched s (t.enterMark l x side n f u) := by
  unfold State.enterMark
  exact (((h.spillMark l).setLane _ _).push _).replan

theorem Untouched.windowTest (h : Untouched s t) (l : Lane) : Untouched s (t.windowTest l) := by
  unfold State.windowTest
  dsimp only
  split
  · exact h
  · exact Untouched.foldl _ (fun _ k => (k.insertExtent _).raise _) _ (h.setMarks _ _).replan

theorem Untouched.recogniserTest (h : Untouched s t) (l : Lane) : Untouched s (t.recogniserTest l) := by
  unfold State.recogniserTest
  dsimp only
  split
  · exact (h.setLane _ _).push _
  · exact h.setLane _ _

theorem Untouched.confirmSeam (h : Untouched s t) (l : Lane) (q : Pos) (m : LaneMark) : Untouched s (t.confirmSeam l q m) := by
  unfold State.confirmSeam
  dsimp only
  exact Untouched.correctOffset (Untouched.clearUnsynced (Untouched.insertExtent (h.setMarks _ _) _) _) _ _

theorem Untouched.matchSeam (h : Untouched s t) (l : Lane) (q : Pos) : Untouched s (t.matchSeam l q) := by
  unfold State.matchSeam
  split
  · exact h.confirmSeam _ _ _
  · exact (h.insertExtent _).raise _

theorem Untouched.takeZone (h : Untouched s t) (n : Nat) : Untouched s (t.takeZone n) := by
  unfold State.takeZone
  split
  · dsimp only
    split
    · exact ((h.withMap _).insertExtent _).raise _
    · exact h.withMap _
  · exact h

theorem Untouched.takeDueZones (h : Untouched s t) : Untouched s t.takeDueZones := by
  unfold State.takeDueZones
  refine Untouched.foldl _ (fun n k => ?_) _ h
  split
  · exact k.takeZone _
  · exact k

/-! ### Lines of the window -/

/-- Each line names a record of the book by its id and carries that record's figures. -/
def LinesOf (t : State) (ls : List Line) : Prop := ∀ l ∈ ls, ∃ r ∈ t.book, r.fig = l.r.fig ∧ r.fig.id = l.w.id

theorem linesOf_lines (t : State) : LinesOf t t.lines := by
  intro l hl
  simp only [State.lines, List.mem_filterMap, Option.map_eq_some_iff] at hl
  obtain ⟨w, -, r, hr, rfl⟩ := hl
  have e := List.find?_some hr
  exact ⟨r, List.mem_of_find?_eq_some hr, rfl, by simpa using e⟩

theorem LinesOf.filter {ls : List Line} (h : LinesOf t ls) (p : Line → Bool) : LinesOf t (ls.filter p) :=
  fun l hl => h l (List.mem_of_mem_filter hl)

theorem LinesOf.map {ls : List Line} (h : LinesOf t ls) (f : Line → Line) (hf : ∀ l, (f l).r.fig = l.r.fig ∧ (f l).w.id = l.w.id) :
    LinesOf t (ls.map f) := by
  intro l hl
  obtain ⟨m, hm, rfl⟩ := List.mem_map.mp hl
  obtain ⟨r, hr, e1, e2⟩ := h m hm
  exact ⟨r, hr, e1.trans (hf m).1.symm, e2.trans (hf m).2.symm⟩

theorem replanLine_same (u : State) (k : Option PrevFigures) (l : Line) :
    (u.replanLine k l).r.fig = l.r.fig ∧ (u.replanLine k l).w.id = l.w.id := by
  exact ⟨rfl, rfl⟩

theorem countLine_same (u : State) (e : Option Pos) (sp : List (Pos × Pos)) (l : Line) :
    (u.countLine e sp l).r.fig = l.r.fig ∧ (u.countLine e sp l).w.id = l.w.id := by
  unfold State.countLine
  dsimp only
  repeat' split
  all_goals exact ⟨rfl, rfl⟩

theorem LinesOf.cons {l m : Line} {ls ms : List Line} (h : LinesOf t (l :: ls)) (e : m.r.fig = l.r.fig ∧ m.w.id = l.w.id)
    (k : LinesOf t ls → LinesOf t ms) : LinesOf t (m :: ms) := by
  intro x hx
  rcases List.mem_cons.mp hx with rfl | hx
  · obtain ⟨r, hr, e1, e2⟩ := h l (by simp)
    exact ⟨r, hr, e1.trans e.1.symm, e2.trans e.2.symm⟩
  · exact k (fun y hy => h y (by simp [hy])) x hx

theorem LinesOf.replanLines (u : State) (k : Option Line) {ls : List Line} (h : LinesOf t ls) :
    LinesOf t (u.replanLines k ls) := by
  induction ls generalizing k with
  | nil => exact h
  | cons l ls ih =>
    unfold State.replanLines
    exact h.cons (replanLine_same _ _ _) (ih _)

theorem LinesOf.countLines (u : State) (e : Option Pos) (sp : List (Pos × Pos)) {ls : List Line} (h : LinesOf t ls) :
    LinesOf t (u.countLines e sp ls) := by
  induction ls generalizing e sp with
  | nil => exact h
  | cons l ls ih =>
    unfold State.countLines
    exact h.cons (countLine_same _ _ _ _) (ih _ _)

theorem LinesOf.shiftLines (e : Option Pos) {ls : List Line} (h : LinesOf t ls) : LinesOf t (shiftLines e ls) := by
  induction ls generalizing e with
  | nil => exact h
  | cons l ls ih =>
    unfold Machine.shiftLines
    refine h.cons ?_ (ih _)
    dsimp only
    repeat' split
    all_goals exact ⟨rfl, rfl⟩

theorem Untouched.writeLines (h : Untouched s t) (ls : List Line) (k : LinesOf t ls) : Untouched s (t.writeLines ls) := by
  unfold State.writeLines
  refine h.withBookPlan _ _ fun nd => ?_
  rw [List.map_map]
  refine List.map_congr_left fun r hr => ?_
  simp only [Function.comp_apply]
  cases hf : ls.find? fun l => l.w.id == r.fig.id with
  | none => rfl
  | some l =>
    obtain ⟨r', hr', e1, e2⟩ := k l (List.mem_of_find?_eq_some hf)
    have e3 := List.find?_some hf
    simp only [beq_iff_eq] at e3
    have : r' = r := List.inj_on_of_nodup_map nd hr' hr (e2.trans e3)
    simp only [Option.map_some, Option.getD_some]
    rw [← e1, this]

/-! ### The planner -/

theorem Untouched.followW0 (h : Untouched s t) : Untouched s t.followW0 := by
  unfold State.followW0
  split
  · exact h.withPlan _
  · exact h

theorem Untouched.refreshSlot (h : Untouched s t) (x : Stream) : Untouched s (t.refreshSlot x) := by
  unfold State.refreshSlot
  dsimp only
  repeat' split
  all_goals first | exact h | exact h.setSlot _ _

theorem Untouched.refreshSlots (h : Untouched s t) : Untouched s t.refreshSlots :=
  Untouched.foldl _ (fun _ k => k.refreshSlot _) _ h

theorem Untouched.shiftPlan (h : Untouched s t) : Untouched s t.shiftPlan :=
  ((h.writeLines _ ((linesOf_lines t).shiftLines _)).followW0).refreshSlots

theorem Untouched.insertSpan (h : Untouched s t) (l : Line) : Untouched s (t.insertSpan l) := by
  unfold State.insertSpan
  split
  · exact (h.modifyWindow _ _).insertExtent _
  · exact h

theorem LinesOf.pinned {l : Line} (h : l ∈ t.lines) (m : Bool) : LinesOf t [(t.countFinal l).pin m] := by
  intro x hx
  rw [List.mem_singleton] at hx
  subst hx
  obtain ⟨r, hr, e1, e2⟩ := linesOf_lines t l h
  have k := countLine_same t ((lineBefore l.w.id none t.lines).bind fun k => k.r.e) (t.spansUpTo l.w.id t.lines) l
  exact ⟨r, hr, e1.trans k.1.symm, e2.trans k.2.symm⟩

theorem Untouched.pinOne (h : Untouched s t) (id : Nat) (m : Bool) : Untouched s (t.pinOne id m) := by
  unfold State.pinOne
  split
  · exact h
  · next l hl =>
    split
    · exact h
    · have b := ((h.writeLines _ (LinesOf.pinned (List.mem_of_find?_eq_some hl) m)).shiftPlan.raise .pinned).replan
      dsimp only
      split
      · exact b.insertSpan _
      · exact b

theorem Untouched.pinEnd (h : Untouched s t) (id : Nat) (m : Bool) : Untouched s (t.pinEnd id m) := by
  unfold State.pinEnd
  split
  · exact Untouched.foldl _ (fun _ k => k.pinOne _ _) _ h
  · exact h

theorem Untouched.pinStart (h : Untouched s t) (id : Nat) : Untouched s (t.pinStart id) := by
  unfold State.pinStart
  split
  · exact h.pinEnd _ _
  · exact h

theorem Untouched.insertPinnedSpans (h : Untouched s t) : Untouched s t.insertPinnedSpans := by
  unfold State.insertPinnedSpans
  refine Untouched.foldl _ (fun _ k => ?_) _ h
  split
  · exact k.insertSpan _
  · exact k

theorem Untouched.spendTarget (h : Untouched s t) (id : Nat) (x : Stream) : Untouched s (t.spendTarget id x) :=
  h.modifyWindow _ _

theorem Untouched.offerFrom (x : Stream) (ls : List (Line × PrevFigures)) (h : Untouched s t) :
    Untouched s (State.offerFrom x ls t) := by
  induction ls generalizing t with
  | nil => exact h
  | cons l ls ih =>
    unfold State.offerFrom
    dsimp only
    repeat' split
    · exact ih (h.spendTarget _ _)
    · exact h.setSlot _ _
    · exact ih h

theorem Untouched.offerTargets (h : Untouched s t) (x : Stream) : Untouched s (t.offerTargets x) := by
  unfold State.offerTargets
  split
  · exact Untouched.offerFrom _ _ h
  · exact h

theorem Untouched.withdrawTarget (h : Untouched s t) (x : Stream) : Untouched s (t.withdrawTarget x) := by
  unfold State.withdrawTarget
  repeat' split
  all_goals first | exact h | exact (h.setSlot _ _).push _

theorem Untouched.fireTrigger (h : Untouched s t) : Untouched s t.fireTrigger := by
  unfold State.fireTrigger
  split
  · exact h
  · exact ((((h.modifyWindow _ _).withPlan _).raise _).pinStart _).push _

theorem Untouched.gapDecision (h : Untouched s t) (prev : PrevFigures) (r : OrderRec) :
    Untouched s (t.gapDecision prev r).1 := by
  unfold State.gapDecision
  dsimp only
  split
  · exact h
  · dsimp only
    split
    · exact h.pinEnd _ _
    · exact h

theorem Untouched.block (h : Untouched s t) (r : OrderRec) (b : Blocked) (st : Option Station) :
    Untouched s (t.block r b st) := by
  refine Untouched.raiseIf (Untouched.modifyOrder h _ _ ?_) _ _
  intro _
  rfl

theorem Untouched.startCutting (h : Untouched s t) (id : Nat) : Untouched s (t.startCutting id) := by
  unfold State.startCutting
  repeat' split
  · refine Untouched.raise (Untouched.modifyOrder h _ _ ?_) _
    intro _
    rfl
  · exact h
  · exact h

theorem Untouched.cutting (h : Untouched s t) : Untouched s t.cutting :=
  Untouched.foldl _ (fun _ k => k.startCutting _) _ h

theorem Untouched.watchQueued (h : Untouched s t) (b : State) : Untouched s (State.watchQueued b t) := h.raiseIf _ _

theorem Untouched.entryGap (h : Untouched s t) (r : OrderRec) (prev : Option PrevFigures) : Untouched s (t.entryGap r prev).1 := by
  cases prev with
  | none => exact h
  | some p => exact h.gapDecision p r

theorem Untouched.joinWindow (h : Untouched s t) (id : Nat) (prev : Option PrevFigures) (st : Station) (n : Nat) :
    Untouched s (t.joinWindow id prev st n) := by
  unfold State.joinWindow
  refine Untouched.withPlanDry (Untouched.modifyOrder h _ _ ?_) _ _
  intro _
  rfl

theorem Untouched.countEntered (h : Untouched s t) (id : Nat) (b : Bool) : Untouched s (t.countEntered id b) := by
  unfold State.countEntered
  have k := h.writeLines _ (((linesOf_lines t).filter fun l => l.w.id == id).map
    (t.countLine none (t.spansUpTo id t.lines)) fun l => countLine_same _ _ _ _)
  exact (((k.followW0.raiseIf _ _).raise _).startCutting _).replan

theorem Untouched.takeOrder (h : Untouched s t) (r : OrderRec) (prev : Option PrevFigures) (st : Station) :
    Untouched s (t.takeOrder r prev st) := by
  unfold State.takeOrder
  refine Untouched.countEntered (Untouched.joinWindow (Untouched.entryGap (Untouched.watchQueued
    (Untouched.modifyOrder h _ _ ?_) t) _ _) _ _ _ _) _ _
  intro _
  rfl

theorem Untouched.fillOne (h : Untouched s t) : Untouched s t.fillOne := by
  unfold State.fillOne
  dsimp only
  repeat' split
  · exact h
  · exact h.block _ _ _
  · exact h.block _ _ _
  · exact h.takeOrder _ _ _
  · exact h

theorem Untouched.setTargets (h : Untouched s t) : Untouched s t.setTargets :=
  Untouched.foldl _ (fun _ k => k.offerTargets _) _ (Untouched.foldl _ (fun _ k => k.withdrawTarget _) _ h.refreshSlots)

theorem Untouched.setSwaps (h : Untouched s t) : Untouched s t.setSwaps :=
  h.writeLines _ ((linesOf_lines t).replanLines t none)

theorem Untouched.recompute (h : Untouched s t) : Untouched s t.recompute := by
  unfold State.recompute
  split
  · have k := (h.writeLines _ ((linesOf_lines t).countLines t none [])).followW0
    exact k.setTargets.setSwaps.insertPinnedSpans.fillOne.push _
  · exact h

end Sys2Proof.Machine
end

