-- ==== Sys2Proof/Laws/Acts.lean ====
section
/-! SUPPORT. Every act of `Task`, and the settling of an event, leaves alone what `Untouched` names; what an event and a
request answer. -/

namespace Sys2Proof.Machine

variable {s t : State}

/-! ### The Splice Sequencer -/

theorem stand_setArm (t : State) (x : Stream) (arm : Arm) (r : ArmRec) (e : r.stand = (t.arm x arm).stand) :
    ((t.setArm x arm r).stream x).stand = (t.stream x).stand := by
  unfold State.setArm State.arm at *
  rw [State.stream_setStream]
  cases arm <;> simp only [StreamRec.stand, PerArm.set, PerArm.get] at e ⊢ <;> rw [e]

theorem Untouched.setArm (h : Untouched s t) (x : Stream) (arm : Arm) (r : ArmRec) (e : r.stand = (t.arm x arm).stand) :
    Untouched s (t.setArm x arm r) := by
  refine h.setStream x _ ?_
  have := stand_setArm t x arm r e
  unfold State.setArm at this
  rwa [State.stream_setStream] at this

theorem ArmRec.stand_enable (r : ArmRec) : r.enable.stand = r.stand := by
  unfold ArmRec.enable
  split <;> rfl

theorem Untouched.commitSlot (h : Untouched s t) (x : Stream) (v : Slot) (arm : Arm) : Untouched s (t.commitSlot x v arm) :=
  (((h.setArm x arm _ (ArmRec.stand_enable _)).setSlot _ _).raise _).raiseIf _ _

theorem Untouched.commitTest (h : Untouched s t) (x : Stream) : Untouched s (t.commitTest x) := by
  unfold State.commitTest
  split
  · exact h
  · next v _ =>
    split
    · dsimp only
      have k : Untouched s ((v.target?.map t.pinStart).getD t) := by
        cases v.target? with
        | none => exact h
        | some id => exact h.pinStart id
      revert k
      generalize (v.target?.map t.pinStart).getD t = u
      intro k
      split
      · exact k.commitSlot _ _ _
      · exact (k.setSlot _ _).raiseIf _ _
    · exact h

theorem Untouched.deferredTest (h : Untouched s t) (x : Stream) : Untouched s (t.deferredTest x) := by
  unfold State.deferredTest
  repeat' split
  all_goals first | exact h | exact h.commitSlot _ _ _

theorem Untouched.wrongGradeTest (h : Untouched s t) (x : Stream) : Untouched s (t.wrongGradeTest x) := by
  unfold State.wrongGradeTest
  repeat' split
  all_goals first | exact h | exact (h.setSlot _ _).insertExtent _

theorem Untouched.fireSplice (h : Untouched s t) (x : Stream) (v : Slot) : Untouched s (t.fireSplice x v) := by
  unfold State.fireSplice
  dsimp only
  have k := h.setStream x { t.stream x with
    slot := some { v with
      state := .fired, fireCount := t.streamCount x, fast := t.tooFast x, unsynced := t.laneUnsynced x }
    fire := true, fireLeft := Config.fireTicks } rfl
  repeat' split
  · exact (k.closeClaim _ _).insertExtent _
  · exact k.insertExtent _
  · exact k.closeClaim _ _
  · exact k

theorem Untouched.fireTest (h : Untouched s t) (x : Stream) : Untouched s (t.fireTest x) := by
  unfold State.fireTest
  repeat' split
  all_goals first | exact h | exact h.fireSplice _ _

theorem Untouched.insertFault (h : Untouched s t) (x : Stream) (v : Slot) : Untouched s (t.insertFault x v) := h.insertExtent _

theorem Untouched.faultSplice (h : Untouched s t) (x : Stream) (v : Slot) : Untouched s (t.faultSplice x v) := by
  unfold State.faultSplice
  dsimp only
  refine Untouched.insertFault ?_ x v
  have k := h.setSlot x (some { v with state := .fault })
  revert k
  generalize t.setSlot x (some { v with state := .fault }) = u
  intro k
  exact k.setArm x _ _ rfl

theorem Untouched.doneWindowTest (h : Untouched s t) (x : Stream) : Untouched s (t.doneWindowTest x) := by
  unfold State.doneWindowTest
  split
  · exact h
  · next v _ =>
    split
    · dsimp only
      have k := h.faultSplice x v
      refine Untouched.raise ?_ _
      cases v.target? with
      | none => exact k
      | some id => exact k.spendTarget id x
    · exact h

theorem Untouched.runoutConflict (h : Untouched s t) (x : Stream) (v : Slot) (arm : Arm) (f : Pos) :
    Untouched s (t.runoutConflict x v arm f) := by
  unfold State.runoutConflict
  dsimp only
  split
  · exact ((h.setSlot _ _).raise _).push _
  · exact ((h.setSlot _ _).raise _).push _

theorem Untouched.runoutTest (h : Untouched s t) (x : Stream) : Untouched s (t.runoutTest x) := by
  unfold State.runoutTest
  dsimp only
  repeat' split
  all_goals first | exact h | exact (h.setSlot _ _).push _ | exact h.runoutConflict _ _ _ _

theorem Untouched.slotFreeAct (h : Untouched s t) (x : Stream) : Untouched s (t.slotFreeAct x) := (h.offerTargets x).push _

/-! ### The Slitter Station Unit -/

theorem Untouched.modifyTool (h : Untouched s t) (st : Station) (k : ToolKind) (n : Nat) (f : Tool → Tool) :
    Untouched s (t.modifyTool st k n f) := h.setStation _ _

theorem Untouched.dropMoves (h : Untouched s t) (p : MoveEntry → Bool) : Untouched s (t.dropMoves p) := h.withSlitter _

theorem Untouched.joinMoves (h : Untouched s t) (ms : List MoveEntry) : Untouched s (t.joinMoves ms) :=
  (h.withSlitter _).raiseIf _ _

theorem Untouched.loseMoves (h : Untouched s t) (st : Station) : Untouched s (t.loseMoves st) := (h.setStation _ _).dropMoves _

theorem Untouched.assignLayout (h : Untouched s t) (st : Station) (l : Layout) (b : Bool) :
    Untouched s (t.assignLayout st l b) := ((h.setStation _ _).dropMoves _).joinMoves _

theorem Untouched.failStation (h : Untouched s t) (st : Station) : Untouched s (t.failStation st) :=
  ((h.loseMoves st).setStation _ _).raise _

theorem Untouched.lapseSwap (h : Untouched s t) (st : Station) (l : LateSwap) : Untouched s (t.lapseSwap st l) :=
  (((h.closeClaim _ _).modifyWindow _ _).setStation _ _).replan

theorem Untouched.resolveSwap (h : Untouched s t) (st : Station) (l : LateSwap) (x : Pos) :
    Untouched s (t.resolveSwap st l x) := by
  unfold State.resolveSwap
  dsimp only
  split
  · exact (((((h.modifyWindow _ _).closeClaim _ _)).insertExtent _).setStation _ _).replan
  · exact (((h.modifyWindow _ _).closeClaim _ _).setStation _ _).replan

theorem Untouched.settleSwap (h : Untouched s t) (st : Station) : Untouched s (t.settleSwap st) := by
  unfold State.settleSwap
  repeat' split
  all_goals first | exact h | exact h.resolveSwap _ _ _ | exact h.lapseSwap _ _

theorem Untouched.lapseTest (h : Untouched s t) (st : Station) : Untouched s (t.lapseTest st) := by
  unfold State.lapseTest
  repeat' split
  all_goals first | exact h | exact h.lapseSwap _ _

theorem Untouched.takeLateSwap (h : Untouched s t) (st : Station) (id : Nat) (b : Bool) :
    Untouched s (t.takeLateSwap st id b) := by
  unfold State.takeLateSwap
  dsimp only
  have k : Untouched s ((match (t.station st).late with
      | some l => t.lapseSwap st l
      | none => t).pinStart id) := by
    refine Untouched.pinStart ?_ id
    split
    · exact h.lapseSwap _ _
    · exact h
  revert k
  generalize ((match (t.station st).late with
      | some l => t.lapseSwap st l
      | none => t).pinStart id) = u
  intro k
  split
  · exact ((((k.modifyWindow _ _).insertExtent _).setStation _ _).raise _).replan
  · exact k

theorem Untouched.becomeReady (h : Untouched s t) (st : Station) : Untouched s (t.becomeReady st) :=
  ((h.setStation _ _).raise _).settleSwap st

theorem Untouched.startSetup (h : Untouched s t) (st : Station) (d : Demand) : Untouched s (t.startSetup st d) := by
  unfold State.startSetup
  dsimp only
  have k := fun r : StationRec => ((h.setStation st r).modifyWindow d.order fun w => { w with setupOn := some st }).dropMoves
    fun m => m.station == st
  repeat' split
  · exact ((k _).assignLayout _ _ _).setStation _ _
  · exact ((k _).assignLayout _ _ _).becomeReady _
  · exact (k _).failStation _

theorem Untouched.setupForDemand (h : Untouched s t) (st : Station) : Untouched s (t.setupForDemand st) := by
  unfold State.setupForDemand
  split
  · exact h.startSetup _ _
  · exact h

theorem Untouched.demandChanged (h : Untouched s t) (st : Station) (d : Option Demand) : Untouched s (t.demandChanged st d) := by
  unfold State.demandChanged
  dsimp only
  repeat' split
  all_goals first
    | exact h
    | exact h.startSetup _ _
    | exact (h.loseMoves _).setStation _ _
    | exact (h.setStation _ _).modifyWindow _ _
    | exact (((h.setStation _ _).modifyWindow _ _).raise _).settleSwap _
    | exact h.setStation _ _

theorem Untouched.setDemand (h : Untouched s t) (st : Station) : Untouched s (t.setDemand st) := by
  unfold State.setDemand
  dsimp only
  repeat' split
  all_goals first | exact h | exact (h.setStation _ _).demandChanged _ _

theorem Untouched.dropStation (h : Untouched s t) (st : Station) : Untouched s (t.dropStation st) := by
  unfold State.dropStation
  dsimp only
  split
  · exact (h.setStation _ _).push _
  · exact (((h.loseMoves _).insertExtent _).setStation _ _).push _

theorem Untouched.liftStation (h : Untouched s t) (st : Station) : Untouched s (t.liftStation st) := by
  unfold State.liftStation
  dsimp only
  split
  · exact ((h.setStation _ _).closeClaim _ _).setupForDemand _
  · exact h

/-! ### The Dry Action List -/

theorem Untouched.joinReleased (h : Untouched s t) (r : ActionRec) : Untouched s (t.joinReleased r) :=
  (h.withDry _).raiseIf _ _

theorem Untouched.passCut (h : Untouched s t) (p : PendingRec) : Untouched s (t.passCut p) := by
  unfold State.passCut
  split
  all_goals first | exact h | exact h.modifyWindow _ _ | exact h.withDry _

theorem Untouched.releaseCut (h : Untouched s t) (p : PendingRec) : Untouched s (t.releaseCut p) := by
  unfold State.releaseCut
  dsimp only
  refine Untouched.push (Untouched.replan (Untouched.passCut ?_ p)) _
  split
  · exact ((h.joinReleased _).withDry _).modifyWindow _ _
  · exact (h.joinReleased _).withDry _

theorem Untouched.releaseMove (h : Untouched s t) (p : PendingRec) : Untouched s (t.releaseMove p) :=
  (((h.joinReleased _).withDry _).modifyWindow _ _).push _

theorem Untouched.gateMove (h : Untouched s t) (p : PendingRec) : Untouched s (t.gateMove p) := by
  unfold State.gateMove
  repeat' split
  all_goals first | exact h.releaseMove _ | exact (h.takeLateSwap _ _ _).push _

theorem Untouched.releaseTest (h : Untouched s t) : Untouched s t.releaseTest := by
  unfold State.releaseTest
  repeat' split
  all_goals first
    | exact h
    | exact (h.pinEnd _ _).push _
    | exact h.releaseCut _
    | exact (h.pinStart _).push _
    | exact h.gateMove _

theorem Untouched.dropReleased (h : Untouched s t) (q : Nat) : Untouched s (t.dropReleased q) := h.withDry _

theorem Untouched.countOrder (h : Untouched s t) (id : Nat) (f : OrderCounts → OrderCounts) : Untouched s (t.countOrder id f) := by
  unfold State.countOrder
  split
  · refine Untouched.modifyOrder h _ _ ?_
    intro _
    rfl
  · exact h

theorem Untouched.moveStation (h : Untouched s t) (r : ActionRec) : Untouched s (t.moveStation r) := by
  unfold State.moveStation
  split
  · exact h.dropStation _
  · exact h.liftStation _
  · exact h

theorem Untouched.execute (h : Untouched s t) (r : ActionRec) (m : Nat) : Untouched s (t.execute r m) := by
  unfold State.execute
  dsimp only
  split
  · exact (((h.dropReleased _).raiseIf _ _).countOrder _ _).push _
  · exact ((h.dropReleased _).moveStation _).push _

theorem Untouched.declare (h : Untouched s t) : Untouched s t.declare := by
  unfold State.declare
  split
  · exact h
  · dsimp only
    refine Untouched.push (Untouched.raise ?_ _) _
    split
    · exact (h.dropReleased _).countOrder _ _
    · exact (h.dropReleased _).moveStation _

theorem Untouched.dropCut (h : Untouched s t) (p : PendingRec) : Untouched s (t.dropCut p) := by
  unfold State.dropCut
  dsimp only
  refine Untouched.push (Untouched.replan (Untouched.withDry ?_ _)) _
  split
  · exact ((h.passCut p).countOrder _ _).modifyWindow _ _
  · exact h.passCut p

theorem Untouched.overrunLift (h : Untouched s t) (p : PendingRec) (st : Station) : Untouched s (t.overrunLift p st) := by
  unfold State.overrunLift
  dsimp only
  have k := (h.withDry { t.dry with
    strays := t.dry.strays.map fun x => if x.pendingRec = p then { x with overrun := true } else x }).modifyWindow p.order
    fun w => w.markOverrun p
  split
  · exact k.insertExtent _
  · exact k

theorem Untouched.overrunRec (h : Untouched s t) (p : PendingRec) : Untouched s (t.overrunRec p) := by
  unfold State.overrunRec
  split
  · exact h.overrunLift _ _
  · exact (h.takeLateSwap _ _ _).settleSwap _
  · split
    · exact (h.pinEnd _ _).dropCut _
    · exact h.dropCut _

theorem Untouched.overrun (h : Untouched s t) : Untouched s t.overrun := by
  unfold State.overrun
  split
  · exact h
  · exact ((h.overrunRec _).raise _).push _

theorem Untouched.departTarget (h : Untouched s t) (id : Nat) (x : Stream) : Untouched s (t.departTarget id x) := by
  unfold State.departTarget
  repeat' split
  all_goals first | exact h | exact h.setSlot _ _

theorem Untouched.leaveHead (h : Untouched s t) : Untouched s t.leaveHead := by
  unfold State.leaveHead
  split
  · dsimp only
    refine Untouched.push (Untouched.replan (Untouched.foldl _ (fun _ k => k.departTarget _ _) _
      (Untouched.withPlanDry ?_ _ _))) _
    refine Untouched.foldl _ (fun st k => ?_) _ h
    split
    · split
      · exact k.lapseSwap _ _
      · exact k
    · exact k
  · exact h

theorem Untouched.closeTest (h : Untouched s t) (id : Nat) : Untouched s (t.closeTest id) := by
  unfold State.closeTest
  repeat' split
  · refine Untouched.leaveHead (Untouched.raiseIf (Untouched.raise (Untouched.modifyOrder h _ _ ?_) _) _ _)
    intro _
    rfl
  all_goals first | exact h | exact h.leaveHead

/-! ### Acts and events -/

/-- One act leaves alone what `Untouched` names. -/
theorem perform_untouched (k : Task) (t : State) : Untouched t (perform k t) := by
  have h := Untouched.refl t
  cases k with
  | recognise => exact (h.recogniserTest .one).recogniserTest .two
  | matchSeam l q => exact h.matchSeam l q
  | windowTest l => exact h.windowTest l
  | expiry => exact h.expireExtents
  | cutting => exact h.cutting
  | recompute => exact h.recompute
  | triggers => exact h.fireTrigger
  | doneWindow x => exact h.doneWindowTest x
  | commitTest x => exact h.commitTest x
  | wrongGrade x => exact h.wrongGradeTest x
  | fireTest x => exact h.fireTest x
  | runout x => exact h.runoutTest x
  | deferred x => exact h.deferredTest x
  | slotFree x => exact h.slotFreeAct x
  | demand st => exact h.setDemand st
  | lapse st => exact h.lapseTest st
  | declare => exact h.declare
  | release => exact h.releaseTest
  | overrun => exact h.overrun
  | close id => exact h.closeTest id

/-- What `lastRecompute` drops is a recomputation that a later one serves for: the acts due are the same. -/
theorem mem_lastRecompute (a : Task) (l : List Task) : a ∈ lastRecompute l ↔ a ∈ l := by
  induction l with
  | nil => rfl
  | cons b l ih =>
    unfold lastRecompute
    split
    · next h =>
      simp only [Bool.and_eq_true, beq_iff_eq, List.contains_eq_mem, decide_eq_true_eq] at h
      rw [ih, List.mem_cons, h.1]
      exact ⟨.inr, fun k => k.elim (fun e => e ▸ h.2) id⟩
    · rw [List.mem_cons, List.mem_cons, ih]

theorem settle_untouched (n : Nat) (t : State) : Untouched t (settle n t) := by
  induction n generalizing t with
  | zero => exact .refl t
  | succ n ih =>
    unfold settle
    split
    · exact .refl t
    · next k rest _ =>
      exact (((Untouched.refl t).withWork []).trans (perform_untouched k _)).withWork _ |>.trans (ih _)

/-- The acts that follow from a command leave alone what `Untouched` names (log 8). -/
theorem settled_untouched (t : State) : Untouched t t.settled :=
  ((Untouched.refl t).withWork _).trans (settle_untouched _ _)

/-- With no act due, nothing follows. -/
theorem settle_nil (n : Nat) (t : State) (h : t.work = []) : settle n t = t := by
  cases n with
  | zero => rfl
  | succ n =>
    unfold settle
    rw [h]

theorem settled_nil (t : State) (h : t.work = []) : t.settled = t := by
  have e : lastRecompute t.work = t.work := by
    rw [h]
    rfl
  unfold State.settled
  rw [e]
  exact settle_nil _ t h

/-- An event answers a next state in every case. -/
theorem event_next (f : State → State) (s : State) : event f s = .next (if s.resetAsserted then s else (f s).settled) := rfl

/-- While the reset input is asserted an event changes nothing. -/
theorem event_held (f : State → State) (s : State) (h : s.resetAsserted = true) : event f s = .next s := by
  simp [event, h]

/-- An event that makes no act due answers its own change. -/
theorem event_quiet (f : State → State) (s : State) (h : s.resetAsserted = false) (w : (f s).work = []) :
    event f s = .next (f s) := by
  simp [event, h, settled_nil _ w]

/-- A request is dropped, refused RIGHTS, refused by its rule, or done: the whole of what taking it can do (R179, R181). -/
theorem takeRequest_cases (s : State) (p : Port) (tag : Byte) (kind : Nat) (v : Verdict) :
    (s.portFull p = true ∧ s.takeRequest p tag kind v = s.dropRequest p) ∨
    (s.portFull p = false ∧ accepted p kind = false ∧
      s.takeRequest p tag kind v = s.reply p (refusedReply kind tag RefusalCause.rights.code 0)) ∨
    (s.portFull p = false ∧ accepted p kind = true ∧ ∃ c x, v = .refuse c x ∧
      s.takeRequest p tag kind v = s.reply p (refusedReply kind tag c.code x)) ∨
    (s.portFull p = false ∧ accepted p kind = true ∧ ∃ payload before after, v = .done payload before after ∧
      s.takeRequest p tag kind v = after ((before s).reply p (doneReply kind tag payload))) := by
  unfold State.takeRequest State.judge
  cases hf : s.portFull p with
  | true => exact .inl ⟨rfl, by simp⟩
  | false =>
    cases ha : accepted p kind with
    | false => exact .inr (.inl ⟨rfl, rfl, by simp⟩)
    | true =>
      cases v with
      | refuse c x => exact .inr (.inr (.inl ⟨rfl, rfl, c, x, rfl, by simp [State.answer]⟩))
      | done payload before after => exact .inr (.inr (.inr ⟨rfl, rfl, payload, before, after, rfl, by simp [State.answer]⟩))

end Sys2Proof.Machine
end

