-- ==== Sys2Proof/Laws/Track.lean ====
section
/-! SUPPORT. What an insertion into the main track can do: every extent that stood, and the one inserted, lives on in an
extent that has grown from it; from that, what `covers` and `opensClaim` say of an insertion, and its frame (R22, R23). -/

namespace Sys2Proof.Machine

/-- An extent lives on in another: it starts no later, ends no earlier, stays OPEN with its claims, and keeps its causes. -/
structure Extent.GrowsTo (y z : Extent) : Prop where
  start : z.start ≤ y.start
  causes : ∀ c ∈ y.causes, c ∈ z.causes
  claims : y.finish = none → z.finish = none ∧ ∀ c ∈ y.claims, c ∈ z.claims
  finish : ∀ e f, y.finish = some e → z.finish = some f → e ≤ f

theorem Extent.GrowsTo.refl (y : Extent) : y.GrowsTo y :=
  ⟨le_refl _, fun _ h => h, fun h => ⟨h, fun _ h => h⟩, fun e f h k => by rw [h] at k; cases k; exact le_refl e⟩

theorem Extent.GrowsTo.trans {x y z : Extent} (h : x.GrowsTo y) (k : y.GrowsTo z) : x.GrowsTo z where
  start := le_trans k.start h.start
  causes c m := k.causes c (h.causes c m)
  claims o := ⟨(k.claims (h.claims o).1).1, fun c m => (k.claims (h.claims o).1).2 c ((h.claims o).2 c m)⟩
  finish e f p q := by
    cases r : y.finish with
    | none => rw [(k.claims r).1] at q; cases q
    | some g => exact le_trans (h.finish e g p r) (k.finish g f r q)

theorem Extent.GrowsTo.holds {y z : Extent} (h : y.GrowsTo z) {q : Pos} (k : y.holds q) : z.holds q := by
  refine ⟨lt_of_le_of_lt h.start k.1, fun f p => ?_⟩
  cases r : y.finish with
  | none => rw [(h.claims r).1] at p; cases p
  | some e => exact le_trans (k.2 e r) (h.finish e f r p)

/-! ### Merging -/

theorem mem_unionCauses (x y : List Cause) (c : Cause) : c ∈ unionCauses x y ↔ c ∈ x ∨ c ∈ y := by
  have all : c ∈ Cause.all := by cases c <;> decide
  simp [unionCauses, all]

theorem mem_unionClaims (x y : List Claim) (c : Claim) : c ∈ unionClaims x y ↔ c ∈ x ∨ c ∈ y := by
  have all : c ∈ Claim.all := by rcases c with x | x | x | x <;> cases x <;> decide
  simp [unionClaims, all]

theorem mem_foldl_unionCauses (l : List Extent) (x : List Cause) (c : Cause) :
    c ∈ l.foldl (fun m y => unionCauses m y.causes) x ↔ c ∈ x ∨ ∃ y ∈ l, c ∈ y.causes := by
  induction l generalizing x with
  | nil => simp
  | cons y l ih => simp [ih, mem_unionCauses, or_assoc]

theorem mem_foldl_unionClaims (l : List Extent) (x : List Claim) (c : Claim) :
    c ∈ l.foldl (fun m y => unionClaims m y.claims) x ↔ c ∈ x ∨ ∃ y ∈ l, c ∈ y.claims := by
  induction l generalizing x with
  | nil => simp
  | cons y l ih => simp [ih, mem_unionClaims, or_assoc]

theorem foldl_min_start_le (l : List Extent) (x : Pos) :
    l.foldl (fun m y => min m y.start) x ≤ x ∧ ∀ y ∈ l, l.foldl (fun m y => min m y.start) x ≤ y.start := by
  induction l generalizing x with
  | nil => simp
  | cons y l ih =>
    have h := ih (min x y.start)
    refine ⟨le_trans h.1 (min_le_left _ _), fun z m => ?_⟩
    rcases List.mem_cons.mp m with rfl | m
    · exact le_trans h.1 (min_le_right _ _)
    · exact h.2 z m

theorem le_foldl_max_reach (l : List Extent) (x : Pos) :
    x ≤ l.foldl (fun m y => max m y.reach) x ∧ ∀ y ∈ l, y.reach ≤ l.foldl (fun m y => max m y.reach) x := by
  induction l generalizing x with
  | nil => simp
  | cons y l ih =>
    have h := ih (max x y.reach)
    refine ⟨le_trans (le_max_left _ _) h.1, fun z m => ?_⟩
    rcases List.mem_cons.mp m with rfl | m
    · exact le_trans (le_max_right _ _) h.1
    · exact h.2 z m

/-- A merge keeps all that is in the extents it replaces (R22). -/
theorem mergeExtents_grows (x : Extent) (others : List Extent) (y : Extent) (h : y ∈ x :: others) :
    y.GrowsTo (mergeExtents x others) where
  start := by
    rcases List.mem_cons.mp h with rfl | m
    · exact (foldl_min_start_le others _).1
    · exact (foldl_min_start_le others _).2 y m
  causes c m := by
    refine (mem_foldl_unionCauses others x.causes c).mpr ?_
    rcases List.mem_cons.mp h with rfl | k
    · exact .inl m
    · exact .inr ⟨y, k, m⟩
  claims o := by
    have isOpen : ((x :: others).any fun z => z.finish.isNone) = true := List.any_eq_true.mpr ⟨y, h, by rw [o]; rfl⟩
    refine ⟨by simp only [mergeExtents, isOpen, if_true], fun c m => ?_⟩
    simp only [mergeExtents, isOpen, if_true]
    refine (mem_foldl_unionClaims others x.claims c).mpr ?_
    rcases List.mem_cons.mp h with rfl | k
    · exact .inl m
    · exact .inr ⟨y, k, m⟩
  finish e f p q := by
    have reach : y.reach = e := by simp only [Extent.reach, p]
    simp only [mergeExtents] at q
    split at q
    · cases q
    · cases q
      rw [← reach]
      rcases List.mem_cons.mp h with rfl | k
      · exact (le_foldl_max_reach others _).1
      · exact (le_foldl_max_reach others _).2 y k

theorem foldl_min_start_mem (l : List Extent) (x : Pos) :
    l.foldl (fun m y => min m y.start) x = x ∨ ∃ y ∈ l, y.start = l.foldl (fun m y => min m y.start) x := by
  induction l generalizing x with
  | nil => simp
  | cons y l ih =>
    rcases ih (min x y.start) with h | ⟨z, m, h⟩
    · rcases min_choice x y.start with k | k
      · exact .inl (by rw [List.foldl_cons, h, k])
      · exact .inr ⟨y, List.mem_cons_self, by rw [List.foldl_cons, h, k]⟩
    · exact .inr ⟨z, List.mem_cons_of_mem _ m, h⟩

theorem foldl_max_reach_mem (l : List Extent) (x : Pos) :
    l.foldl (fun m y => max m y.reach) x = x ∨ ∃ y ∈ l, y.reach = l.foldl (fun m y => max m y.reach) x := by
  induction l generalizing x with
  | nil => simp
  | cons y l ih =>
    rcases ih (max x y.reach) with h | ⟨z, m, h⟩
    · rcases max_choice x y.reach with k | k
      · exact .inl (by rw [List.foldl_cons, h, k])
      · exact .inr ⟨y, List.mem_cons_self, by rw [List.foldl_cons, h, k]⟩
    · exact .inr ⟨z, List.mem_cons_of_mem _ m, h⟩

/-- The extent that replaces others is what R22 makes of them. -/
theorem mergeExtents_isMergeOf (x : Extent) (others : List Extent) : (mergeExtents x others).IsMergeOf (x :: others) := by
  have low := foldl_min_start_le others x.start
  have most := le_foldl_max_reach others x.reach
  have anyOpen : ((x :: others).any fun y => y.finish.isNone) = true ↔ ∃ y ∈ x :: others, y.finish = none := by
    simp only [List.any_eq_true, Option.isNone_iff_eq_none]
  have onReach : ∃ y ∈ x :: others, y.reach = others.foldl (fun m y => max m y.reach) x.reach := by
    rcases foldl_max_reach_mem others x.reach with h | ⟨y, m, h⟩
    · exact ⟨x, List.mem_cons_self, h.symm⟩
    · exact ⟨y, List.mem_cons_of_mem _ m, h⟩
  have topReach : ∀ y ∈ x :: others, y.reach ≤ others.foldl (fun m y => max m y.reach) x.reach := by
    intro y m
    rcases List.mem_cons.mp m with rfl | m
    · exact most.1
    · exact most.2 y m
  have start : (∀ y ∈ x :: others, (mergeExtents x others).start ≤ y.start) ∧
      ∃ y ∈ x :: others, y.start = (mergeExtents x others).start := by
    refine ⟨fun y m => ?_, ?_⟩
    · rcases List.mem_cons.mp m with rfl | m
      · exact low.1
      · exact low.2 y m
    · rcases foldl_min_start_mem others x.start with h | ⟨y, m, h⟩
      · exact ⟨x, List.mem_cons_self, h.symm⟩
      · exact ⟨y, List.mem_cons_of_mem _ m, h⟩
  have causes : ∀ c, c ∈ (mergeExtents x others).causes ↔ ∃ y ∈ x :: others, c ∈ y.causes := fun c => by
    simp only [mergeExtents, mem_foldl_unionCauses, List.mem_cons, exists_eq_or_imp]
  have seam : ∀ u, ((x :: others).filter fun y => y.causes.contains .seam) = [u] → (mergeExtents x others).seam = u.seam :=
    fun u h => by simp only [mergeExtents, mergedSeam, h]
  have noSeam : ((x :: others).filter fun y => y.causes.contains .seam).length ≠ 1 → (mergeExtents x others).seam = none := by
    intro h
    simp only [mergeExtents, mergedSeam]
    split
    · next y e => rw [e] at h; exact absurd rfl h
    · rfl
  by_cases h : ((x :: others).any fun y => y.finish.isNone) = true
  · have f : (mergeExtents x others).finish = none := by simp only [mergeExtents, h, if_true]
    exact {
      start, causes, seam, noSeam
      isOpen := ⟨fun _ => anyOpen.mp h, fun _ => f⟩
      finish := fun e k => by rw [f] at k; cases k
      held := fun _ => ⟨_, by simp only [mergeExtents, h, if_true], topReach, onReach⟩
      closed := fun k => absurd f k
      claims := fun _ c => by
        simp only [mergeExtents, h, if_true, mem_foldl_unionClaims, List.mem_cons, exists_eq_or_imp] }
  · have f : (mergeExtents x others).finish = some (others.foldl (fun m y => max m y.reach) x.reach) := by
      simp only [mergeExtents, h, if_false, Bool.false_eq_true]
    have shut : ∀ y ∈ x :: others, y.finish = some y.reach := by
      intro y m
      cases k : y.finish with
      | none => exact absurd (anyOpen.mpr ⟨y, m, k⟩) h
      | some e => simp only [Extent.reach, k]
    exact {
      start, causes, seam, noSeam
      isOpen := ⟨fun k => (by rw [f] at k; cases k), fun k => absurd (anyOpen.mpr k) h⟩
      finish := fun e k => by
        rw [f] at k
        cases k
        refine ⟨fun y m g p => ?_, ?_⟩
        · rw [shut y m] at p
          cases p
          exact topReach y m
        · obtain ⟨y, m, p⟩ := onReach
          exact ⟨y, m, by rw [shut y m, p]⟩
      held := fun k => by rw [f] at k; cases k
      closed := fun _ => by simp only [mergeExtents, h, if_false, Bool.false_eq_true, and_self]
      claims := fun k => by rw [f] at k; cases k }

theorem mem_placeExtent (x y : Extent) (l : List Extent) : y ∈ placeExtent x l ↔ y = x ∨ y ∈ l := by
  induction l with
  | nil => simp [placeExtent]
  | cons z l ih =>
    simp only [placeExtent]
    split
    · simp
    · simp only [List.mem_cons, ih]
      tauto

/-- After an insertion the inserted extent and every one that stood live on (R22). -/
theorem mergeInto_grows (track : List Extent) (x y : Extent) (h : y = x ∨ y ∈ track) :
    ∃ z ∈ mergeInto track x, y.GrowsTo z := by
  by_cases m : y = x ∨ x.meets y = true
  · refine ⟨_, (mem_placeExtent _ _ _).mpr (.inl rfl), mergeExtents_grows x _ y ?_⟩
    rcases m with rfl | m
    · exact List.mem_cons_self
    · rcases h with rfl | h
      · exact List.mem_cons_self
      · exact List.mem_cons_of_mem _ (List.mem_filter.mpr ⟨h, m⟩)
  · rw [not_or] at m
    have k : y ∈ track := h.resolve_left m.1
    exact ⟨y, (mem_placeExtent _ _ _).mpr (.inr (List.mem_filter.mpr ⟨k, by simp [m.2]⟩)), Extent.GrowsTo.refl y⟩

theorem mergeGap_grows (g : Pos) (track : List Extent) (y : Extent) (h : y ∈ track) : ∃ z ∈ mergeGap g track, y.GrowsTo z := by
  induction track with
  | nil => cases h
  | cons a l ih =>
    cases l with
    | nil => exact ⟨y, h, Extent.GrowsTo.refl y⟩
    | cons b l =>
      simp only [mergeGap]
      split
      · rcases List.mem_cons.mp h with rfl | h
        · exact ⟨_, List.mem_cons_self, mergeExtents_grows _ _ _ List.mem_cons_self⟩
        · rcases List.mem_cons.mp h with rfl | h
          · exact ⟨_, List.mem_cons_self, mergeExtents_grows _ _ _ (List.mem_cons_of_mem _ List.mem_cons_self)⟩
          · exact ⟨y, List.mem_cons_of_mem _ h, Extent.GrowsTo.refl y⟩
      · rcases List.mem_cons.mp h with rfl | h
        · exact ⟨y, List.mem_cons_self, Extent.GrowsTo.refl y⟩
        · obtain ⟨z, m, k⟩ := ih h
          exact ⟨z, List.mem_cons_of_mem _ m, k⟩

/-- The merge of a full track keeps all that stands in it (R23). -/
theorem mergeSmallest_grows (track : List Extent) (y : Extent) (h : y ∈ track) : ∃ z ∈ mergeSmallest track, y.GrowsTo z := by
  unfold mergeSmallest
  split
  · exact mergeGap_grows _ _ y h
  · exact ⟨y, h, Extent.GrowsTo.refl y⟩

/-! ### Insertion -/

/-- An insertion of web: the inserted extent, and every one that stood, lives on in the new track (R22, R23). -/
theorem insertExtent_grows (s : State) (x y : Extent) (h : y ∈ s.map.track ∨ (y = x ∧ x.covers = true)) :
    ∃ z ∈ (s.insertExtent x).map.track, y.GrowsTo z := by
  unfold State.insertExtent
  split
  · obtain ⟨z, m, k⟩ := mergeInto_grows s.map.track x y (h.elim .inr fun e => .inl e.1)
    dsimp only
    split
    · obtain ⟨w, n, j⟩ := mergeSmallest_grows _ z m
      refine ⟨w, ?_, k.trans j⟩
      unfold State.replan
      split <;> exact n
    · refine ⟨z, ?_, k⟩
      unfold State.replan
      split <;> exact m
  · next c => exact ⟨y, h.resolve_right fun e => c e.2, Extent.GrowsTo.refl y⟩

theorem insertExtent_covers (s : State) (x : Extent) (c : Cause) (first last : Pos) (h : s.covers c first last) :
    (s.insertExtent x).covers c first last := by
  intro q p r
  obtain ⟨y, m, e, k⟩ := h q p r
  obtain ⟨z, n, g⟩ := insertExtent_grows s x y (.inl m)
  exact ⟨z, n, g.causes c e, g.holds k⟩

/-- A closed extent inserted covers its stretch with its cause. -/
theorem insertExtent_closed_covers (s : State) (c : Cause) (first last : Pos) (seam : Option SeamPart) :
    (s.insertExtent (.closed first last c seam)).covers c first last := by
  intro q p r
  obtain ⟨z, n, g⟩ := insertExtent_grows s (.closed first last c seam) _ (.inr ⟨rfl, by
    simp only [Extent.covers, Extent.closed, beforeEnd]
    exact decide_eq_true (lt_of_lt_of_le p r)⟩)
  exact ⟨z, n, g.causes c (List.mem_singleton.mpr rfl), g.holds ⟨p, fun e h => by cases h; exact r⟩⟩

theorem insertExtent_opensClaim (s : State) (x : Extent) (c : Cause) (claim : Claim) (first : Pos)
    (h : s.opensClaim c claim first) : (s.insertExtent x).opensClaim c claim first := by
  obtain ⟨y, m, o, e, d, k⟩ := h
  obtain ⟨z, n, g⟩ := insertExtent_grows s x y (.inl m)
  exact ⟨z, n, (g.claims o).1, g.causes c e, (g.claims o).2 claim d, le_trans g.start k⟩

/-- An extent opened by a claim stands OPEN with its cause and claim from its start. -/
theorem insertExtent_opened (s : State) (c : Cause) (claim : Claim) (first : Pos) :
    (s.insertExtent (.opened first c claim)).opensClaim c claim first := by
  obtain ⟨z, n, g⟩ := insertExtent_grows s (.opened first c claim) _ (.inr ⟨rfl, rfl⟩)
  exact ⟨z, n, (g.claims rfl).1, g.causes c (List.mem_singleton.mpr rfl), (g.claims rfl).2 claim (List.mem_singleton.mpr rfl), g.start⟩

/-- An insertion changes the main track, the planning port's MAP_MERGED and the acts due, and nothing else. -/
theorem insertExtent_frame (s : State) (x : Extent) :
    { s.insertExtent x with map := s.map, ports := s.ports, work := s.work } = s ∧
    { (s.insertExtent x).map with track := s.map.track } = s.map := by
  unfold State.insertExtent
  split
  · dsimp only
    split <;> (unfold State.replan; split <;> exact ⟨rfl, rfl⟩)
  · exact ⟨rfl, rfl⟩

/-! ### Closure -/

theorem expireExtents_mem (s : State) (y : Extent) : y ∈ s.expireExtents.map.track ↔ y ∈ s.map.track ∧ s.expires y = false := by
  unfold State.expireExtents
  split
  · have : (State.replan { s with map := { s.map with track := s.map.track.filter fun x => !s.expires x } }).map.track =
        s.map.track.filter fun x => !s.expires x := by unfold State.replan; split <;> rfl
    rw [this, List.mem_filter]
    simp
  · next h =>
    refine ⟨fun m => ⟨m, ?_⟩, fun m => m.1⟩
    by_contra c
    exact h (List.any_eq_true.mpr ⟨y, m, by simpa using c⟩)

/-- The track after a closure: every holder of the claim without it, but for what is then without web or has expired. -/
theorem closeClaim_mem (s : State) (c : Claim) (e : Pos) (y : Extent) :
    y ∈ (s.closeClaim c e).map.track ↔
      if s.map.track.any fun x => x.claims.contains c then
        (∃ x ∈ s.map.track, y = if x.claims.contains c then x.closeClaim c e else x) ∧ y.covers = true ∧ s.expires y = false
      else y ∈ s.map.track := by
  unfold State.closeClaim
  split
  · next h =>
    rw [expireExtents_mem]
    dsimp only
    unfold State.replan
    split <;>
      · simp only [State.push, List.mem_filter, List.mem_map, State.expires, State.knife, State.mainCount]
        constructor
        · rintro ⟨⟨⟨x, m, rfl⟩, v⟩, n⟩
          exact ⟨⟨x, m, rfl⟩, v, n⟩
        · rintro ⟨⟨x, m, rfl⟩, v, n⟩
          exact ⟨⟨⟨x, m, rfl⟩, v⟩, n⟩
  · rfl

/-- After a closure no extent holds the claim (R24). -/
theorem closeClaim_absent (s : State) (c : Claim) (e : Pos) (y : Extent) (h : y ∈ (s.closeClaim c e).map.track) : c ∉ y.claims := by
  intro m
  rw [closeClaim_mem] at h
  split at h
  · obtain ⟨⟨x, -, rfl⟩, -⟩ := h
    split at m
    · unfold Extent.closeClaim at m
      dsimp only at m
      split at m
      · cases m
      · simp at m
    · next k => exact k (by simpa using m)
  · next k => exact k (List.any_eq_true.mpr ⟨y, h, by simpa using m⟩)

/-- A closure ends the extents whose one claim it closes at the greater of their held end and the position (R24). -/
theorem closeClaim_closedAt (s : State) (c : Claim) (e : Pos) : s.closedAt (s.closeClaim c e) c e := by
  refine ⟨closeClaim_absent s c e, fun y m h p q web far => ?_⟩
  have held : y.claims.contains c = true := by rw [p]; simp
  rw [closeClaim_mem, if_pos (List.any_eq_true.mpr ⟨y, m, held⟩)]
  refine ⟨⟨y, m, ?_⟩, decide_eq_true web, ?_⟩
  · rw [if_pos held]
    simp [Extent.closeClaim, p, q]
  · simp only [State.expires, Bool.and_eq_false_iff, decide_eq_false_iff_not]
    exact .inl (not_le.mpr far)

end Sys2Proof.Machine
end

