-- ==== Sys2Proof/Tests/Slice0.lean ====
section
/-! SUPPORT. Tests: what WellFormed refuses, the manual's worked examples one step at a time, and, for every statement with
hypotheses, a state that meets them (`witness_<statement>`). -/

namespace Sys2Proof.Machine

/-! ### Helpers -/

/-- The main and lane-1 counters at given values. -/
def State.webAt (s : State) (l l1 : Nat) : State :=
  (s.setChannel .main { s.channel .main with counter := l }).setChannel .lane1 { s.channel .lane1 with counter := l1 }

def State.withSlot (s : State) (x : Stream) (v : Slot) : State := s.setStream x { s.stream x with slot := some v }

def State.withLine (s : State) (f : LineProfile) : State := { s with profile := { s.profile with line := f } }

def State.withStream (s : State) (x : Stream) (f : StreamProfile) : State :=
  { s with profile := { s.profile with streams := s.profile.streams.set x f } }

def State.withBusy (s : State) (x : Stream) (write : Bool) (failed : Nat) : State :=
  s.setLink { s.splice.link with busy := some ⟨x, write, failed, {}⟩ }

def State.queueOf (s : State) (p : Port) (q : List Frame) : State := s.setPort p { s.port p with queue := q }

def State.withRecord (s : State) (r : OrderRec) : State := { s with book := s.book ++ [r] }

end Sys2Proof.Machine

namespace Sys2Proof.Tests

open Sys2Proof.Machine

set_option Elab.async false

/-- The state a command leaves. -/
def after (i : Instr) (s : State) : State :=
  match exec i s with
  | .next t => t
  | .fault _ => s
  | .refused _ => s

def fresh : State := State.reset

/-- TRACKING, with an empty window. -/
def live : State := { fresh with part := .tracking }

/-- The reset input asserted. -/
def inReset : State := { fresh with resetAsserted := true }

/-- Whether a request of a kind will be judged by its own rule. -/
def heardAt (s : State) (p : Port) (kind : Nat) : Bool :=
  !s.resetAsserted && (s.port p).queue.length < 16 && accepted p kind

theorem heard_of {s : State} {p : Port} {kind : Nat} (h : heardAt s p kind = true) : Heard s p kind := by
  simp only [heardAt, Bool.and_eq_true, Bool.not_eq_true', decide_eq_true_eq] at h
  exact ⟨h.1.1, h.1.2, h.2⟩

def layout3 : RawLayout := ⟨3, 2, [150, 10150, 20150, 0, 0, 0, 0, 0], [3150, 6150, 0, 0, 0, 0, 0, 0, 0, 0]⟩

/-- SETUP, with S1, S2 and S5 active. -/
def lineUp : State :=
  { fresh with profile := { fresh.profile with streams := { fresh.profile.streams with s1 := { active := true }, s2 := { active := true }, s5 := { active := true } } } }

/-- The order of the manual's examples (04 section 4.2), with the layout of 06 section 6.3. -/
def order7001 : RawOrder :=
  { id := 7001, grade1 := 12, grade2 := 12, grade3 := 0, grade4 := 0, grade5 := 12, sf := 197530, t := 40, a := 3, m := 1
    q := 10, layout := layout3 }

/-- Its record, in the window at P = 1,000,000. -/
def record7001 : OrderRec :=
  { fig := figuresOf order7001, phase := .cutting, station := some .a, p := some 1000000, e := some 1493825, n := some 40
    gap := some 0 }

def cut7001 (sequence sheet : Nat) (position start : Pos) : ActionRec :=
  { kind := .cut, sequence := sequence, position := position, deadline := position + 50000, order := 7001
    sheet := some sheet, sheetStart := some start, disposition := some .good, stackNumber := some 1
    sheetInStack := some sheet }

/-- Order 7,001 alone in the window, its cut 1 released as sequence 1. -/
def cutting7001 : State :=
  { live.webAt 1000000 1900000 with
    book := [record7001], plan := { live.plan with window := [{ id := 7001, cuts := 1 }], w0 := 1493825 }
    dry := { live.dry with released := [cut7001 1 1 1012346 1000000], sequence := 2 } }

/-! ### WellFormed refuses what no frame can spell -/

theorem test_wellFormed_entry_number : (Instr.takeStopZone 13).wellFormed = false := by decide
theorem test_wellFormed_order_id : (Instr.cancelOrder .planning 0 4294967296).wellFormed = false := by decide
theorem test_wellFormed_byte_field : (Instr.readBook .planning 0 256).wellFormed = false := by decide
theorem test_wellFormed_order_figures : (Instr.addOrder .planning 0 { order7001 with a := 65536 }).wellFormed = false := by decide
theorem test_wellFormed_layout_places :
    (Instr.addOrder .planning 0 { order7001 with layout := { layout3 with slits := [150] } }).wellFormed = false := by decide
theorem test_wellFormed_amend_figures :
    (Instr.amendOrder .planning 0 ⟨1, true, false, false, false, false, 0, 0, 256, 0, layout3⟩).wellFormed = false := by decide
theorem test_wellFormed_stream_section :
    (Instr.loadProfileSection .planning 0 (.stream 6 (StreamProfile.raw {}))).wellFormed = false := by decide
theorem test_wellFormed_lane_offset :
    (Instr.loadProfileSection .planning 0 (.lane 1 (LaneProfile.raw { kBase := 2 ^ 47 }))).wellFormed = false := by decide
theorem test_wellFormed_line_section :
    (Instr.loadProfileSection .planning 0 (.line (LineProfile.raw { stopTime := 65536 }))).wellFormed = false := by decide
theorem test_wellFormed_slitter_section :
    (Instr.loadProfileSection .planning 0 (.slitter (SlitterProfile.raw { placeAttempts := 256 }))).wellFormed = false := by decide
theorem test_wellFormed_entry_section :
    (Instr.loadProfileSection .planning 0 (.entry 13 (EntryProfile.raw {}))).wellFormed = false := by decide
theorem test_wellFormed_known_code : (Instr.loadProfileSection .planning 0 (.unknown 21)).wellFormed = false := by decide
theorem test_wellFormed_reel_length : (Instr.declareReel .wet 0 1 1 1 4294967296).wellFormed = false := by decide
theorem test_wellFormed_arm_code : (Instr.withdrawReel .wet 0 1 256).wellFormed = false := by decide
theorem test_wellFormed_sync_offset : (Instr.laneSync .wet 0 1 (-(2 ^ 47) - 1)).wellFormed = false := by decide
theorem test_wellFormed_measured : (Instr.actionDone .dry 0 1 (2 ^ 48)).wellFormed = false := by decide
theorem test_wellFormed_stretch : (Instr.qualityReject .dry 0 1 (2 ^ 48)).wellFormed = false := by decide
theorem test_wellFormed_tool_position : (Instr.toolPlaced .dry 0 1 1 1 65536).wellFormed = false := by decide
theorem test_wellFormed_map_section : (Instr.readMap .dry 0 256 0).wellFormed = false := by decide

/-! ### Length measurement -/

/-- The channel of 01 section 1.4: weight 1,317. -/
def ratchet (fraction back l : Nat) : State :=
  (fresh.withLine { pulseWeight := ⟨1317, 1024, 1024⟩ }).setChannel .main
    { counter := l, fraction := fraction, backTravel := back }

/-- 01, fraction accumulation, pulse 4. -/
theorem test_forwardPulse_fraction :
    (((after (.forwardPulse .main) (ratchet 879 0 500003)).channel .main).counter,
      ((after (.forwardPulse .main) (ratchet 879 0 500003)).channel .main).fraction) = (500005, 148) := by decide +kernel
/-- 01, the middle case of R5: back-travel 500 at weight 1,024. -/
theorem test_forwardPulse_excess :
    let r := (after (.forwardPulse .lane1) (fresh.setChannel .lane1 { backTravel := 500 })).channel .lane1
    (r.backTravel, r.fraction, r.counter) = (0, 524, 0) := by decide +kernel
/-- 01, the ratchet, third reverse pulse. -/
theorem test_reversePulse_ratchet :
    let r := (after (.reversePulse .main) (ratchet 148 2634 500005)).channel .main
    (r.backTravel, r.fraction, r.counter) = (3951, 148, 500005) := by decide +kernel
/-- R4: both levels change at once. -/
theorem test_bothLevelsChange :
    let r := (after (.bothLevelsChange .lane2) fresh).channel .lane2
    (r.levelA, r.levelB, r.counter, r.backTravel) = (true, true, 0, 0) := by decide +kernel
/-- 01 section 1.6: ten buckets of 200, then a bucket of 0, read 18,000. -/
theorem test_tenMsUpdate_speed :
    ((after .tenMsUpdate (fresh.setChannel .main { buckets := List.replicate 10 200, speed := 20000 })).channel .main).speed
      = 18000 := by decide +kernel
/-- R15. -/
theorem test_entryIntoAStop : (after .entryIntoAStop fresh).lmu.stopped = true := by decide +kernel

/-- 02 section 2.6: a stop at L = 2,000,000, a preheater entry and a hot-plate entry. -/
def stopped2000000 : State :=
  { fresh.webAt 2000000 0 with
    lmu := { (fresh.webAt 2000000 0).lmu with stopped := true, stopDuration := 300 }
    profile := { fresh.profile with
      entries := [⟨true, .preheater, 150000, 180000, 0, 300⟩, ⟨true, .hotPlate, 10, 20, 0, 700⟩] ++ List.replicate 10 {} } }

theorem test_takeStopZone_extent :
    (after (.takeStopZone 1) stopped2000000).map.track = [.closed 2150000 2180000 .stop] := by decide +kernel
theorem test_tick_counts : (after .standPoll fresh).lmu.ticks = 0 ∧ fresh.tick.lmu.ticks = 1 := by decide +kernel

/-! ### Reset -/

theorem test_resetAssert : (after .resetAssert cutting7001).mainCount = 0 := by decide +kernel
theorem test_resetRelease_levels :
    let t := after (.resetRelease ⟨true, false, false, false, false, true, false, true, false, true, false⟩) inReset
    ((t.channel .main).levels, (t.channel .lane2).levels, (t.lane .two).recogniser.i0, t.resetAsserted)
      = ((true, false), (false, true), none, false) := by decide +kernel

/-! ### The web map -/

/-- Lane 1 of 02 section 2.5, with marks M1 and M2 and its recogniser one counter update before it recognises. -/
def lane1Example : State :=
  let s := ({ fresh.webAt 1044599 2480000 with
    profile := { fresh.profile with
      streams := { fresh.profile.streams with
        s1 := { active := true, splicerDistance := 35000, seamLead := 3000, seamTrail := 5000 }
        s2 := { active := true, splicerDistance := 42000 } }
      lanes := { fresh.profile.lanes with
        one := { kBase := -855000, dDet := 600000, wConfirm := 2000, maxCorrection := 500, preQuiet := 1500, minActive := 40, maxGap := 10, postQuiet := 300 } } } } : State)
  s.setLane .one
    { offset := -855000, unsynced := false, nextAge := 2
      marks := [⟨.s1, .a, 2463516, false, false, 0⟩, ⟨.s2, .b, 2470000, false, false, 1⟩]
      recogniser := { state := .trailing, level := false, p0 := some 1043816, i0 := some 1044300 } }

/-- 02, confirming a seam on lane 1: the extent, the offset and the mark left. -/
theorem test_seam_confirmed :
    let t := after (.forwardPulse .main) lane1Example
    (t.map.track.map fun x => (x.start, x.finish, x.seam.map SeamPart.confirmation))
        = [(1640816, some 1648816, some .confirmed)] ∧
    (t.lane .one).offset = -854700 ∧ (t.lane .one).marks.map t.predicted = [1657300] ∧
    (t.lane .one).recogniser.state = .guard := by decide +kernel

/-- 02, the same example's first event. -/
theorem test_seamInputChange_active :
    let s := (fresh.webAt 1043816 0).setLane .one { fresh.lane .one with recogniser := { state := .armed } }
    let s := { s with profile := { s.profile with lanes := { s.profile.lanes with one := { minActive := 40 } } } }
    ((after (.seamInputChange .one true) s).lane .one).recogniser
      = { state := .active, level := true, p0 := some 1043816, i0 := none } := by decide +kernel

/-- The main track of 02 section 2.2's example. -/
def trackExample : State :=
  { fresh.webAt 1100000 0 with
    map := { fresh.map with
      track := [⟨1127000, some 1135000, none, [.seam], [], some ⟨.s1, .a, .confirmed, false, false⟩⟩,
        .closed 1200000 1204000 .quality, .closed 1250000 1260000 .stop] } }

/-- 02, merging: a Quality Reject from 1,135,000 to 1,140,000. -/
theorem test_qualityReject_merges :
    (after (.qualityReject .dry 0 1135000 1140000) trackExample).map.track.head?
      = some ⟨1127000, some 1140000, none, [.seam, .quality], [], some ⟨.s1, .a, .confirmed, false, false⟩⟩ := by decide +kernel
/-- 02, merging: a break on S3 at 1,255,000 (its lane counter there, K_3 being 0). -/
theorem test_webBreak_opens :
    let s := trackExample.setChannel .lane2 { counter := 1255000 }
    (after (.webBreak .wet 0 3) s).map.track.getLast?
      = some ⟨1250000, none, some 1260000, [.stop, .webBreak], [.webBreak .s3], none⟩ := by decide +kernel
/-- 01 section 1.5: a correction of +400 moves the lane's predictions. -/
theorem test_laneSync :
    let t := after (.laneSync .wet 0 1 (-854600)) lane1Example
    t.seamOffset .s1 = -819600 ∧ (t.lane .one).unsynced = false := by decide +kernel

/-! ### The order book and the planner -/

/-- 04 section 4.2: the table of cuts. -/
theorem test_cut_positions :
    [1, 2, 3, 10, 11, 40].map (cutPosition 1000000 197530) = [1012346, 1024691, 1037037, 1123456, 1135802, 1493825] := by decide
theorem test_addOrder :
    let t := after (.addOrder .planning 9 order7001) lineUp
    t.book = [{ fig := figuresOf order7001 }] ∧ (t.port .planning).queue = [.reply 0x81 9 [0]] := by decide +kernel
theorem test_addOrder_range :
    ((after (.addOrder .planning 9 { order7001 with sf := 47999 }) fresh).port .planning).queue = [.reply 0xFE 9 [1, 7, 0]] := by decide +kernel

/-- 04, one seam, one extension: R = 1, N = 41, E = 1,506,171. -/
theorem test_extension :
    let s := { cutting7001 with map := { fresh.map with track := [.closed 1127000 1135000 .seam] } }
    let l := s.countLine none [] ⟨{ id := 7001 }, record7001⟩
    (l.r.rejects, l.r.n, l.r.e) = (some 1, some 41, some 1506171) := by decide +kernel
/-- 04, extension crossing a second seam: N = 43, E = 1,530,862. -/
theorem test_extension_second :
    let s := { cutting7001 with map := { fresh.map with
      track := [.closed 1127000 1135000 .seam, .closed 1500000 1505000 .seam, .closed 1510000 1512000 .quality] } }
    let l := s.countLine none [] ⟨{ id := 7001 }, record7001⟩
    (l.r.rejects, l.r.n, l.r.e) = (some 3, some 43, some 1530862) := by decide +kernel
/-- 04, pinning the example order: N = 42, E = 1,518,516. -/
theorem test_pin :
    let s := { cutting7001 with map := { fresh.map with track := [.closed 1127000 1135000 .seam] } }
    let t := (s.recompute).pinEnd 7001
    (t.book.map fun r => (r.n, r.e, r.pinned)) = [(some 42, some 1518516, true)] := by decide +kernel

theorem test_amendOrder :
    let s := after (.addOrder .planning 0 order7001) lineUp
    let t := after (.amendOrder .planning 0 ⟨7001, true, false, false, false, false, 41, 0, 0, 0, layout3⟩) s
    t.book.map (fun r => (r.fig.t, r.fig.a)) = [(41, 3)] := by decide +kernel
/-- R57: an order CUTTING is cancelled after start, with 40 less its good count short. -/
theorem test_cancelOrder_cutting :
    (after (.cancelOrder .planning 0 7001) cutting7001).book.map (fun r => (r.phase, r.pinned, r.result))
      = [(.cancelled, true, some ⟨.cancelledAfterStart, 40, 0⟩)] := by decide +kernel
theorem test_discardOrder :
    (after (.discardOrder .planning 0 7001) { fresh with book := [{ record7001 with phase := .closed }] }).book = [] := by decide +kernel
theorem test_readBook :
    ((after (.readBook .planning 3 32) fresh).port .planning).queue = [.reply 0xFE 3 [5, 7, 0]] := by decide +kernel
theorem test_readPlan :
    (((after (.readPlan .planning 3) fresh).port .planning).queue.map fun f =>
      match f with
      | .reply kind tag payload => (kind, tag, payload.take 6)
      | .notice n => (n, 0, [])) = [(0x86, 3, [0, 0, 0, 0, 0, 0])] := by decide +kernel
theorem test_loadProfileSection :
    (after (.loadProfileSection .planning 0 (.lane 2 (LaneProfile.raw { kBase := -855000 }))) fresh).seamOffset .s3 = -855000 := by decide +kernel

/-- The smallest profile that Release Line passes: S5 active, D_A above D_B. -/
def releasable : State :=
  { (fresh.webAt 500 0).withStream .s5 { active := true } with
    profile := { ((fresh.webAt 500 0).withStream .s5 { active := true }).profile with slitter := { dA := 1 } } }

/-- R199, R200, and the first waste cut of R80, Wg = 20,000 beyond W0 and within H = 20,000. -/
theorem test_releaseLine :
    let t := after (.releaseLine .planning 0) releasable
    (t.part, t.plan.w0) = (.tracking, 500) ∧ t.dry.released.map ActionRec.position = [20500] := by decide +kernel
/-- R199: the second check names the section of S1. -/
theorem test_releaseLine_refused :
    ((after (.releaseLine .planning 7) fresh).port .planning).queue = [.reply 0xFE 7 [8, 7, 1]] := by decide +kernel
theorem test_clearLine :
    let t := after (.clearLine .planning 0) cutting7001
    (t.part, t.dry.released, t.book.map OrderRec.result)
      = (.setup, [], [some ⟨.lineCleared, 40, 0⟩]) := by decide +kernel

/-! ### Reel stands and splicing -/

/-- S5 of 05 section 5.7: arm A RUNNING with grade 12, arm B READY with grade 44. -/
def s5Example : State :=
  let p : StreamProfile := { active := true, splicerDistance := 40000, commitLead := 30000, seamLead := 3000, seamTrail := 5000, runoutReserve := 300000, butt := 20000, driveMode := .delay400 }
  ((((live.withStream .s5 p).withLine { g := 15000 }).webAt 15700000 0).setStream .s5
    { (fresh.stream .s5) with
      running := some .a, runningGrade := 12
      arms := ⟨{ state := .running, declaration := some ⟨12, 6000000⟩, startCount := some 10000000, driveEnable := true },
        { state := .ready, declaration := some ⟨44, 5000000⟩ }⟩ })

/-- 05 section 5.7: the GRADE splice for grade 44, advanced at the run-out test; its points. -/
theorem test_runout_advances :
    let v : Slot := { state := .planned, kind := .grade, boundaryPos := 16155000, grade := 44, commitPoint := 16070000, firePoint := 16100000 }
    let t := (s5Example.withSlot .s5 v).runoutTest .s5
    ((t.stream .s5).slot.map fun v => (v.advanced, v.firePoint, v.commitPoint)) = some (true, 15980000, 15950000) ∧
    (t.port .wet).rawOf 3 = true := by decide +kernel

def fired (count : Nat) : Slot :=
  { state := .fired, kind := .runout, grade := 44, commitPoint := 0, firePoint := count, chosen := some .b, fireCount := count }

/-- 05 section 5.7: the done at 15,981,200 puts the seam at 16,017,000 to 16,025,000 and runs arm B. -/
theorem test_donePulse :
    let t := after (.donePulse .s5) ((s5Example.webAt 15981200 0).withSlot .s5 (fired 15980000))
    (t.map.track.map fun x => (x.start, x.finish)) = [(16017000, some 16025000)] ∧
    (t.stream .s5).running = some .b ∧ (t.arm .s5 .a).state = .stopping ∧ (t.arm .s5 .b).startCount = some 15980000 := by decide +kernel
theorem test_donePulse_stray : ((after (.donePulse .s2) live).port .wet).rawOf 2 = true := by decide +kernel
theorem test_standPoll : (after .standPoll s5Example).stream .s5 = { s5Example.stream .s5 with readPending := true } := by decide +kernel
theorem test_standInterruptChange :
    (after (.standInterruptChange true) s5Example).splice.link.scan = some .s5 := by decide +kernel
theorem test_standTransactionStart :
    (after .standTransactionStart (after .standPoll s5Example)).splice.link.busy = some ⟨.s5, false, 0, {}⟩ := by decide +kernel
/-- R104: the latch of the RUNNING reel opens on the first read since reset: a web break. -/
theorem test_standRead_breaks :
    let s := (s5Example.withBusy .s5 false 0).setArm .s5 .a { s5Example.arm .s5 .a with present := { level := true }, latched := { level := true } }
    let t := after (.standRead ⟨⟨true, false, false, false⟩, ⟨true, true, false, false⟩, true⟩) s
    (t.stream .s5).broken = true ∧ (t.arm .s5 .a).state = .stopping := by decide +kernel
theorem test_standWrite : (after .standWrite (s5Example.withBusy .s5 true 2)).splice.link.busy = none := by decide +kernel
theorem test_standAttemptFailed_fourth :
    let t := after .standAttemptFailed (s5Example.withBusy .s5 true 3)
    (t.stream .s5).linkFault = true ∧ (t.stream .s5).writePending = true ∧ (t.port .wet).rawOf 5 = true := by decide +kernel
/-- 05 section 5.7, on a drive that is good 400 ticks after its enable: FIRE for 50 ticks. -/
theorem test_driveGoodDelay_fires :
    let v : Slot := { state := .committed, kind := .runout, grade := 44, commitPoint := 15950000, firePoint := 15980000, chosen := some .b }
    let s := ((s5Example.webAt 15980000 0).withSlot .s5 v).setArm .s5 .b { s5Example.arm .s5 .b with driveEnable := true }
    let t := after (.driveGoodDelay .s5 .b) s
    ((t.stream .s5).fire, (t.stream .s5).fireLeft, (t.stream .s5).slot.map fun v => (v.state, v.fireCount))
      = (true, 50, some (.fired, 15980000)) := by decide +kernel
theorem test_firePulseEnd :
    ((after (.firePulseEnd .s1) (fresh.setStream .s1 { fresh.stream .s1 with fire := true, fireLeft := 1 })).stream .s1).fire = false := by decide +kernel
theorem test_declareReel :
    (after (.declareReel .wet 0 5 2 12 100) s5Example).arm .s5 .b = { state := .loaded, declaration := some ⟨12, 100⟩ } := by decide +kernel
theorem test_withdrawReel : (after (.withdrawReel .wet 0 5 2) s5Example).arm .s5 .b = {} := by decide +kernel
theorem test_manualSplice_state :
    ((after (.manualSplice .wet 4 5) s5Example).port .wet).queue = [.reply 0xFE 4 [0x12, 3, 0]] := by decide +kernel
theorem test_manualSplice_commits :
    let s := s5Example.setArm .s5 .b { s5Example.arm .s5 .b with declaration := some ⟨12, 1⟩ }
    ((after (.manualSplice .wet 4 5) s).stream .s5).slot.map (fun v => (v.state, v.chosen, v.firePoint))
      = some (.committed, some .b, 15730000) := by decide +kernel
/-- 02, merging: Web Restored on S3 closes its claim. -/
def brokenS3 : State :=
  let s := { live with map := { live.map with track := [⟨1250000, none, some 1286000, [.stop, .webBreak, .seam], [.webBreak .s3], none⟩] } }
  (s.setChannel .lane2 { counter := 1300000 }).setStream .s3
    { fresh.stream .s3 with
      broken := true, arms := ⟨{ state := .loaded, declaration := some ⟨7, 5000⟩, present := { level := true }, latched := { level := true } }, {}⟩ }
theorem test_webRestored :
    let t := after (.webRestored .wet 0 3 1 900) brokenS3
    (t.map.track.map fun x => (x.start, x.finish, x.claims)) = [(1250000, some 1300000, [])] ∧
    (t.arm .s3 .a).declaration = some ⟨7, 900⟩ ∧ (t.stream .s3).runningGrade = 7 := by decide +kernel
theorem test_streamRecover :
    let t := after (.streamRecover .wet 0 5 2) s5Example
    (t.stream .s5).running = some .b ∧ (t.arm .s5 .a).state = .stopping ∧ (t.arm .s5 .b).startCount = some 15700000 := by decide +kernel
theorem test_readStationChanges :
    let s := { live with plan := { live.plan with pendingChange := some 7002 :: List.replicate 11 none } }
    (after (.readStationChanges .wet 0) s).plan.pendingChange = List.replicate 12 none := by decide +kernel

/-! ### Slitter-scorer stations -/

def toolAt (x : Nat) : Tool := { state := .placed, target := some x, measured := some x }

/-- 06 section 6.3's setup after the third report but one: slit 3 MOVING with one attempt failed, slit 4 PARKED. -/
def setupExample : State :=
  let s := (live.setStation .a
    { fresh.station .a with
      state := .setting, layout := some (layoutOf layout3), order := some 7003
      demand := some ⟨7003, layoutOf layout3⟩
      slits := [toolAt 150, toolAt 10150, { state := .moving, target := some 20150, attempts := 1 }] ++ List.replicate 5 { state := .parked }
      scores := [toolAt 3150, toolAt 6150] ++ List.replicate 8 { state := .parked } })
  { s with
    slitter := { s.slitter with moves := [⟨.a, .slit, 3, 20150, 2, true⟩] }
    profile := { s.profile with slitter := { placeTolerance := 5, placeAttempts := 2 } } }

/-- 06: the second failure of slit tool 3 takes it OUT and gives 20,150 to slit tool 4. -/
theorem test_toolPlaced_out :
    let t := setupExample.placeTool .a .slit 3 20171 { state := .moving, target := some 20150, attempts := 1 }
    (t.tool? .a .slit 3).map Tool.state = some .out ∧
    t.slitter.moves = [⟨.a, .slit, 4, 20150, 1, false⟩] ∧ (t.port .dry).rawOf 7 = true := by decide +kernel
/-- 06: the last report, within the tolerance: READY with PASS. -/
theorem test_toolPlaced_ready :
    let t := after (.toolPlaced .dry 0 1 1 3 20152) setupExample
    ((t.station .a).state, (t.station .a).current) = (.ready, .pass) ∧ (t.port .dry).rawOf 5 = true := by decide +kernel
theorem test_takeToolMoves :
    let s := { setupExample with slitter := { setupExample.slitter with moves := [⟨.a, .slit, 3, 20150, 2, false⟩] } }
    (after (.takeToolMoves .dry 0) s).slitter.moves = [⟨.a, .slit, 3, 20150, 2, true⟩] := by decide +kernel
theorem test_toolOut :
    let t := after (.toolOut .dry 0 1 2 10) live
    (t.tool? .a .score 10).map Tool.state = some .out := by decide +kernel
theorem test_toolIn :
    let s := live.modifyTool .a .slit 8 fun t => { t with state := .out, measured := some 5 }
    (after (.toolIn .dry 0 1 1 8) s).tool? .a .slit 8 = some {} := by decide +kernel

/-! ### The dry action list -/

theorem test_takeActions :
    (after (.takeActions .dry 0) cutting7001).dry.released.map ActionRec.taken = [true] := by decide +kernel
/-- R163: a cut reported within the tolerance adds to its order's good count. -/
theorem test_actionDone_cut :
    let t := after (.actionDone .dry 0 1 1012346) cutting7001
    t.book.map (fun r => r.counts.good) = [1] ∧ (t.port .dry).rawOf 3 = false := by decide +kernel
/-- 07 section 7.2: LATE and UNKNOWN. -/
theorem test_actionDone_unknown :
    ((after (.actionDone .dry 6 2 0) cutting7001).port .dry).queue = [.reply 0xFE 6 [0x21, 4, 0]] := by decide +kernel

/-- 07 section 7.4, a stalled dry end: the set full of cuts 34 to 49 of order 7,010 and L about to pass cut 50. -/
def stalled (l : Nat) (cuts sequence : Nat) (released : List ActionRec) (merge : Bool) : State :=
  let f : OrderFigures := { figuresOf order7001 with id := 7010, sf := 48000, t := 900, a := 100 }
  let s := (live.webAt l 0).withLine { h := 60000, execTolerance := 50000 }
  { s with
    book := [{ fig := f, phase := .cutting, pinned := true, station := some .a, p := some 3000000, e := some 5700000, n := some 900, gap := some 0 }]
    plan := { s.plan with window := [{ id := 7010, cuts := cuts }], w0 := 5700000 }
    dry := { s.dry with released := released, sequence := sequence, cursor := 3147000, merge := merge } }

def cut7010 (n : Nat) : ActionRec :=
  { kind := .cut, sequence := 500 + n, position := 3000000 + 3000 * n, deadline := 3050000 + 3000 * n, order := 7010
    sheet := some n, sheetStart := some (2997000 + 3000 * n), disposition := some .good, stackNumber := some 1, sheetInStack := some n }

theorem test_overrun_drops_cut :
    let t := after (.forwardPulse .main) (stalled 3150000 49 550 ((List.range 16).map fun k => cut7010 (34 + k)) false)
    t.book.map (fun r => (r.counts.dropped, r.rejects)) = [(1, some 1)] ∧ t.dry.merge = true ∧
      t.dry.released.length = 16 ∧ (t.port .dry).rawOf 1 = true := by decide +kernel
theorem test_declare_and_release :
    let t := after (.forwardPulse .main) (stalled 3152000 50 550 ((List.range 16).map fun k => cut7010 (34 + k)) true)
    (t.dry.released.getLast?.map fun r => (r.sheet, r.sequence, r.sheetStart, r.disposition)) =
        some (some 51, 550, some 3147000, some .reject) ∧
      (t.dry.released.getLast?.map fun r => (r.merged, r.deadline)) = some (true, 3203000) ∧
      t.dry.merge = false ∧ (t.port .dry).rawOf 2 = true := by decide +kernel

/-! ### Station ports -/

theorem test_selectStart_idle :
    ((after (.selectStart .wet) live).port .wet).select
      = some { chosen := none, bytes := [5, 0xFF, 0, 1, 0, 0], shifted := 0, received := [], ignored := false } := by decide +kernel
theorem test_byteClocked :
    ((after (.byteClocked .wet 7) (after (.selectStart .wet) live)).port .wet).dataOut = 5 := by decide +kernel
/-- R176: a period of two bytes leaves its frame in place. -/
theorem test_selectEnd_short :
    let s := (live.queueOf .wet [.notice 8])
    ((after (.selectEnd .wet) (after (.byteClocked .wet 0) (after (.byteClocked .wet 0) (after (.selectStart .wet) s)))).port .wet).queue
      = [.notice 8] := by decide +kernel
/-- R176, R181: the bytes of a Read Station Changes are taken. -/
theorem test_selectEnd_request :
    let s := [2, 0x17, 23].foldl (fun s (b : Byte) => after (.byteClocked .wet b) s) (after (.selectStart .wet) live)
    ((after (.selectEnd .wet) s).port .wet).queue = [.reply 0x97 23 [0]] := by decide +kernel
theorem test_readStatus : ((after (.readStatus .dry 1) fresh).port .dry).queue.length = 1 := by decide +kernel
theorem test_readMap :
    ((after (.readMap .dry 1 3 0) fresh).port .dry).queue = [.reply 0xFE 1 [0x31, 7, 0]] := by decide +kernel
theorem test_readOrder :
    ((after (.readOrder .dry 1 9) fresh).port .dry).queue = [.reply 0xFE 1 [0x32, 4, 0]] := by decide +kernel
theorem test_readStream :
    ((after (.readStream .dry 1 6) fresh).port .dry).queue = [.reply 0xFE 1 [0x33, 7, 0]] := by decide +kernel
theorem test_readStations : ((after (.readStations .wet 1) fresh).port .wet).queue.length = 1 := by decide +kernel
theorem test_setNoticeEnables_range :
    ((after (.setNoticeEnables .dry 1 0x0400) fresh).port .dry).queue = [.reply 0xFE 1 [0x35, 7, 0]] := by decide +kernel

/-- The wet port of 08 section 8.4, every class enabled. -/
def wetEnabled : State := live.setPort .wet { live.port .wet with classes := List.replicate 13 { enable := true } }

/-- 08 section 8.4, the Clear Notices of tag 22: N8's marker and frame go, N1 stays ahead of the reply. -/
theorem test_clearNotices :
    let s := ((wetEnabled.raise .stationChange).raise .spliceDone)
    let t := after (.clearNotices .wet 22 0x100) s
    (t.port .wet).queue = [.notice 1, .reply 0xB6 22 []] ∧ (t.port .wet).rawOf 8 = false := by decide +kernel
theorem test_pauseNotices :
    (((after (.pauseNotices .wet 1) wetEnabled).raise .spliceDone).port .wet).queue = [.reply 0xB7 1 []] := by decide +kernel
theorem test_resumeNotices :
    let s := (after (.pauseNotices .wet 1) wetEnabled).raise .spliceDone
    ((after (.resumeNotices .wet 2) s).port .wet).queue = [.reply 0xB7 1 [], .reply 0xB8 2 [], .notice 1] := by decide +kernel
theorem test_restartPort :
    let s := { cutting7001 with dry := { cutting7001.dry with released := [{ cut7001 1 1 1012346 1000000 with taken := true }] } }
    let t := after (.restartPort .dry 5) (s.queueOf .dry [.notice 3])
    (t.port .dry).queue = [.reply 0xB9 5 []] ∧ t.dry.released.map ActionRec.taken = [false] ∧ (t.port .dry).rawOf 0 = true := by decide +kernel
/-- 08 section 8.2: the 17th request is dropped. -/
theorem test_request_dropped :
    let t := after (.takeActions .dry 0) (live.queueOf .dry (List.replicate 16 (.reply 0xA0 0 [])))
    (t.port .dry).queue.length = 16 ∧ (t.port .dry).rawOf 9 = true := by decide +kernel

/-! ### A state that meets the hypotheses of each statement -/

theorem witness_StepRunsTheFrontCommand :
    ({ fresh with pending := [.standPoll, .tenMsUpdate] }).pending = Instr.standPoll :: [.tenMsUpdate] := by decide
theorem witness_EmptyQueueTakesOneTick :
    (fresh.pending = [] ∧ fresh.resetAsserted = false) ∧ inReset.pending = [] ∧ inReset.resetAsserted = true := by decide
theorem witness_ResetAssertClearsAndHolds :
    inReset.resetAsserted = true ∧ Instr.standPoll ≠ .resetAssert ∧ ∀ v, Instr.standPoll ≠ .resetRelease v :=
  ⟨by decide, by decide, fun _ h => by cases h⟩
theorem witness_ResetReleaseTakesTheInputs : fresh.resetAsserted = false ∧ inReset.resetAsserted = true := by decide
/-- Back-travel of exactly the weight, one less, and none; a gain of 0 and of exactly 1. -/
theorem witness_ForwardPulseCounts :
    fresh.resetAsserted = false ∧ fresh.work = [] ∧ fresh.profile.line.pulseWeight.get .main = 1024 ∧
    (1024 : Nat) ≤ 1024 ∧ (1023 : Nat) < 1024 ∧ (0 + (1024 - 1023)) / 1024 = 0 ∧ 1 ≤ (0 + (1024 - 0)) / 1024 ∧
    (fresh.setChannel .main { backTravel := 1024, counter := 2 ^ 40 - 1 }).work = [] := by decide
theorem witness_ReversePulseHoldsBackTravel :
    let s := fresh.setChannel .main { backTravel := 16777215 - 1024 }
    (s.resetAsserted = false ∧ s.work = []) ∧ fresh.resetAsserted = false ∧ fresh.work = [] := by decide
/-- A counter that has saturated after gain in the same interval. -/
theorem witness_TenMsUpdateClosesTheBuckets :
    let full := fresh.setChannel .main { saturated := true, gain := 7, buckets := List.replicate 10 200 }
    (fresh.resetAsserted = false ∧ fresh.work = []) ∧ full.resetAsserted = false ∧ full.work = [] ∧ (full.channel .main).saturated = true ∧
    ((after .tenMsUpdate full).channel .main).speed = 18000 := by decide +kernel
theorem witness_EntryIntoAStopBeginsAStop :
    let moving := fresh.setChannel .main { speed := 10 }
    let stopped := { fresh with lmu := { fresh.lmu with stopped := true } }
    (moving.resetAsserted = false ∧ (moving.channel .main).speed ≠ 0 ∧ moving.work = []) ∧
    (stopped.lmu.stopped = true ∧ stopped.work = []) ∧
    fresh.lmu.stopped = false ∧ (fresh.channel .main).speed = 0 ∧
      ∀ e ∈ fresh.profile.entries, e.enable = true → e.stopTolerance ≠ 0 := by decide
/-- The first entry takes its zone, the second has D_near = D_far, the twelfth is disabled. -/
def zones : State :=
  { stopped2000000 with
    profile := { stopped2000000.profile with
      entries := [⟨true, .preheater, 150000, 180000, 0, 300⟩, ⟨true, .hotPlate, 20, 20, 0, 700⟩] ++ List.replicate 10 {} } }
theorem witness_StopZoneIsTaken :
    (zones.resetAsserted = false ∧ zones.lmu.stopped = true ∧ (zones.port .wet).classes.length = 13) ∧
    (nth1 zones.profile.entries 1 = some ⟨true, .preheater, 150000, 180000, 0, 300⟩ ∧ nth1 zones.map.zoneTaken 1 = some false) ∧
    (nth1 zones.profile.entries 2 = some ⟨true, .hotPlate, 20, 20, 0, 700⟩ ∧ nth1 zones.map.zoneTaken 2 = some false) ∧
    (nth1 zones.profile.entries 12 = some {} ∧ nth1 zones.map.zoneTaken 12 = some false) ∧ zones.work = [] := by decide
theorem witness_CountersAndDoubtsOnlyGrow :
    let s := fresh.setChannel .main { counter := 2 ^ 40 - 1 }
    Instr.forwardPulse .main ≠ .resetAssert ∧ (s.channel .main).counter ≤ 2 ^ 40 - 1 ∧
    exec (.forwardPulse .main) s = .next (after (.forwardPulse .main) s) := ⟨by decide, by decide, rfl⟩
theorem witness_MapAnswersForAStretch : (0 : Pos) < 1 := by decide
theorem witness_InsertionHoldsTheUnion :
    (Extent.closed 0 1 .stop).covers = true ∧ ∀ y ∈ trackExample.map.track, y.covers = true := by decide
theorem trackExample_canonical : trackExample.trackCanonical where
  ordered := ⟨by decide, ⟨1135000, rfl, by decide⟩, by decide, ⟨1204000, rfl, by decide⟩, rfl⟩
  fields := by
    intro x h
    rcases List.mem_cons.mp h with rfl | h
    · exact ⟨rfl, rfl⟩
    rcases List.mem_cons.mp h with rfl | h
    · exact ⟨rfl, rfl⟩
    rcases List.mem_cons.mp h with rfl | h
    · exact ⟨rfl, rfl⟩
    cases h
  fromZero := by decide
  room := by decide
theorem witness_MainTrackStaysCanonical :
    let s := { trackExample with pending := [.qualityReject .dry 0 1135000 1140000] }
    s.trackCanonical ∧ step s = .next (after (.qualityReject .dry 0 1135000 1140000) trackExample) :=
  ⟨⟨trackExample_canonical.ordered, trackExample_canonical.fields, trackExample_canonical.fromZero,
    trackExample_canonical.room⟩, rfl⟩
theorem witness_LaneSyncSetsTheOffset :
    Heard fresh .wet 0x16 ∧ Lane.ofCode? 2 = some .two ∧ (2 ^ 40 - 1 : Int).natAbs ≤ 2 ^ 40 - 1 ∧
    (0 : Int) = (fresh.lane .two).offset ∧ Lane.ofCode? 3 = none ∧ 2 ^ 40 - 1 < (2 ^ 40 : Int).natAbs ∧ fresh.work = [] :=
  ⟨heard_of (by decide), by decide⟩

def recogniserAt (r : Recogniser) (f : LaneProfile) : State :=
  let s := fresh.setLane .one { fresh.lane .one with recogniser := r }
  { s with profile := { s.profile with lanes := { s.profile.lanes with one := f } } }
theorem witness_SeamInputMovesTheRecogniser :
    (fresh.resetAsserted = false ∧ fresh.work = [] ∧ false = (fresh.lane .one).recogniser.level ∧
      (fresh.lane .one).recogniser.state = .guard) ∧
    ((recogniserAt { state := .armed } {}).lane .one).recogniser.state = .armed ∧
    ((recogniserAt { state := .active, p0 := some 0 } {}).lane .one).recogniser.p0 = some 0 ∧
    ((recogniserAt { state := .trailing, level := true, p0 := some 0 } {}).laneProfile .one).postQuiet = 0 ∧
    ((recogniserAt { state := .trailing, level := true, p0 := some 0 } { postQuiet := 1 }).laneProfile .one).postQuiet ≠ 0 ∧
    ((recogniserAt { state := .trailing, level := true, p0 := some 0 } {}).lane .one).recogniser.level = true := by decide
theorem witness_PollAndInterruptMakeReadsPending :
    fresh.resetAsserted = false ∧ fresh.work = [] ∧ true ≠ fresh.splice.link.interrupt := by decide

def pendingLink (write read1 read2 : Bool) : State :=
  let s := (fresh.withStream .s1 { active := true }).withStream .s2 { active := true }
  (s.setStream .s1 { s.stream .s1 with readPending := read1, writePending := write }).setStream .s2
    { s.stream .s2 with readPending := read2, writePending := write }
theorem witness_FreeLinkStartsTheNextTransaction :
    let writes := fun (s : State) x => (s.streamProfile x).active = true ∧ (s.stream x).writePending = true ∧ (s.stream x).linkFault = false
    let reads := fun (s : State) x => (s.streamProfile x).active = true ∧ (s.stream x).readPending = true
    (s5Example.withBusy .s5 false 0).splice.link.busy ≠ none ∧
    (∀ x, ¬ writes fresh x ∧ ¬ reads fresh x) ∧
    (writes (pendingLink true false false) .s1 ∧ ∀ y, writes (pendingLink true false false) y → Stream.s1.number ≤ y.number) ∧
    (reads (pendingLink false false true) .s2 ∧ (∀ y, ¬ writes (pendingLink false false true) y) ∧
      ∀ y, reads (pendingLink false false true) y → Stream.s2.number ≤ y.number) :=
  ⟨by decide, fun x => by cases x <;> decide,
    ⟨by decide, fun y => by cases y <;> decide⟩,
    by decide, fun y => by cases y <;> decide, fun y => by cases y <;> decide⟩
theorem witness_TransactionsEndInSuccessOrFault :
    (fresh.withBusy .s1 true 2).resetAsserted = false ∧ (fresh.withBusy .s1 true 2).splice.link.busy = some ⟨.s1, true, 2, {}⟩ ∧
    (fresh.withBusy .s1 false 3).splice.link.busy = some ⟨.s1, false, 3, {}⟩ ∧ (fresh.withBusy .s1 true 2).work = [] ∧
    ((fresh.withBusy .s1 true 3).stream .s1).linkFault = false ∧ (fresh.port .wet).classes.length = 13 ∧
    ((fresh.setStream .s1 { fresh.stream .s1 with linkFault := true }).stream .s1).linkFault = true := by decide

def allDown : StandLevels := ⟨⟨false, false, false, false⟩, ⟨false, false, false, false⟩, false⟩
/-- An interrupt scan at S1, S1 and S2 active, the read of S1 in progress with `failed` attempts failed. -/
def scanning (failed : Nat) : State :=
  let s := pendingLink false true false
  (s.setLink { s.splice.link with interrupt := true, scan := some .s1 }).withBusy .s1 false failed
theorem witness_TransactionsEndInSuccessOrFault_scan :
    (scanning 3).splice.link.busy = some ⟨.s1, false, 3, {}⟩ ∧ (scanning 3).work = [] ∧ (scanning 3).splice.link.interrupt = true ∧
    (scanning 3).splice.link.scan = some .s1 ∧ (scanning 3).profile.nextActive .s1 = some .s2 ∧
    ((scanning 3).stream .s1).readPending = true := by decide
/-- R99, R101: an interrupt that comes while a poll's read of S1 is made leaves one read pending behind it, that of S2, whether
the read succeeds or is abandoned. -/
theorem test_scan_read_is_one_read :
    let s := after (.standInterruptChange true) ((pendingLink false false false).withBusy .s1 false 3)
    let pending := fun (t : State) => Stream.all.filter fun x => (t.stream x).readPending
    pending s = [.s1] ∧ pending (after (.standRead (allDown)) s) = [.s2] ∧ pending (after .standAttemptFailed s) = [.s2] := by
  decide +kernel

/-- A read in progress on S1 whose arm A is as given, everything seen before. -/
def readingArm (r : ArmRec) : State :=
  (fresh.setStream .s1
    { fresh.stream .s1 with arms := ⟨r, {}⟩, seen := true, splicerReady := { level := true }, running := some .a }).withBusy .s1 false 0
def up : StandInput := { level := true }
def rising : StandInput := { candidate := some 0 }
def falling : StandInput := { level := true, candidate := some 0 }
/-- The same, 20 ticks after a read showed the other levels. -/
def readingLater (r : ArmRec) : State := { readingArm r with lmu := { fresh.lmu with ticks := 20 } }
def allUp (button : Bool) : StandLevels := ⟨⟨true, true, button, false⟩, ⟨false, false, false, false⟩, true⟩
def reelGone : StandLevels := ⟨⟨false, true, false, false⟩, ⟨false, false, false, false⟩, true⟩
theorem witness_StandReadDebouncesTheInputs :
    (readingArm {}).resetAsserted = false ∧ (readingArm {}).splice.link.busy = some ⟨.s1, false, 0, {}⟩ ∧
    (fresh.stream .s1).seen = false ∧ (readingArm {}).lmu.ticks < 0 + 20 ∧ 0 + 20 ≤ (readingLater {}).lmu.ticks ∧
    ((scanning 0).resetAsserted = false ∧ (scanning 0).splice.link.busy = some ⟨.s1, false, 0, {}⟩ ∧
      (scanning 0).splice.link.scan = some .s1 ∧ (scanning 0).profile.nextActive .s1 = some .s2) := by decide
/-- Each move of an arm, with what the read leaves. -/
theorem witness_StandReadMovesTheArm :
    (let s := readingLater { declaration := some ⟨1, 1⟩, present := rising, latched := up }
      let r' := (after (.standRead (allUp false)) s).arm .s1 .a
      (s.arm .s1 .a).present.level = false ∧ r'.present.level = true ∧ r'.latched.level = true ∧ r'.state = .loaded) ∧
    (let s := readingLater { state := .loaded, present := up, latched := up, button := rising }
      let r' := (after (.standRead (allUp true)) s).arm .s1 .a
      (s.arm .s1 .a).button.level = false ∧ r'.button.level = true ∧ r'.present.level = true ∧ r'.state = .ready) ∧
    (let s := readingLater { state := .loaded, present := up, latched := up }
      let r' := (after (.standRead (allUp false)) s).arm .s1 .a
      r'.present.level = true ∧ r'.latched.level = true ∧ r'.button.level = false) ∧
    (let s := readingLater { state := .loaded, present := falling, latched := up };
      (s.arm .s1 .a).present.level = true ∧ ((after (.standRead reelGone) s).arm .s1 .a).present.level = false) ∧
    (let s := readingLater { state := .running, present := falling, latched := up };
      (s.arm .s1 .a).state = .running ∧ (s.stream .s1).broken = false ∧ (s.arm .s1 .a).present.level = true ∧
      ((after (.standRead reelGone) s).arm .s1 .a).present.level = false) := by decide +kernel

def committed (fire : Pos) : Slot :=
  { state := .committed, kind := .runout, grade := 44, commitPoint := 0, firePoint := fire, chosen := some .b }
def driven : State := s5Example.setArm .s5 .b { s5Example.arm .s5 .b with driveEnable := true }
theorem witness_GoodDriveFiresTheSplice :
    (fresh.resetAsserted = false ∧ fresh.work = [] ∧ (fresh.streamProfile .s5).driveMode = .input) ∧
    (driven.streamProfile .s5).driveMode.delay? = some 400 ∧ (driven.arm .s5 .b).driveEnable = true ∧
    (s5Example.arm .s5 .b).driveEnable = false ∧ (driven.stream .s5).slot = none ∧
    (fired 0).state ≠ .committed ∧ (committed 15700001).state = .committed ∧ driven.streamPos .s5 < (committed 15700001).firePoint ∧
    (committed 15700000).firePoint ≤ driven.streamPos .s5 ∧ (committed 15700000).chosen = some .b ∧
    (committed 15700000).wrongGrade = false ∧ (committed 15700000).advanced = false ∧
    ((driven.withSlot .s5 (committed 15700000)).stream .s5).slot = some (committed 15700000) := by decide
theorem witness_DonePulseCompletesTheSplice :
    (s5Example.withSlot .s5 (fired 15600000)).resetAsserted = false ∧
    ((s5Example.withSlot .s5 (fired 15600000)).stream .s5).slot = some (fired 15600000) ∧
    (fired 15600000).state = .fired ∧ (fired 15600000).chosen = some .b ∧ (s5Example.stream .s5).running = some .a ∧
    Stream.s5.lane = none ∧ Stream.s4.lane = some .two ∧ (s5Example.port .wet).classes.length = 13 ∧
    (let s := s5Example.withSlot .s5 (fired 15600000)
      let e := s.seamExtent (15600000 + s.seamOffset .s5) .s5 false false
      e.1 < e.2) := by decide
theorem witness_StrayDonePulseRaisesSpliceFault :
    (fresh.resetAsserted = false ∧ fresh.work = [] ∧ (fresh.stream .s1).slot = none ∧ (fresh.port .wet).classes.length = 13) ∧
    ((s5Example.withSlot .s5 (committed 0)).stream .s5).slot = some (committed 0) ∧ (committed 0).state ≠ .fired := by decide
/-- Grades 1 and 255, lengths 1 and 200,000,000; an arm EMPTY, READY and free, READY and chosen, RUNNING. -/
theorem witness_ReelsAreDeclaredAndWithdrawn :
    Heard s5Example .wet 0x10 ∧ Heard s5Example .wet 0x11 ∧ s5Example.work = [] ∧
    (Stream.ofCode? 5 = some .s5 ∧ Arm.ofCode? 2 = some .b ∧ Stream.ofCode? 6 = none ∧ Arm.ofCode? 0 = none) ∧
    ((1 : Nat) ≤ 255 ∧ 255 < 256 ∧ 200000000 < 200000001) ∧
    (s5Example.arm .s5 .a).state = .running ∧ (s5Example.arm .s5 .b).state = .ready ∧
    s5Example.spliceHolds .s5 .b = false ∧ (s5Example.withSlot .s5 (committed 0)).spliceHolds .s5 .b = true ∧
    (s5Example.arm .s1 .a).state = .empty :=
  ⟨heard_of (by decide), heard_of (by decide), by decide⟩
theorem witness_ManualSpliceCommitsAtOnce :
    let ready := s5Example.setArm .s5 .b { s5Example.arm .s5 .b with declaration := some ⟨12, 1⟩ }
    Heard fresh .wet 0x12 ∧ Heard ready .wet 0x12 ∧ Heard s5Example .wet 0x12 ∧
    (fresh.work = [] ∧ ready.work = [] ∧ Stream.ofCode? 0 = none ∧ Stream.ofCode? 5 = some .s5 ∧ fresh.part = .setup ∧
      ready.part = .tracking ∧ (ready.withSlot .s5 (committed 0)).part = .tracking ∧
      ((ready.withSlot .s5 (committed 0)).stream .s5).slot ≠ none ∧ (ready.stream .s5).slot = none ∧
      (ready.stream .s5).running = some .a ∧ (ready.stream .s5).broken = false ∧ (ready.stream .s5).linkFault = false ∧
      (ready.arm .s5 .b).state = .ready ∧
      (ready.arm .s5 .b).declaration.map Declaration.grade = some (ready.stream .s5).runningGrade ∧
      (ready.port .wet).classes.length = 13 ∧
      (s5Example.arm .s5 .b).declaration.map Declaration.grade ≠ some (s5Example.stream .s5).runningGrade) :=
  ⟨heard_of (by decide), heard_of (by decide), heard_of (by decide), by decide⟩
theorem witness_WebBreakStopsTheStream :
    Heard s5Example .wet 0x13 ∧ Heard brokenS3 .wet 0x13 ∧
    (Stream.ofCode? 6 = none ∧ Stream.ofCode? 3 = some .s3 ∧ (brokenS3.stream .s3).broken = true ∧ brokenS3.work = [] ∧
      Stream.ofCode? 5 = some .s5 ∧ (s5Example.stream .s5).broken = false ∧ Stream.s3.lane = some .two) :=
  ⟨heard_of (by decide), heard_of (by decide), by decide⟩
theorem witness_WebRestoredRunsTheArm :
    Heard brokenS3 .wet 0x14 ∧ Heard s5Example .wet 0x14 ∧
    (Stream.ofCode? 3 = some .s3 ∧ Arm.ofCode? 1 = some .a ∧ Arm.ofCode? 3 = none ∧ 200000000 ≤ 200000000 ∧ 200000000 < 200000001 ∧
      brokenS3.work = [] ∧ (brokenS3.stream .s3).broken = true ∧ (brokenS3.arm .s3 .a).state = .loaded ∧
      (brokenS3.arm .s3 .a).declaration = some ⟨7, 5000⟩ ∧ (brokenS3.arm .s3 .a).present.level = true ∧
      (brokenS3.arm .s3 .a).latched.level = true ∧ (s5Example.stream .s5).broken = false ∧
      (brokenS3.arm .s3 .b).state = .empty) :=
  ⟨heard_of (by decide), heard_of (by decide), by decide⟩
theorem witness_StreamRecoverNamesTheRunningArm :
    Heard s5Example .wet 0x15 ∧ Heard brokenS3 .wet 0x15 ∧ Heard (s5Example.withSlot .s5 (fired 0)) .wet 0x15 ∧
    (Stream.ofCode? 5 = some .s5 ∧ Arm.ofCode? 2 = some .b ∧ Stream.ofCode? 0 = none ∧ s5Example.work = [] ∧
      (brokenS3.stream .s3).broken = true ∧ (s5Example.stream .s5).broken = false ∧ (fired 0).state = .fired ∧
      (s5Example.stream .s5).slot = none ∧ (s5Example.arm .s5 .b).state = .ready ∧
      (s5Example.arm .s5 .b).declaration = some ⟨44, 5000000⟩ ∧ (s5Example.arm .s1 .a).state = .empty ∧
      (s5Example.arm .s5 .a).state = .running) :=
  ⟨heard_of (by decide), heard_of (by decide), heard_of (by decide), by decide⟩

/-! Station ports. -/

theorem witness_SelectPeriodShiftsTheFrame :
    let begun := after (.selectStart .wet) live
    (live.resetAsserted = false ∧ live.work = [] ∧ (live.port .wet).select = none ∧ (live.port .wet).queue = []) ∧
    ((live.queueOf .wet [.reply 0x97 1 [0]]).port .wet).queue = .reply 0x97 1 [0] :: [] ∧
    ((live.queueOf .wet [.notice 12]).port .wet).queue = .notice 12 :: [] ∧
    (begun.resetAsserted = false ∧ begun.work = [] ∧ (begun.port .wet).select ≠ none) := by decide +kernel
/-- A period in which the bytes of a Read Station Changes came in, one with a first byte of 0, and an ignored one. -/
def period (received : List Byte) (ignored : Bool) : State :=
  live.setPort .wet { live.port .wet with
    select := some { chosen := none, bytes := [5, 0xFF, 0, 1, 0, 0], shifted := received.length, received := received, ignored := ignored } }
theorem witness_SelectEndDeliversAndJudges :
    (live.resetAsserted = false ∧ live.work = [] ∧ (live.port .wet).select = none) ∧
    (((period [] true).port .wet).select.map SelectPeriod.ignored = some true) ∧
    (((period [] false).port .wet).select.map SelectPeriod.received = some []) ∧
    (((period [0, 1] false).port .wet).select.map SelectPeriod.received = some (0 :: [1])) ∧
    requestFrame (.readStationChanges .wet 23) = some ⟨.wet, 0x17, 23, []⟩ ∧ (Instr.readStationChanges .wet 23).wellFormed = true ∧
    ((period [2, 0x17, 23, 9] false).port .wet).select.map SelectPeriod.received
      = some (RequestFrame.bytes ⟨.wet, 0x17, 23, []⟩ ++ [9]) := by decide
theorem witness_RequestFramesReadBack :
    requestFrame (.toolIn .dry 4 1 2 10) = some ⟨.dry, 0x26, 4, [1, 2, 10]⟩ ∧ (Instr.toolIn .dry 4 1 2 10).wellFormed = true := by decide
theorem witness_EveryRequestGetsOneReply :
    let full := live.queueOf .dry (List.replicate 16 (.reply 0xA0 0 []))
    requestFrame (.takeActions .dry 1) = some ⟨.dry, 0x20, 1, []⟩ ∧ live.resetAsserted = false ∧ (0x20 : Nat) ≠ 0x36 ∧ (0x20 : Nat) ≠ 0x39 ∧
    (live.port .dry).queue.length < 16 ∧ 16 ≤ (full.port .dry).queue.length ∧
    (full.port .dry).classes.length = Port.classCount .dry ∧ Port.wet ≠ .dry ∧
    exec (.takeActions .dry 1) live = .next (after (.takeActions .dry 1) live) ∧
    exec (.takeActions .dry 1) full = .next (after (.takeActions .dry 1) full) :=
  ⟨by decide, by decide, by decide, by decide, by decide, by decide, by decide, by decide, rfl, rfl⟩
theorem witness_UntakenRequestsChangeNothing :
    let full := live.queueOf .dry (List.replicate 16 (.reply 0xA0 0 []))
    live.resetAsserted = false ∧ live.work = [] ∧ 16 ≤ (full.port .dry).queue.length ∧ (live.port .wet).queue.length < 16 ∧
    accepted .wet 0x20 = false ∧ accepted .wet 0x12 = true ∧
    requestFrame (.takeActions .wet 1) = some ⟨.wet, 0x20, 1, []⟩ ∧ requestFrame (.manualSplice .wet 1 6) = some ⟨.wet, 0x12, 1, [6]⟩ ∧
    (match verdictOf (.manualSplice .wet 1 6) live with
      | .refuse cause sectionCode => decide (cause = .range ∧ sectionCode = 0)
      | .done _ _ _ => false) = true := by decide
/-- A port of 10 classes: the set of all its classes, and the first set beyond it. -/
theorem witness_NoticeEnablesAndClears :
    Heard fresh .dry 0x35 ∧ Heard fresh .dry 0x36 ∧ fresh.work = [] ∧ (0x03FF : BitVec 16).toNat < 2 ^ (fresh.port .dry).classes.length ∧
    2 ^ (fresh.port .dry).classes.length ≤ (0x0400 : BitVec 16).toNat :=
  ⟨heard_of (by decide), heard_of (by decide), by decide⟩
theorem witness_PauseHoldsNoticesUntilResume :
    let paused := wetEnabled.setPort .wet { wetEnabled.port .wet with paused := true }
    Heard wetEnabled .wet 0x37 ∧ Heard paused .wet 0x38 ∧ wetEnabled.work = [] ∧ (paused.port .wet).paused = true ∧
    12 < (paused.port .wet).classes.length :=
  ⟨heard_of (by decide), heard_of (by decide), by decide⟩
theorem witness_RestartPortBeginsAgain :
    Heard cutting7001 .dry 0x39 ∧ Heard cutting7001 .wet 0x39 ∧ cutting7001.work = [] ∧ Port.wet ≠ .dry ∧ cutting7001.dry.released ≠ [] ∧
    ∀ x ∈ (after (.takeActions .dry 0) cutting7001).dry.released, x.taken = true :=
  ⟨heard_of (by decide), heard_of (by decide), by decide +kernel⟩
theorem bounded_of {s : State}
    (h : ([Port.planning, .wet, .dry].all fun p =>
      (s.port p).queue.length ≤ 16 && (s.port p).notices ≤ 12 && (s.port p).classes.length == Port.classCount p) = true) :
    s.portsBounded := by
  simp only [List.all_cons, List.all_nil, Bool.and_true, Bool.and_eq_true, decide_eq_true_eq, beq_iff_eq] at h
  intro p
  cases p
  · exact ⟨⟨h.1.1.1, h.1.1.2⟩, h.1.2⟩
  · exact ⟨⟨h.2.1.1.1, h.2.1.1.2⟩, h.2.1.2⟩
  · exact ⟨⟨h.2.2.1.1, h.2.2.1.2⟩, h.2.2.2⟩
theorem witness_OutQueuesStayBounded :
    let s := { live.queueOf .dry (List.replicate 15 (.reply 0xA0 0 [])) with pending := [.takeActions .dry 0] }
    s.portsBounded ∧ step s = .next (after (.takeActions .dry 0) { s with pending := [] }) :=
  ⟨bounded_of (by decide), rfl⟩
theorem witness_ReadsReplyFromTheStateAlone :
    (Heard cutting7001 .planning 0x30 ∧ Heard cutting7001 .planning 0x34 ∧ Heard cutting7001 .planning 0x06 ∧ Heard cutting7001 .planning 0x05 ∧
      Heard cutting7001 .planning 0x31 ∧ Heard cutting7001 .planning 0x32 ∧ Heard cutting7001 .planning 0x33) ∧ cutting7001.work = [] ∧ 3 ≤ 3 ∧
    (∀ r ∈ cutting7001.book, r.fig.id ≠ 9) ∧ (cutting7001.book.map fun r => r.fig.id).Nodup ∧ cutting7001.book[0]? = some record7001 ∧
    record7001.fig.id = 7001 ∧ Stream.ofCode? 0 = none ∧ Stream.ofCode? 5 = some .s5 :=
  ⟨⟨heard_of (by decide), heard_of (by decide), heard_of (by decide), heard_of (by decide), heard_of (by decide),
    heard_of (by decide), heard_of (by decide)⟩, by decide⟩
theorem witness_TakesGiveAndMark :
    Heard cutting7001 .wet 0x17 ∧ Heard cutting7001 .dry 0x20 ∧ Heard cutting7001 .dry 0x23 ∧ cutting7001.work = [] ∧
    (cutting7001.dry.released.map ActionRec.sequence).Nodup :=
  ⟨heard_of (by decide), heard_of (by decide), heard_of (by decide), by decide⟩

/-! The dry action list and the stations. -/

theorem witness_SequenceNumbersRunOn :
    ({ live with dry := { live.dry with sequence := 4294967295 } }).dry.sequence = 4294967295 ∧ live.dry.sequence ≠ 4294967295 ∧
    1 ≤ live.dry.sequence ∧ live.resetAsserted = false := by decide
/-- Cut 1 reported 50,001 wc beyond its position, with a tolerance of 50,000; a DROP and a LIFT. -/
def withSwap : State :=
  let s := cutting7001.withLine { execTolerance := 50000 }
  { s with
    dry := { s.dry with
      released := s.dry.released ++
        [{ kind := .lift, sequence := 2, position := 1013000, deadline := 1063000, station := some .a, order := 7001 },
         { kind := .drop, sequence := 3, position := 1013000, deadline := 1063000, station := some .b, order := 7001 }]
      sequence := 4 } }
theorem witness_ActionDoneExecutesTheRecord :
    Heard withSwap .dry 0x21 ∧ withSwap.work = [] ∧ 2 ^ 40 - 1 < 2 ^ 40 ∧ (∀ r ∈ withSwap.dry.released, r.sequence ≠ 4) ∧
    withSwap.dry.released.find? (fun r => r.sequence == 1) = some (cut7001 1 1 1012346 1000000) ∧
    withSwap.order? 7001 = some record7001 ∧ withSwap.windowOrder? 7001 = some { id := 7001, cuts := 1 } ∧
    ({ withSwap with plan := live.plan }).windowOrder? 7001 = none ∧ (withSwap.port .dry).classes.length = 10 ∧
    withSwap.profile.line.execTolerance < ((1062347 : Int) - 1012346).natAbs ∧
    ((withSwap.dry.released.find? (fun r => r.sequence == 2)).map fun r => (r.kind, r.station)) = some (.lift, some .a) ∧
    ((withSwap.dry.released.find? (fun r => r.sequence == 3)).map fun r => (r.kind, r.station)) = some (.drop, some .b) ∧
    (withSwap.station .a).state ≠ .down :=
  ⟨heard_of (by decide), by decide +kernel⟩
theorem witness_QualityRejectInsertsTheStretch :
    Heard cutting7001 .dry 0x22 ∧ cutting7001.work = [] ∧ (5 : Nat) ≤ 5 ∧ 2 ^ 40 - 1 < 2 ^ 40 ∧ 0 < 2 ^ 40 - 1 ∧ 2 ^ 40 - 1 ≤ 2 ^ 40 - 1 :=
  ⟨heard_of (by decide), by decide⟩
theorem witness_AssignmentGivesPositionsInOrder :
    let ts : List Tool := [{}, { state := .out }, {}, {}];
    [150, 10150].length ≤ inService ts ∧ ts[1]? = some { state := .out } ∧ ts[3]? = some ({} : Tool) ∧
    (assign ts [150, 10150])[3]? = some none := by decide
theorem witness_ToolPlacedIsJudged :
    Heard setupExample .dry 0x24 ∧ setupExample.work = [] ∧
    (Station.ofCode? 1 = some .a ∧ ToolKind.ofCode? 1 = some .slit ∧ 1 ≤ 3 ∧ 3 ≤ ToolKind.tools .slit ∧
      setupExample.tool? .a .slit 3 = some { state := .moving, target := some 20150, attempts := 1 } ∧
      ({ state := .moving, target := some 20150, attempts := 1 } : Tool).target = some 20150 ∧
      setupExample.tool? .a .slit 1 = some (toolAt 150) ∧ (toolAt 150).state ≠ .moving ∧ 28000 < 28001) ∧
    ((20155 ≤ 20150 + setupExample.profile.slitter.placeTolerance ∧ 20150 ≤ 20155 + setupExample.profile.slitter.placeTolerance) ∧
      ¬ 20156 ≤ 20150 + setupExample.profile.slitter.placeTolerance ∧ 0 + 1 < setupExample.profile.slitter.placeAttempts ∧
      setupExample.profile.slitter.placeAttempts ≤ 1 + 1 ∧ (setupExample.station .a).state = .setting ∧
      (setupExample.station .a).late = none ∧ (setupExample.port .dry).classes.length = 10) ∧
    Station.ofCode? 3 = none :=
  ⟨heard_of (by decide), by decide⟩
/-- The other tools of the example owe no move. -/
theorem witness_ToolPlaced_last :
    ∀ j n' t', (j, n') ≠ (ToolKind.slit, 3) → setupExample.tool? .a j n' = some t' → t'.state ≠ .moving := by
  intro j n' t' h e
  have slits : ∀ k < 9, k ≠ 3 → ((setupExample.tool? .a .slit k).map fun t => t.state) ≠ some .moving := by decide
  have scores : ∀ k < 11, ((setupExample.tool? .a .score k).map fun t => t.state) ≠ some .moving := by decide
  have far : ∀ (l : List Tool) k, l.length < k → nth1 l k = none := by
    intro l k hk
    cases k with
    | zero => rfl
    | succ k => exact List.getElem?_eq_none (by omega)
  intro c
  cases j with
  | slit =>
    by_cases hn : n' < 9
    · exact slits n' hn (fun q => h (by rw [q])) (by rw [e, Option.map_some, c])
    · have := far (setupExample.station .a).slits n' (show 8 < n' by omega)
      rw [show setupExample.tool? .a .slit n' = nth1 (setupExample.station .a).slits n' from rfl, this] at e
      cases e
  | score =>
    by_cases hn : n' < 11
    · exact scores n' hn (by rw [e, Option.map_some, c])
    · have := far (setupExample.station .a).scores n' (show 10 < n' by omega)
      rw [show setupExample.tool? .a .score n' = nth1 (setupExample.station .a).scores n' from rfl, this] at e
      cases e
def outTool (st : StationState) (d : Option Demand) : State :=
  (live.modifyTool .a .slit 8 fun t => { t with state := .out }).setStation .a
    { ((live.modifyTool .a .slit 8 fun t => { t with state := .out }).station .a) with state := st, demand := d }
theorem witness_ToolsLeaveAndReturnToService :
    Heard live .dry 0x25 ∧ Heard (outTool .failed none) .dry 0x26 ∧ live.work = [] ∧
    (Station.ofCode? 1 = some .a ∧ ToolKind.ofCode? 2 = some .score ∧ 10 ≤ ToolKind.tools .score ∧ live.tool? .a .score 10 = some {} ∧
      ({} : Tool).state ≠ .out ∧ (live.station .a).state = .idle ∧ ¬ 11 ≤ ToolKind.tools .score) ∧
    ((outTool .failed none).tool? .a .slit 8 = some { state := .out } ∧ ((outTool .failed none).station .a).demand = none ∧
      ((outTool .failed (some ⟨7003, layoutOf layout3⟩)).station .a).demand = some ⟨7003, layoutOf layout3⟩ ∧
      ((outTool .failed none).station .a).state = .failed ∧ ((outTool .idle none).station .a).state ≠ .failed) ∧
    (let s := setupExample.setStation .a { setupExample.station .a with state := .down };
      (s.station .a).state = .down ∧ (s.tool? .a .slit 1).map Tool.assigned = some true) :=
  ⟨heard_of (by decide), heard_of (by decide), by decide⟩

/-! The order book and the planner. -/

def fullBook : State := { lineUp with book := (List.range 32).map fun k => { fig := { figuresOf order7001 with id := k + 1 } } }
theorem witness_AddOrderAppendsTheRecord :
    Heard lineUp .planning 1 ∧ Heard fullBook .planning 1 ∧
    (lineUp.work = [] ∧ 32 ≤ fullBook.book.length ∧ lineUp.book.length < 32 ∧
      (∃ r ∈ cutting7001.book, r.fig.id = order7001.id) ∧ figuresInRange { order7001 with t := 1000000 } = false ∧
      figuresInRange order7001 = true ∧ fresh.profile.formatPasses (figuresOf order7001) = false ∧
      lineUp.profile.formatPasses (figuresOf order7001) = true ∧ lineUp.part = .setup ∧ (lineUp.book.map fun r => r.fig.id).Nodup) :=
  ⟨heard_of (by decide), heard_of (by decide), by decide +kernel⟩
def tracking : State := { lineUp with part := .tracking }
theorem witness_AddOrderAppendsTheRecord_tracking :
    Heard tracking .planning 1 ∧
    (tracking.work = [] ∧ tracking.part = .tracking ∧ tracking.profile.formatPasses (figuresOf order7001) = true ∧
      (after (.addOrder .planning 0 order7001) tracking).plan.window.length = 1) :=
  ⟨heard_of (by decide), by decide +kernel⟩
/-- Figures at the ends of their ranges. -/
theorem witness_OrderFiguresAreInRange :
    figuresInRange { order7001 with id := 4294967295, sf := 1280000, t := 999999, a := 9999, m := 255, q := 9999 } = true ∧
    figuresInRange { order7001 with id := 1, sf := 48000, t := 1, a := 0, m := 0, q := 1 } = true ∧
    figuresInRange { order7001 with id := 0 } = false := by decide
def queued7001 : State := lineUp.withRecord { fig := figuresOf order7001 }
def planned7001 (pinned : Bool) : State := { cutting7001 with book := [{ record7001 with phase := .planned, pinned := pinned }] }
def amend (t : Nat) : RawAmend := ⟨7001, true, false, false, false, true, t, 0, 0, 0, layout3⟩
theorem witness_AmendOrderWritesCarriedFigures :
    Heard queued7001 .planning 2 ∧ Heard (planned7001 true) .planning 2 ∧ queued7001.work = [] ∧ (∀ r ∈ fresh.book, r.fig.id ≠ 7001) ∧
    queued7001.order? 7001 = some { fig := figuresOf order7001 } ∧ ¬ (amend 0).t ≥ 1 ∧ 1 ≤ (amend 39).t ∧ (amend 39).t ≤ 999999 ∧
    layoutInRange (amend 39).layout = true ∧
    (planned7001 true).order? 7001 = some { record7001 with phase := .planned, pinned := true } ∧
    (planned7001 false).order? 7001 = some { record7001 with phase := .planned } ∧ (amend 39).t < record7001.fig.t ∧
    queued7001.windowOrder? 7001 = none ∧ queued7001.profile.spacingPasses (layoutOf layout3) = true ∧
    ({ minSlitSpacing := 10001 } : SlitterProfile).minSlitSpacing = 10001 ∧
    ({ fresh.profile with slitter := { minSlitSpacing := 10001 } }).spacingPasses (layoutOf layout3) = false :=
  ⟨heard_of (by decide), heard_of (by decide), by decide +kernel⟩
/-- 7,002 behind 7,001, its start OPEN while 7,001's end is. -/
def two7001 : State :=
  { cutting7001 with
    book := cutting7001.book ++ [{ record7001 with fig := { record7001.fig with id := 7002 }, phase := .planned, p := some 1493825 }]
    plan := { cutting7001.plan with window := cutting7001.plan.window ++ [{ id := 7002 }] } }
theorem witness_OrdersAreCancelledAndDiscarded :
    Heard cutting7001 .planning 3 ∧ Heard cutting7001 .planning 4 ∧ cutting7001.work = [] ∧ cutting7001.order? 9 = none ∧
    cutting7001.order? 7001 = some record7001 ∧ record7001.phase = .cutting ∧
    queued7001.order? 7001 = some { fig := figuresOf order7001 } ∧
    ((two7001.order? 7002).map OrderRec.phase = some .planned ∧ two7001.startPinned 7002 = false) ∧
    ((planned7001 false).startPinned 7001 = true) ∧
    (({ fresh with book := [{ record7001 with phase := .closed }] }).order? 7001).map OrderRec.phase = some .closed ∧
    ({ fresh with book := [{ record7001 with phase := .cancelled }] }).windowOrder? 7001 = none :=
  ⟨heard_of (by decide), heard_of (by decide), by decide +kernel⟩
theorem witness_ProvisionalExtensionStaysWithinTheAllowance :
    let l : Line := ⟨{ id := 7001 }, record7001⟩
    l.r.pinned = false ∧ l.r.n = some 40 ∧ l.r.fig.t ≤ 40 ∧ 40 ≤ l.r.fig.t + l.r.fig.a ∧
    l.r.fig.t + min (live.countRejects [] l 40) l.r.fig.a ≤ 40 ∧
    ¬ l.r.fig.t + min (live.countRejects [(1000000, 1000001)] l 40) l.r.fig.a ≤ 40 ∧
    (live.countLine none [(1000000, 1000001)] l).r.n = some 41 := by decide +kernel
def last7001 (phase : Phase) (cuts : Nat) : State :=
  { cutting7001 with
    book := [{ record7001 with phase := phase, pinned := true, result := if phase = .cancelled then some ⟨.cancelledAfterStart, 40, 0⟩ else none }]
    plan := { cutting7001.plan with window := [{ id := 7001, cuts := cuts }] }
    dry := { cutting7001.dry with released := [] } }
theorem witness_CloseWritesTheResult :
    ((last7001 .cutting 40).plan.window = { id := 7001, cuts := 40 } :: [] ∧
      (last7001 .cutting 40).order? 7001 = some { record7001 with pinned := true } ∧
      (last7001 .cutting 40).dealtWith { id := 7001, cuts := 40 } { record7001 with pinned := true } = true ∧
      ((last7001 .cutting 40).port .planning).classes.length = 12 ∧ record7001.counts.good < record7001.fig.t) ∧
    (last7001 .cutting 39).dealtWith { id := 7001, cuts := 39 } { record7001 with pinned := true } = false ∧
    ((last7001 .cancelled 40).order? 7001).map OrderRec.phase = some .cancelled := by decide
/-- The head leaves and empties the window; it leaves another order behind, with a late swap and without. -/
theorem witness_CloseWritesTheResult_departure :
    let w : WindowOrder := { id := 7001, cuts := 40 }
    let pair := { last7001 .cutting 40 with
      book := [{ record7001 with pinned := true }, { record7001 with fig := { record7001.fig with id := 7002 }, phase := .planned }]
      plan := { (last7001 .cutting 40).plan with window := [w, { id := 7002 }] } }
    let late := pair.setStation .b { pair.station .b with late := some ⟨7001, none, 0⟩ }
    (record7001.e = some 1493825 ∧ record7001.station = some .a ∧ (last7001 .cutting 40).part = .tracking) ∧
    ((last7001 .cutting 40).closeTest 7001).plan.tail = some ⟨record7001.fig.grades, record7001.fig.layout, .a, false⟩ ∧
    (pair.plan.window = w :: { id := 7002 } :: [] ∧ pair.dealtWith w { record7001 with pinned := true } = true ∧
      (∀ st, (pair.station st).late = none)) ∧
    ((late.closeTest 7001).plan.window.map fun v => v.prev.map PrevFigures.lapsed) = [some true] :=
  ⟨by decide, by decide +kernel, ⟨by decide, by decide +kernel, fun st => by cases st <;> decide⟩, by decide +kernel⟩

/-! The profile and the part states. -/

theorem witness_LoadTakesASectionWhole :
    Heard fresh .planning 7 ∧ Heard live .planning 7 ∧ (fresh.work = [] ∧ live.part = .tracking ∧ fresh.part = .setup) ∧
    Stream.ofCode? 5 = some .s5 ∧ Lane.ofCode? 2 = some .two ∧ (1 ≤ 12 ∧ 12 ≤ 12) ∧
    StreamProfile.inRange { splicerDistance := 4000000 } ∧ LaneProfile.inRange { kBase := -(2 ^ 40 - 1) } ∧ LineProfile.inRange {} ∧
    SlitterProfile.inRange {} ∧ EntryProfile.inRange { stopTolerance := 60000 } ∧ ({} : StreamProfile).active = false :=
  ⟨heard_of (by decide), heard_of (by decide), by decide, by decide, by decide, by decide,
    ⟨by decide, by decide, by decide, by decide, by decide, by decide, by decide, by decide⟩,
    ⟨by decide, by decide, by decide, by decide, by decide, by decide⟩,
    ⟨by decide, by decide, by decide, by decide, by decide, by decide, fun c => by cases c <;> decide, fun c => by cases c <;> decide⟩,
    ⟨by decide, by decide, by decide, by decide⟩, ⟨by decide, by decide, by decide⟩, by decide⟩
/-- Sections that fail: every range's first value outside. -/
theorem witness_LoadTakesASectionWhole_refused :
    ∀ v : StreamProfile, v.inRange → StreamProfile.raw { splicerDistance := 4000001 } ≠ StreamProfile.raw v := by
  intro v h e
  have := congrArg RawStreamSection.splicerDistance e
  have := h.splicerDistance
  simp [StreamProfile.raw] at *
  omega
theorem witness_ReleaseLineChecksTheProfile :
    Heard live .planning 8 ∧ Heard releasable .planning 8 ∧ (live.part = .tracking ∧ live.work = [] ∧ releasable.part = .setup) ∧
    (∀ c, 256 ≤ releasable.profile.line.pulseWeight.get c ∧ releasable.profile.line.pulseWeight.get c ≤ 16384) ∧
    (releasable.profile.streams.get .s5).active = true ∧ releasable.profile.slitter.dB < releasable.profile.slitter.dA ∧
    (∀ l : Lane, ∀ x ∈ l.streams, (releasable.profile.streams.get x).active = false) ∧
    ((releasable.withLine { pulseWeight := ⟨1024, 255, 1024⟩ }).profile.line.pulseWeight.get .lane1 = 255) ∧
    nth1 zones.profile.entries 2 = some ⟨true, .hotPlate, 20, 20, 0, 700⟩ ∧
    ((releasable.port .planning).classes.length = 12) ∧
    (((releasable.withStream .s1 { active := true }).profile.streams.get .s1).active = true) :=
  ⟨heard_of (by decide), heard_of (by decide), by decide, fun c => by cases c <;> decide, by decide, by decide,
    fun l x h => by
      cases l <;> simp only [Lane.streams, List.mem_cons, List.not_mem_nil, or_false] at h <;>
        rcases h with rfl | rfl <;> decide,
    by decide, by decide, by decide, by decide⟩
theorem witness_ClearLineDiscardsThePlan :
    Heard fresh .planning 9 ∧ Heard cutting7001 .planning 9 ∧ fresh.work = [] ∧ fresh.part = .setup ∧ cutting7001.part = .tracking ∧
    ((s5Example.withSlot .s5 (committed 0)).stream .s5).slot = some (committed 0) ∧ (committed 0).chosen = some .b ∧
    setupExample.tool? .a .slit 1 = some (toolAt 150) ∧ (cutting7001.port .planning).classes.length = 12 :=
  ⟨heard_of (by decide), heard_of (by decide), by decide⟩
theorem witness_PartStateAndProfileChangeByTheirRequests :
    Instr.releaseLine .planning 0 ≠ .resetAssert ∧
    (after (.releaseLine .planning 0) releasable).part ≠ releasable.part ∧
    (after (.loadProfileSection .planning 0 (.slitter (SlitterProfile.raw { dA := 1 }))) fresh).profile ≠ fresh.profile ∧
    exec (.releaseLine .planning 0) releasable = .next (after (.releaseLine .planning 0) releasable) :=
  ⟨by decide, by decide +kernel, by decide +kernel, rfl⟩

/-! The invariants. -/

theorem fresh_lmu : fresh.lmu.wf :=
  ⟨⟨by decide, by decide, by decide, by decide, by decide, by decide, by decide⟩,
    ⟨by decide, by decide, by decide, by decide, by decide, by decide, by decide⟩,
    ⟨by decide, by decide, by decide, by decide, by decide, by decide, by decide⟩, by decide, by decide⟩
theorem fresh_profile : fresh.profile.inRange where
  streams x := by cases x <;> exact ⟨by decide, by decide, by decide, by decide, by decide, by decide, by decide, by decide⟩
  lanes l := by cases l <;> exact ⟨by decide, by decide, by decide, by decide, by decide, by decide⟩
  line := ⟨by decide, by decide, by decide, by decide, by decide, by decide, fun c => by cases c <;> decide, fun c => by cases c <;> decide⟩
  slitter := ⟨by decide, by decide, by decide, by decide⟩
  entries e h := by
    rw [show fresh.profile.entries = List.replicate 12 {} from rfl] at h
    rw [List.eq_of_mem_replicate h]
    exact ⟨by decide, by decide, by decide⟩
  entryCount := by decide
theorem witness_FiguresStayInRange :
    let s := { fresh with pending := [.tenMsUpdate] }
    s.lmu.wf ∧ s.profile.inRange ∧ step s = .next (after .tenMsUpdate fresh) := ⟨fresh_lmu, fresh_profile, rfl⟩
theorem witness_CollectionsStayWithinCapacity :
    let s := { cutting7001 with pending := [.addOrder .planning 0 order7001] }
    s.withinCapacity ∧ step s = .next (after (.addOrder .planning 0 order7001) cutting7001) :=
  ⟨⟨fun l => by cases l <;> decide, by decide, by decide, by decide, by decide⟩, rfl⟩

/-! What the wider statements ask for: a state for every clause with hypotheses, at the boundary values of its ranges. -/

theorem witness_ForwardPulseCounts_saturates :
    let s := fresh.setChannel .main { counter := 2 ^ 40 - 1 }
    let t := after (.forwardPulse .main) s
    (s.resetAsserted = false ∧ s.work = [] ∧ (s.channel .main).saturated = false) ∧
    (t.channel .main).saturated = true ∧ (t.channel .main).counter = 2 ^ 40 - 1 ∧ (t.port .planning).rawOf 9 = true := by
  decide +kernel
theorem witness_LaneSyncSetsTheOffset_new :
    Heard fresh .wet 0x16 ∧ Heard live .wet 0x16 ∧ Lane.ofCode? 1 = some .one ∧ (5 : Int) ≠ (fresh.lane .one).offset ∧
    (5 : Int) ≠ (live.lane .one).offset ∧ fresh.part = .setup ∧ live.part = .tracking :=
  ⟨heard_of (by decide), heard_of (by decide), by decide⟩
/-- Every state of a recogniser that its test distinguishes. -/
theorem witness_SeamInputMovesTheRecogniser_test :
    let r := fun (v : Recogniser) (f : LaneProfile) => ((recogniserAt v f).lane .one).recogniser
    (r { state := .guard, level := true } {}).level = true ∧ (r { state := .guard, i0 := none } {}).i0 = none ∧
    (r { state := .guard, i0 := some 0 } {}).i0 = some 0 ∧ (r { state := .armed } {}).state = .armed ∧
    (r { state := .active, level := true, p0 := some 0 } {}).level = true ∧
    (r { state := .active, p0 := some 0, i0 := some 0 } {}).i0 = some 0 ∧
    (r { state := .trailing, level := true, p0 := some 0 } {}).state = .trailing ∧
    (r { state := .trailing, p0 := some 0, i0 := some 0 } {}).p0 = some 0 := by decide
def lateMark : LaneMark := ⟨.s1, .a, 2463516, false, false, 0⟩
/-- The window end of M1 is 1,045,516: L at it, and one beyond. -/
theorem witness_SeamInputMovesTheRecogniser_window :
    let late := fun (s : State) (m : LaneMark) => s.predicted m - (s.laneProfile .one).dDet + (s.laneProfile .one).wConfirm < s.knife
    let at_ := lane1Example.webAt 1045516 2480000
    let beyond := { lane1Example.webAt 1045517 2480000 with part := .tracking }
    let one := beyond.setLane .one { beyond.lane .one with marks := [lateMark] }
    (∀ m ∈ (at_.lane .one).marks, ¬ late at_ m) ∧ (∃ m ∈ (beyond.lane .one).marks, late beyond m) ∧
    (beyond.port .wet).classes.length = 13 ∧ (one.lane .one).marks = [lateMark] ∧ late one lateMark ∧ one.map.track = [] ∧
    (one.seamExtent (one.predicted lateMark) .s1 false false).1 < (one.seamExtent (one.predicted lateMark) .s1 false false).2 ∧
    Task.recompute ∈ (beyond.windowTest .one).work := by decide +kernel
/-- M1 is predicted at 1,643,516: a seam W_confirm from it, one further away, and one at it, which leaves the offset. -/
theorem witness_SeamInputMovesTheRecogniser_match :
    let s := { lane1Example with part := .tracking }
    let away := fun (q : Pos) (m : LaneMark) => (s.predicted m - q).natAbs
    (∀ m ∈ (s.lane .one).marks, (s.laneProfile .one).wConfirm < away 1641515 m) ∧
    (lateMark ∈ (s.lane .one).marks ∧ away 1641516 lateMark ≤ (s.laneProfile .one).wConfirm ∧
      ∀ n ∈ (s.lane .one).marks, away 1641516 n ≤ (s.laneProfile .one).wConfirm → n = lateMark) ∧
    s.work = [] ∧ s.map.track = [] ∧ (s.port .wet).classes.length = 13 ∧
    lastRecompute (s.matchSeam .one 1641516).work =
      [.windowTest .one, .recompute, .wrongGrade .s1, .commitTest .s1, .fireTest .s1, .wrongGrade .s2, .commitTest .s2, .fireTest .s2] ∧
    lastRecompute (s.matchSeam .one 1643516).work = [.windowTest .one, .recompute] ∧
    (lane1Example.part = .setup ∧ lane1Example.work = []) := by decide +kernel
/-- An arm EMPTY whose latch was open; READY and staying; READY and leaving by its latch, with a FIRED splice; STOPPING, its
reel gone or not. -/
theorem witness_StandReadMovesTheArm_leaves :
    let unlatched : StandLevels := ⟨⟨true, false, false, false⟩, ⟨false, false, false, false⟩, true⟩
    (let s := readingLater { declaration := some ⟨1, 1⟩, present := up, latched := rising };
      (s.arm .s1 .a).latched.level = false ∧ ((after (.standRead (allUp false)) s).arm .s1 .a).state = .loaded) ∧
    (let s := readingLater { state := .ready, declaration := some ⟨1, 1⟩, present := up, latched := up };
      ((after (.standRead (allUp false)) s).arm .s1 .a).latched.level = true) ∧
    (let s := (readingLater { state := .ready, declaration := some ⟨1, 1⟩, present := up, latched := falling }).withSlot .s1
        { (fired 0) with chosen := some .a }
      let t := after (.standRead unlatched) s
      (t.arm .s1 .a).present.level = true ∧ (t.arm .s1 .a).latched.level = false ∧ (t.stream .s1).broken = true) ∧
    (let s := readingLater { state := .stopping, declaration := some ⟨1, 1⟩, startCount := some 0, present := falling, latched := up };
      ((after (.standRead reelGone) s).arm .s1 .a).state = .empty) ∧
    (let s := readingLater { state := .stopping, declaration := some ⟨1, 1⟩, startCount := some 0, present := up, latched := falling };
      ((after (.standRead unlatched) s).arm .s1 .a).state = .stopping) := by decide +kernel
/-- Arm B's drive good, the fire point reached: plain, WRONG_GRADE and ADVANCED; the wrong-grade test one count beyond the
boundary and at it; a done window of 0 passed and not. -/
theorem witness_GoodDriveFiresTheSplice_tests :
    let good := s5Example.setArm .s5 .b { s5Example.arm .s5 .b with driveEnable := true, delay := 400 }
    let at_ := fun (v : Slot) => good.withSlot .s5 v
    let grade : Slot := { state := .planned, kind := .grade, boundaryPos := 15739999, grade := 44, commitPoint := 0, firePoint := 0 }
    (good.driveGood .s5 .b = true ∧ s5Example.driveGood .s5 .b = false ∧ (good.stream .s1).slot = none) ∧
    (((at_ (committed 15700000)).stream .s5).slot = some (committed 15700000) ∧ (committed 15700000).firePoint ≤ good.streamPos .s5 ∧
      ((at_ { committed 0 with wrongGrade := true }).fireTest .s5 |>.stream .s5).fire = true ∧
      ((at_ { committed 0 with advanced := true, boundaryPos := 15800000 }).fireTest .s5).map.track.map Extent.start = [15745000]) ∧
    ((grade.kind = .grade ∧ grade.state = .planned ∧ grade.boundaryPos < good.streamPos .s5 + good.seamOffset .s5) ∧
      ¬ (15740000 : Pos) < good.streamPos .s5 + good.seamOffset .s5) ∧
    ((fired 15699999).fireCount + (good.streamProfile .s5).doneWindow < good.streamCount .s5 ∧
      good.streamCount .s5 ≤ (fired 15700000).fireCount + (good.streamProfile .s5).doneWindow ∧
      (good.port .wet).classes.length = 13) := by decide +kernel
/-- S5 with the grade that runs on its other arm too, which meets the commit requirement. -/
def spare : State := s5Example.setArm .s5 .b { s5Example.arm .s5 .b with declaration := some ⟨12, 1⟩ }
theorem spare_meets : spare.meets .s5 12 .a := ⟨by decide, by decide, by decide, by decide, by decide, by decide⟩
theorem spare_meets_not (r : Arm) : ¬ spare.meets .s5 44 r := by
  intro h
  have := h.grade
  cases r <;> revert this <;> decide
def planned (grade : Nat) (commit : Pos) : Slot :=
  { state := .planned, kind := .grade, boundary := some 7002, grade := grade, commitPoint := commit, firePoint := 0 }
theorem witness_ManualSpliceCommitsAtOnce_commit :
    spare.meets .s5 12 .a ∧ (∀ r, ¬ spare.meets .s5 44 r) ∧
    ((planned 12 15700000).state = .planned ∧ (planned 12 15700000).commitPoint ≤ spare.streamPos .s5 ∧
      ¬ (planned 12 15700001).commitPoint ≤ spare.streamPos .s5) ∧
    ((spare.withSlot .s5 (planned 12 0)).stream .s5).slot = some (planned 12 0) ∧
    (let two := { spare with book := two7001.book, plan := two7001.plan };
      (two.order? 7002).isSome = true ∧ ((two.withSlot .s5 (planned 12 0)).commitTest .s5).book.map OrderRec.pinned = [true, false]) ∧
    (((spare.withSlot .s5 { planned 12 0 with deferred := true }).deferredTest .s5).stream .s5).slot.map Slot.state = some .committed ∧
    ((s5Example.withSlot .s5 (committed 0)).stream .s5).slot = some (committed 0) ∧ (s5Example.arm .s5 .b).state = .ready ∧
    (spare.port .wet).classes.length = 13 ∧ (committed 0).kind ≠ .manual ∧ ({ committed 0 with kind := .manual } : Slot).kind = .manual :=
  ⟨spare_meets, spare_meets_not, by decide +kernel⟩
theorem two7001_distinct : two7001.idsDistinct := ⟨by decide, by decide⟩
/-- A reel with exactly the reserve left, and one count before; a later GRADE splice for the other arm's grade and for
another. -/
theorem witness_ManualSpliceCommitsAtOnce_runout :
    let later := fun (g : Nat) => { planned g 0 with firePoint := 15980001 }
    ((s5Example.stream .s5).running = some .a ∧ (s5Example.arm .s5 .a).declaration = some ⟨12, 6000000⟩ ∧
      (s5Example.arm .s5 .a).startCount = some 10000000 ∧ (fresh.stream .s5).running = none) ∧
    ((6000000 : Int) - (s5Example.streamCount .s5 - 10000000 : Nat) ≤ (s5Example.streamProfile .s5).runoutReserve ∧
      ¬ (6000000 : Int) - ((s5Example.webAt 15699999 0).streamCount .s5 - 10000000 : Nat) ≤ (s5Example.streamProfile .s5).runoutReserve) ∧
    ((s5Example.runoutTest .s5).stream .s5).slot.map Slot.firePoint = some 15980000 ∧
    (((s5Example.withSlot .s5 (later 44)).runoutTest .s5).stream .s5).slot.map Slot.advanced = some true ∧
    (((s5Example.withSlot .s5 (later 12)).runoutTest .s5).stream .s5).slot.map Slot.kind = some .runout := by decide +kernel
/-- The claim that Web Restored closes is the one claim of its extent, with a held end before L's web. -/
theorem witness_WebRestoredRunsTheArm_closes :
    ∃ y ∈ brokenS3.map.track, y.claims = [Claim.webBreak .s3] ∧ y.held = some 1286000 ∧ y.start < max 1286000 1300000 ∧
      brokenS3.knife < max 1286000 1300000 := by decide
/-- A length of 1; fewer bytes than the length; a kind that is in no catalogue; a length that is not the kind's; a full
queue. -/
theorem witness_SelectEndDeliversAndJudges_malformed :
    ((period [1, 5] false).port .wet).select.map SelectPeriod.received = some [1, 5] ∧ (1 : Byte).toNat = 1 ∧
    (2 ≤ (2 : Byte).toNat ∧ [(0x17 : Byte)].length < (2 : Byte).toNat) ∧ 2 ∉ lengthsOf 0x77 [] ∧ 3 ∉ lengthsOf 0x17 [9] ∧
    ((after (.selectEnd .wet) (period [3, 0x17, 23, 9] false)).port .wet).queue = [.reply 0xFE 23 [0x17, 1, 0]] ∧
    ((after (.selectEnd .wet) ((period [2, 0x17] false).setPort .wet { (period [2, 0x17] false).port .wet with
      queue := List.replicate 16 (.reply 0xA0 0 []) })).port .wet).rawOf 12 = true := by decide +kernel
theorem witness_ReadsReplyFromTheStateAlone_tools :
    ∀ st, (fresh.station st).slits.length = 8 ∧ (fresh.station st).scores.length = 10 := fun st => by cases st <;> decide

/-- 7,002 behind 7,001 with its swap from A to B still pending, 7,001 PINNED or not, L where the start lies. -/
def swapping (l : Nat) (pinned : Bool) : State :=
  let two := two7001.webAt l 0
  { two with
    book := [{ record7001 with pinned := pinned }, { record7001 with
      fig := { record7001.fig with id := 7002, layout := ⟨[150, 10150], []⟩ }, phase := .planned, station := some .b
      p := some 1493825, e := some 1987650 }]
    plan := { two.plan with window := [{ id := 7001, cuts := 40 },
      { id := 7002, swap := { kind := .boundary, drop := some { station := .b }, lifts := [{ station := .a }] } }]
                            w0 := 1987650 }
    dry := { two.dry with released := [], cursor := 1493825 } }
def lift7002 : PendingRec := ⟨.lift, .swap, 1493825, 7002, some .a, none, false⟩
def drop7002 : PendingRec := ⟨.drop, .swap, 1493825, 7002, some .b, none, false⟩
/-- The swap when the LIFT has been released. -/
def dropping (l : Nat) (pinned : Bool) : State :=
  let s := swapping l pinned
  s.modifyWindow 7002 fun w => { w with swap := { w.swap with lifts := [{ station := .a, status := .released }] } }
/-- Station B READY with the layout of 7,002. -/
def readyB (s : State) : State := s.setStation .b { s.station .b with state := .ready, layout := some ⟨[150, 10150], []⟩ }
theorem witness_SequenceNumbersRunOn_release :
    let cut := fun (n : Nat) => (⟨.cut, .cuts, cutPosition 1000000 197530 n, 7001, none, some n, false⟩ : PendingRec)
    let last := { swapping 1493825 false with plan := { two7001.plan with window := [{ id := 7001, cuts := 39 }] } }
    firstOf cutting7001.candidates = some (cut 2) ∧ cutting7001.finalOpen (cut 2) = false ∧
    ¬ (cut 2).position ≤ (cutting7001.webAt 1004690 0).knife + cutting7001.profile.line.h ∧
    (cut 2).position ≤ (cutting7001.webAt 1004691 0).knife + cutting7001.profile.line.h ∧
    cutting7001.windowOrder? 7001 = some { id := 7001, cuts := 1 } ∧ cutting7001.order? 7001 = some record7001 ∧
    (firstOf last.candidates = some (cut 40) ∧ last.finalOpen (cut 40) = true) ∧
    (firstOf (swapping 1493825 true).candidates = some lift7002 ∧ (swapping 1493825 true).startOpen 7002 = false ∧
      (swapping 1493825 false).startOpen 7002 = true) ∧
    (firstOf (dropping 1493825 true).candidates = some drop7002 ∧ (dropping 1493825 true).readyFor .b 7002 = false ∧
      (readyB (dropping 1493825 true)).readyFor .b 7002 = true) ∧
    (firstOf live.candidates).map PendingRec.source = some .waste := by decide +kernel
/-- A cut, a DROP and a LIFT whose deadline is passed by one, and a deadline that is met. -/
theorem witness_SequenceNumbersRunOn_declare :
    (∀ x ∈ (cutting7001.webAt 1062346 0).dry.released, (cutting7001.webAt 1062346 0).knife ≤ x.deadline) ∧
    (cutting7001.dry.released = [] ++ cut7001 1 1 1012346 1000000 :: [] ∧
      (cut7001 1 1 1012346 1000000).deadline < (cutting7001.webAt 1062347 0).knife ∧ (cutting7001.port .dry).classes.length = 10) ∧
    (withSwap.dry.released.map fun r => (r.kind, r.station)) = [(.cut, none), (.lift, some .a), (.drop, some .b)] ∧
    (withSwap.dry.released.map ActionRec.deadline).tail = [1063000, 1063000] := by decide
/-- A cut, a LIFT and a DROP that L has passed by one, and none passed. -/
theorem witness_SequenceNumbersRunOn_overrun :
    let passed := fun (s : State) => s.candidates.filter fun p => !p.overrun && decide (p.position < s.knife)
    passed (swapping 1493825 true) = [] ∧ passed live = [] ∧ firstOf (passed (swapping 1493826 true)) = some lift7002 ∧
    firstOf (passed (dropping 1493826 true)) = some drop7002 ∧
    ((firstOf (passed (stalled 3150001 49 550 [] false))).map fun p => (p.kind, p.source, p.sheet)) = some (.cut, .cuts, some 50) ∧
    ((swapping 1493826 true).port .dry).classes.length = 10 := by decide +kernel
/-- A DROP of a READY, a DOWN and an IDLE station; a LIFT of a DOWN one without a demand, and with one. -/
theorem witness_ActionDoneExecutesTheRecord_moves :
    let down := fun (s : State) (st : Station) (d : Option Demand) => s.setStation st { s.station st with state := .down, demand := d }
    ((readyB withSwap).station .b).state = .ready ∧ ((down withSwap .b none).station .b).state = .down ∧
    ((withSwap.station .b).state ≠ .ready ∧ (withSwap.station .b).state ≠ .down) ∧
    ((down withSwap .a none).station .a).demand = none ∧ ((down withSwap .a none).station .a).late = none ∧
    ((down withSwap .a (some ⟨7001, layoutOf layout3⟩)).station .a).demand = some ⟨7001, layoutOf layout3⟩ ∧
    ((after (.actionDone .dry 0 2 1013000) (down withSwap .a (some ⟨7001, layoutOf layout3⟩))).station .a).state = .setting := by
  decide +kernel
/-- A layout that fits, one that does not, a tool that stays and a late swap that is settled at once. -/
theorem witness_ToolsLeaveAndReturnToService_setup :
    let lay := layoutOf layout3
    let t := live.startSetup .a ⟨7003, lay⟩
    let none_ := live.setStation .a { live.station .a with slits := List.replicate 8 { state := .out } }
    (lay.slits.length ≤ inService (live.station .a).slits ∧ lay.scores.length ≤ inService (live.station .a).scores ∧
      ¬ lay.slits.length ≤ inService (none_.station .a).slits) ∧
    ((t.station .a).state = .setting ∧ (t.tool? .a .slit 1).map Tool.state = some .moving ∧
      (t.tool? .a .slit 4).map Tool.state = some .parked) ∧
    (assign (live.station .a).slits lay.slits)[2]? = some (some 20150) ∧ (assign (live.station .a).slits lay.slits)[3]? = some none ∧
    ((setupExample.startSetup .a ⟨7003, lay⟩).tool? .a .slit 1).map Tool.state = some .placed ∧
    (live.port .dry).classes.length = 10 := by decide +kernel
/-- The held layout assigned again: tools 1 and 2 keep, 3 is OUT and 4 newly assigned; a tool placed where its new position is;
one newly without a position; a layout that no longer fits; and a station that owes nothing, SETTING and READY. -/
theorem witness_ToolsLeaveAndReturnToService_reassignment :
    let s := setupExample.retireTool .a .slit 3
    let t := s.reassignHeld .a
    let full := setupExample.setStation .a { setupExample.station .a with layout := some ⟨List.replicate 9 1, []⟩ }
    let moved := setupExample.setStation .a { setupExample.station .a with layout := some ⟨[155], [3150, 6150]⟩ }
    let ready := moved.setStation .a { moved.station .a with state := .ready }
    (live.station .a).layout = none ∧ (s.station .a).layout = some (layoutOf layout3) ∧
    ((s.tool? .a .slit 1 = some (toolAt 150) ∧ (s.tool? .a .slit 3).map Tool.state = some .out ∧
      (assign (s.station .a).slits (layoutOf layout3).slits)[3]? = some (some 20150) ∧
      (t.tool? .a .slit 4).map Tool.state = some .moving ∧ (t.station .a).state = .setting)) ∧
    ¬ 9 ≤ inService (full.station .a).slits ∧ ((full.reassignHeld .a).station .a).state = .failed ∧
    ((assign (moved.station .a).slits [155])[0]? = some (some 155) ∧ (assign (moved.station .a).slits [155])[1]? = some none ∧
      ((moved.reassignHeld .a).tool? .a .slit 1).map Tool.target = some (some 155)) ∧
    (((moved.reassignHeld .a).station .a).state = .ready ∧ ((ready.reassignHeld .a).station .a).state = .ready ∧
      ((moved.reassignHeld .a).port .dry).rawOf 5 = true ∧ ((ready.reassignHeld .a).port .dry).rawOf 5 = false) := by decide +kernel
/-- Tool Out on a SETTING station and on a READY one, with a demand and without, of a tool that is assigned and of one that is not. -/
theorem witness_ToolsLeaveAndReturnToService_out :
    let ready := fun d => setupExample.setStation .a { setupExample.station .a with state := .ready, demand := d }
    Heard setupExample .dry 0x25 ∧ ((setupExample.station .a).state = .setting ∧ (ready none).tool? .a .slit 1 = some (toolAt 150) ∧
      (toolAt 150).assigned = true ∧ (setupExample.tool? .a .slit 4).map Tool.assigned = some false ∧
      ((ready none).station .a).demand = none ∧
      ((ready (some ⟨7003, layoutOf layout3⟩)).station .a).demand = some ⟨7003, layoutOf layout3⟩) :=
  ⟨heard_of (by decide), by decide +kernel⟩
/-- A DROP to come for the second order of the window, for none, and a late swap's order. -/
theorem witness_ToolsLeaveAndReturnToService_demand :
    let s := swapping 0 true
    (fresh.part = .setup ∧ s.part = .tracking ∧ (s.station .b).demand = none ∧ (live.setDemand .a) = live) ∧
    (s.lines.map fun l => (l.w.id, l.w.swap.drop.map SwapRec.station)) = [(7001, none), (7002, some .b)] ∧
    ((s.setDemand .b).station .b).demand = some ⟨7002, ⟨[150, 10150], []⟩⟩ ∧ ((s.setDemand .b).station .b).state = .setting := by
  decide +kernel
/-- Each state of a station, with a demand that its layout serves, one that it does not, and none. -/
theorem witness_ToolsLeaveAndReturnToService_change :
    let at_ := fun (x : StationState) => setupExample.setStation .a { setupExample.station .a with state := x }
    let d : Demand := ⟨7004, layoutOf layout3⟩
    (∀ x, ((at_ x).station .a).state = x ∧ ((at_ x).station .a).layout = some d.layout ∧
      ((at_ x).station .a).layout ≠ some ⟨[], []⟩) ∧
    ((at_ .setting).demandChanged .a none).tool? .a .slit 3 = some { state := .unknown, attempts := 1 } ∧
    (((at_ .ready).demandChanged .a (some d)).station .a).order = some 7004 ∧
    (((at_ .setting).demandChanged .a (some d)).station .a).state = .setting :=
  ⟨fun x => by cases x <;> decide, by decide +kernel⟩
theorem swapping_distinct : (swapping 1493826 true).idsDistinct := ⟨by decide, by decide⟩
def lateB (l : Nat) (state : StationState) : State :=
  let s := swapping l true
  s.setStation .b { s.station .b with state := state, layout := some ⟨[150, 10150], []⟩, late := some ⟨7002, some .a, 1493825⟩ }
/-- A late swap taken with its pair unreleased and released, and for a replanned pair; settled at a cut, at no cut, and not
yet; lapsed and not. -/
theorem witness_ToolsLeaveAndReturnToService_late :
    let s := swapping 1493826 true
    ((s.station .b).late = none ∧ (s.windowOrder? 7002).isSome = true ∧ (s.order? 7002).isSome = true ∧
      (s.windowOrder? 7002).map (fun w => w.swap.oldStation) = some (some .a) ∧
      ((dropping 1493826 true).windowOrder? 7002).map (fun w => w.swap.oldStation) = some none ∧
      ((s.modifyWindow 7002 fun w => { w with replan := some ⟨1506171, { station := .b }, some { station := .a }⟩ }).windowOrder?
        7002).bind WindowOrder.replan = some ⟨1506171, { station := .b }, some { station := .a }⟩) ∧
    (((lateB 1493826 .idle).station .b).state ≠ .ready ∧
      (((lateB 1493826 .ready).settleSwap .b).windowOrder? 7002).bind (fun w => w.replan.map Replan.x) = some 1506171 ∧
      (((lateB 1987651 .ready).settleSwap .b).windowOrder? 7002).map WindowOrder.lapsed = some true) ∧
    (((lateB 1987650 .ready).lapseTest .b).station .b).late = some ⟨7002, some .a, 1493825⟩ ∧
    (((lateB 1987651 .ready).lapseTest .b).station .b).late = none := by decide +kernel
/-- Neighbours exactly the least spacing apart pass, and one position less fails; a sheet of exactly H passes. -/
theorem witness_OrderFiguresAreInRange_format :
    let p : Profile := { lineUp.profile with slitter := { minSlitSpacing := 10000, minScoreSpacing := 3000 } }
    p.formatPasses (figuresOf order7001) = true ∧
    ({ p with slitter := { minSlitSpacing := 10001 } } : Profile).formatPasses (figuresOf order7001) = false ∧
    ({ p with line := { h := 12346 } } : Profile).formatPasses (figuresOf order7001) = true ∧
    ({ p with line := { h := 12345 } } : Profile).formatPasses (figuresOf order7001) = false := by decide +kernel
/-- A PLANNED order with its end OPEN: amended, and refused where its new layout fits no station. -/
theorem witness_AmendOrderWritesCarriedFigures_planned :
    let s := planned7001 false
    let tight := { s with profile := { s.profile with slitter := { minSlitSpacing := 10001 } } }
    Heard s .planning 2 ∧ s.work = [] ∧ s.order? 7001 = some { record7001 with phase := .planned } ∧ ¬ (amend 41).t < record7001.fig.t ∧
    (∀ l ∈ s.lines, l.w.setupOn = none ∧ (s.station (s.stationFor l (layoutOf layout3))).canPlace (layoutOf layout3) = true) ∧
    s.profile.spacingPasses (layoutOf layout3) = true ∧
    ((after (.amendOrder .planning 0 (amend 41)) tight).port .planning).queue = [.reply 0xFE 0 [2, 1, 0]] :=
  ⟨heard_of (by decide), by decide +kernel⟩
theorem witness_ProvisionalExtensionStaysWithinTheAllowance_pin :
    two7001.idsDistinct ∧
    (∃ l ∈ two7001.lines, l.w.id = 7002 ∧ l.r.pinned = false ∧ (two7001.windowOrder? 7002).isSome = true) ∧
    (∃ k, lineBefore 7002 none two7001.lines = some k ∧ k.r.e = some 1493825) ∧ (two7001.port .planning).classes.length = 12 ∧
    two7001.plan.window = [{ id := 7001, cuts := 1 }] ++ { id := 7002 } :: [] :=
  ⟨two7001_distinct, by decide, ⟨⟨{ id := 7001, cuts := 1 }, record7001⟩, by decide, by decide⟩, by decide, by decide⟩
/-- A boundary from grade 12 to grade 44 on S5, and the entry whose trigger is at B - 30,000. -/
def changing (l : Nat) : State :=
  let s := (swapping l false).withStream .s5 { active := true, splicerDistance := 40000, commitLead := 30000 }
  { s with
    book := s.book.map fun r => if r.fig.id = 7002 then { r with fig := { r.fig with grades := { r.fig.grades with s5 := 44 } } } else r
    profile := { s.profile with entries := ⟨true, .preheater, 10000, 20000, 10000, 0⟩ :: List.replicate 11 {} } }
theorem witness_ProvisionalExtensionStaysWithinTheAllowance_triggers :
    (changing 1463824).dueTriggers = [] ∧ (changing 1463825).dueTriggers = [(1463825, 1, 7002)] ∧
    (changing 1463825).plan.pendingChange.length = 12 ∧
    ((changing 1463825).windowOrder? 7002).map (fun w => w.triggerFired.length) = some 12 ∧
    ((changing 1463825).port .wet).classes.length = 13 ∧ nth1 (changing 1463825).fireTrigger.plan.pendingChange 1 = some (some 7002) := by
  decide +kernel
/-- A term beyond W0, one that W0 has reached, and no grade change. -/
theorem witness_ProvisionalExtensionStaysWithinTheAllowance_gap :
    let s := changing 1463825
    let prev : PrevFigures := ⟨(figuresOf order7001).grades, layoutOf layout3, .a, false⟩
    let r : OrderRec := { record7001 with fig := { record7001.fig with grades := ⟨12, 12, 0, 0, 44⟩ } }
    s.requiredStart prev record7001 = none ∧ s.requiredStart prev r = some 1533825 ∧
    s.minStart (s.requiredStart prev r) ≤ s.plan.w0 ∧
    (let t := { s with plan := { s.plan with w0 := 1533824 } };
      t.plan.w0 < t.minStart (t.requiredStart prev r) ∧ (0 : Int) < t.profile.line.wg ∧
      ({ t with plan := { t.plan with window := [] } }).plan.window = []) := by decide +kernel
/-- A target for S5 at the start of 7,002, in the slot of a stream. -/
def aimed (x : Stream) (v : Slot) : State := (changing 0).withSlot x { v with boundary := some 7002 }
def target : Slot := { state := .planned, kind := .grade, grade := 44, commitPoint := 0, firePoint := 0 }
theorem aimed_boundaries : ((aimed .s5 target).boundaries.map fun b => (b.1.w.id, b.1.r.p, b.1.r.fig.grades.s5, b.2.grades.s5)) =
    [(7002, some 1493825, 44, 12)] := by decide +kernel
/-- Figures set anew, with B in the window and departed, re-aimed and not; a FAULT and a run-out slot; a target whose grades differ,
do not, and no longer have a boundary. -/
theorem witness_DonePulseCompletesTheSplice_targets :
    (((aimed .s5 target).stream .s5).slot = some { target with boundary := some 7002 } ∧
      ((aimed .s5 target).windowOrder? 7002).isSome = true ∧ ((aimed .s5 target).order? 7002).bind OrderRec.p = some 1493825 ∧
      target.departed = false ∧ target.reaimed = false ∧ target.state ≠ .fault ∧ ({ target with departed := true } : Slot).departed = true ∧
      ({ target with reaimed := true } : Slot).reaimed = true) ∧
    ((fired 0).kind ≠ .grade ∧ ({ target with state := .fault } : Slot).state = .fault ∧ (fresh.stream .s5).slot = none) ∧
    ((aimed .s5 target).withdrawTarget .s5 = aimed .s5 target ∧ (((aimed .s1 target).withdrawTarget .s1).stream .s1).slot = none ∧
      ((changing 0).streamProfile .s5).active = true) ∧
    (∀ b ∈ (aimed .s5 target).boundaries, ({ target with boundary := some 9 } : Slot).boundary ≠ some b.1.w.id) ∧
    ((aimed .s1 target).book.map fun r => r.fig.id).Nodup ∧ ((aimed .s1 target).plan.window.map fun w => w.id).Nodup := by
  decide +kernel
/-- A waiting target handed in, one served by the grade that runs, and the states that take none. -/
theorem witness_DonePulseCompletesTheSplice_offer :
    let s := changing 0
    let run := s.setStream .s5 { s.stream .s5 with runningGrade := 44 }
    (s.part = .tracking ∧ (s.stream .s5).slot = none ∧ (s.stream .s5).broken = false ∧ fresh.part = .setup ∧
      (aimed .s5 target).part = .tracking) ∧
    (∃ b, s.boundaries = [] ++ b :: [] ∧ b.2.grades.s5 ≠ b.1.r.fig.grades.s5 ∧ b.1.w.targetSpent.s5 = false ∧
      b.1.r.fig.grades.s5 ≠ (s.stream .s5).runningGrade) ∧
    ((s.offerTargets .s5).stream .s5).slot.map (fun v => (v.boundary, v.firePoint, v.grade)) = some (some 7002, 1493825 - s.seamOffset .s5, 44) ∧
    (∀ b ∈ run.boundaries, b.1.r.fig.grades.s5 = (run.stream .s5).runningGrade) ∧
    ((run.offerTargets .s5).windowOrder? 7002).map (fun w => w.targetSpent.s5) = some true :=
  ⟨by decide, ⟨⟨⟨{ id := 7002, swap := { kind := .boundary, drop := some { station := .b }, lifts := [{ station := .a }] } },
      { record7001 with
        fig := { record7001.fig with id := 7002, layout := ⟨[150, 10150], []⟩, grades := { record7001.fig.grades with s5 := 44 } }
        phase := .planned, station := some .b, p := some 1493825, e := some 1987650 }⟩,
      ⟨record7001.fig.grades, record7001.fig.layout, .a, false⟩⟩, by decide +kernel⟩,
    by decide +kernel, by decide +kernel, by decide +kernel⟩
/-- An order that enters behind another, and one placed without a predecessor. -/
theorem witness_ProvisionalExtensionStaysWithinTheAllowance_place :
    let s := (planned7001 false).withRecord { fig := { figuresOf order7001 with id := 7002 } }
    let s := { s with profile := { s.profile with streams := lineUp.profile.streams } }
    let first := { queued7001 with part := .tracking }
    (s.entryPrev.isSome = true ∧ s.windowOrder? 7002 = none ∧ s.profile.formatPasses { figuresOf order7001 with id := 7002 } = true ∧
      (s.fillOne.order? 7002).bind OrderRec.p = some 1493825) ∧
    (first.entryPrev = none ∧ 0 < first.profile.line.wg ∧ (first.fillOne.order? 7001).bind OrderRec.p = some 0) := by decide +kernel
theorem witness_ProvisionalExtensionStaysWithinTheAllowance_filling :
    let s := { queued7001 with part := .tracking }
    let worn := s.setStation .a { s.station .a with slits := List.replicate 8 { state := .out } }
    let full := { s with plan := { s.plan with window := (List.range 6).map fun k => { id := k + 1 } } }
    6 ≤ full.plan.window.length ∧ (∀ r ∈ cutting7001.book, r.phase ≠ .queued) ∧
    (s.book = [] ++ { fig := figuresOf order7001 } :: [] ∧ s.windowOrder? 7001 = none ∧ s.plan.window.length < 6 ∧ s.entryPrev = none) ∧
    (s.profile.formatPasses (figuresOf order7001) = true ∧ live.profile.formatPasses (figuresOf order7001) = false) ∧
    ((worn.station .a).canPlace (layoutOf layout3) = false ∧ (s.station .a).canPlace (layoutOf layout3) = true) ∧
    (s.port .planning).classes.length = 12 ∧ (s.fillOne.plan.window.map fun w => w.id) = [7001] := by decide +kernel
/-- A swap released and not, the same layout and another, a lapsed order in front; the records at the start. -/
theorem witness_ProvisionalExtensionStaysWithinTheAllowance_swaps :
    let prev : PrevFigures := ⟨(figuresOf order7001).grades, layoutOf layout3, .a, false⟩
    let l : Line := ⟨{ id := 7001 }, record7001⟩
    let out : Line := ⟨{ id := 7001, swap := { kind := .boundary, drop := some { station := .b, status := .released } } }, record7001⟩
    l.w.swapReleased = false ∧ out.w.swapReleased = true ∧ prev.layout = l.r.fig.layout ∧
    ({ prev with layout := ⟨[], []⟩ } : PrevFigures).layout ≠ l.r.fig.layout ∧ ({ prev with lapsed := true } : PrevFigures).lapsed = true ∧
    l.w.swap = {} ∧ l.w.replan = none ∧
    ∃ k ∈ (swapping 0 true).lines, k.w.replan = none ∧ drop7002 ∈ (swapping 0 true).moveRecs k := by decide +kernel
/-- The bytes of a Release Line received in a select period change the part state at its end. -/
theorem witness_PartStateAndProfileChange_selectEnd :
    let s := releasable.setPort .planning { releasable.port .planning with
      select := some { chosen := none, bytes := [], shifted := 3, received := [2, 0x08, 7], ignored := false } }
    Instr.selectEnd .planning ≠ .resetAssert ∧ (after (.selectEnd .planning) s).part ≠ s.part ∧
    s.carries (.selectEnd .planning) (.releaseLine .planning 7) :=
  ⟨by decide, by decide +kernel, .inr ⟨.planning, ⟨none, [], 3, [2, 0x08, 7], false⟩, 0x08, 7, rfl, rfl, rfl, by decide +kernel⟩⟩

/-- A tick at which a zone falls due, the stand interrupt has stood for 20 samples, a drive's delay ends and the link is free. -/
def dueTick : State :=
  let s := s5Example.setStream .s5 { s5Example.stream .s5 with readPending := true, doneSample := .once }
  let s := s.setArm .s5 .b { s.arm .s5 .b with driveEnable := true, delay := 399 }
  { s.setLink { s.splice.link with samples := 19 } with
    lmu := { s.lmu with stopped := true, stopDuration := 299 }, profile := { s.profile with entries := zones.profile.entries }
    pins := { s.pins with interrupt := true, done := { s.pins.done with s5 := true } } }
theorem witness_EmptyQueueTakesOneTick_due :
    dueTick.pending = [] ∧ dueTick.resetAsserted = false ∧
    ∀ i, i ∈ [Instr.takeStopZone 1, .standInterruptChange true, .driveGoodDelay .s5 .b, .standTransactionStart, .donePulse .s5] →
      i ∈ dueTick.tick.pending := by decide +kernel
/-- Two entries of tolerance 0, one with a zone and one without; the zone is taken at the entry. -/
theorem witness_EntryIntoAStopBeginsAStop_zones :
    let s := { fresh with profile := { fresh.profile with
      entries := [⟨true, .preheater, 10, 20, 0, 0⟩, ⟨true, .glueUnit, 20, 20, 0, 0⟩] ++ List.replicate 10 {} } }
    s.lmu.stopped = false ∧ (s.channel .main).speed = 0 ∧ (s.port .wet).classes.length = 13 ∧
    nth1 s.profile.entries 1 = some ⟨true, .preheater, 10, 20, 0, 0⟩ ∧
    (after .entryIntoAStop s).map.zoneTaken = true :: true :: List.replicate 10 false ∧
    (after .entryIntoAStop s).map.track = [.closed 10 20 .stop] ∧
    (∀ e ∈ fresh.profile.entries, e.enable = true → e.stopTolerance = 0 → e.dFar ≤ e.dNear) := by decide +kernel
/-- A track of 48 extents with gaps of 10, but for two of 5. -/
def crowded : State :=
  { live with map := { live.map with
    track := (List.range 48).map fun k => .closed (20 * k) (20 * k + (if k == 30 ∨ k == 40 then 15 else 10)) .stop } }
/-- An extent without web; one that touches a neighbour; one that leaves 49, of which the nearest of the closest pairs is merged. -/
theorem witness_InsertionHoldsTheUnion_merge :
    (∃ e, (Extent.closed 5 5 .stop).finish = some e ∧ e ≤ (Extent.closed 5 5 .stop).start) ∧
    (mergeInto trackExample.map.track (.closed 1204000 1205000 .stop)).length = 3 ∧
    (let t := crowded.insertExtent (.closed 2000 2010 .quality);
      48 < (mergeInto crowded.map.track (.closed 2000 2010 .quality)).length ∧ (crowded.port .planning).classes.length = 12 ∧
      t.map.track.length = 48 ∧ t.map.track[30]? = some (.closed 600 630 .stop)) := by decide +kernel
/-- The web of a FIRED splice marked at a break, and the claim of a wrong grade closed there. -/
theorem witness_WebBreakStopsTheStream_web :
    let s := s5Example.withSlot .s5 (fired 15600000)
    let torn := s.streamPos .s5 + s.seamOffset .s5
    let wrong : Slot := { state := .planned, kind := .grade, grade := 44, commitPoint := 0, firePoint := 0, wrongGrade := true }
    let claimed := s5Example.withSlot .s5 wrong
    let claimed := { claimed with map := { claimed.map with
      track := [⟨15700000, none, some 15700000, [.wrongGrade], [.wrongGrade .s5], none⟩] } }
    Heard s .wet 0x13 ∧ Heard claimed .wet 0x13 ∧
    (s.map.track = [] ∧ ((s.stream .s5).slot = some (fired 15600000)) ∧ (fired 15600000).state = .fired ∧
      (fired 15600000).chosen = some .b ∧ torn = 15740000 ∧
      (after (.webBreak .wet 0 5) s).map.track = [⟨15637000, some 15645000, none, [.seam], [], some ⟨.s5, .b, .unconfirmed, false, false⟩⟩,
        ⟨15740000, none, some 15740000, [.webBreak], [.webBreak .s5], none⟩]) ∧
    ((claimed.stream .s5).slot = some wrong ∧ claimed.knife < max 15700000 torn ∧
      (after (.webBreak .wet 0 5) claimed).map.track =
        [⟨15700000, none, some 15740000, [.webBreak, .wrongGrade], [.webBreak .s5], none⟩]) :=
  ⟨heard_of (by decide), heard_of (by decide), by decide +kernel, by decide +kernel⟩
/-- Each drive-good mode, and a delay that has just been reached. -/
theorem witness_GoodDriveFiresTheSplice_modes :
    let s := fun (m : DriveMode) (delay : Nat) =>
      ((live.withStream .s5 { active := true, driveMode := m }).setArm .s5 .a { driveEnable := true, delay := delay, driveGood := { level := true } })
    (∀ m d, ((s m d).streamProfile .s5).driveMode = m) ∧ (s .input 0).driveGood .s5 .a = true ∧
    ((s .delay100 99).driveGood .s5 .a = false ∧ (s .delay100 100).driveGood .s5 .a = true) ∧
    ((s .delay800 799).driveGood .s5 .a = false ∧ (s .delay800 800).driveGood .s5 .a = true) :=
  ⟨fun _ _ => rfl, by decide +kernel⟩
/-- A target in its slot, FIRED and in FAULT, and one that waits; a swap with one LIFT; a double-slit span; an OPEN extent and one
with a seam part; records of 8 and of 42 bytes behind their count. -/
theorem witness_ReadsReplyFromTheStateAlone_records :
    let prev : PrevFigures := ⟨(figuresOf order7001).grades, layoutOf layout3, .a, false⟩
    let lines := fun (s : State) => s.lines.filter fun l => l.w.id == 7002
    let given := fun (s : State) => (lines s).map fun l => (s.targetBytes prev l .s5).map fun b => b.drop 19
    (given (aimed .s5 target) = [some [1]] ∧ given (aimed .s5 { target with state := .fault }) = [none] ∧
      given (changing 0) = [some [0]] ∧ given (swapping 0 false) = [none]) ∧
    ((lines (swapping 0 false)).map fun l => (l.w.swap.lifts.filter fun r => r.status != .withdrawn).length) = [1] ∧
    (trackExample.map.track.map fun x => (x.finish.isSome, x.seam.isSome)) = [(true, true), (true, false), (true, false)] ∧
    ((swapping 0 false).lines.map fun l => l.w.swap.kind) = [.none, .boundary] := by decide +kernel
/-- R209: an extent from 1,127,000 = 113258h to 1,135,000 = 115198h, without a held end, with the cause of bit 0. -/
theorem test_extentBytes :
    (trackExample.map.track.head?.map fun x => (extentBytes x).take 20) =
      some [0x58, 0x32, 0x11, 0, 0, 0, 0x98, 0x51, 0x11, 0, 0, 0, 255, 255, 255, 255, 255, 255, 1, 0] := by decide +kernel
/-- A LIFT, a DROP, a cut and a waste cut that stand in the plan; the waste cuts of a gap, one of two still to come. -/
theorem witness_SequenceNumbersRunOn_plan :
    let s := swapping 0 true
    let gap : State := { s with
      book := s.book.map fun r => if r.fig.id = 7002 then { r with gap := some 40000, wasteBefore := 2 } else r
      plan := { s.plan with window := s.plan.window.map fun w => if w.id = 7002 then { w with gapCuts := 1 } else w } }
    (fresh.part = .setup ∧ s.part = .tracking ∧ lift7002 ∈ s.candidates ∧ drop7002 ∈ s.candidates) ∧
    (gap.candidates.filter fun p => p.source == .gap) = [⟨.cut, .gap, 1493825, 7002, none, none, false⟩] ∧
    (s.candidates.filter fun p => p.source == .cuts) = [⟨.cut, .cuts, 1493825 + 12346, 7002, none, some 1, false⟩] ∧
    (s.candidates.filter fun p => p.source == .waste) = [⟨.cut, .waste, 1987650 + 20000, 0, none, none, false⟩] := by decide +kernel
/-- An extent that ends at L, one that ends beyond it, and one that a released record holds. -/
theorem witness_ActionDoneExecutesTheRecord_expiry :
    let s := trackExample.webAt 1135000 0
    let held := { s with dry := { s.dry with released := [cut7001 1 1 1135000 1127000] } }
    (s.expireExtents.map.track.map fun x => x.start) = [1200000, 1250000] ∧ held.expireExtents = held ∧
    (trackExample.webAt 1134999 0).expireExtents = trackExample.webAt 1134999 0 ∧
    ({ s with part := .tracking } : State).expireExtents.work = [.recompute] := by decide +kernel
/-- A lapse, and a settlement without a cut, with no act due before: the recomputation comes first. -/
theorem witness_ToolsLeaveAndReturnToService_lapse :
    (lateB 1987651 .ready).part = .tracking ∧ (lateB 1987651 .ready).work = [] ∧
    lastRecompute ((lateB 1987651 .ready).lapseTest .b).work = [.recompute] ∧
    lastRecompute ((lateB 1987651 .ready).settleSwap .b).work = [.recompute] := by decide +kernel
/-- 7,003 behind 7,002, whose target stands in the slot of S5. -/
def three7001 : State :=
  let s := aimed .s5 target
  { s with
    book := s.book ++ [{ record7001 with fig := { record7001.fig with id := 7003 }, phase := .planned, station := some .a, p := some 2007650, gap := some 20000 }]
    plan := { s.plan with window := s.plan.window ++ [{ id := 7003 }] } }
/-- The second of three orders cancelled, and the last of two; a target of a dissolved boundary, and a slot of another kind. -/
theorem witness_OrdersAreCancelledAndDiscarded_replans :
    three7001.idsDistinct ∧ (three7001.lines.map fun l => l.w.id) = [7001, 7002, 7003] ∧ (two7001.lines.map fun l => l.w.id) = [7001, 7002] ∧
    ((three7001.cancelUnpinned 7002).order? 7003).bind OrderRec.p = some 1493825 ∧ three7001.part = .tracking ∧
    (((three7001.stream .s5).slot.map fun v => (v.state, v.kind, v.departed, v.boundary)) = some (.planned, .grade, false, some 7002)) ∧
    ((three7001.cancelUnpinned 7002).stream .s5).slot = none ∧ (fired 0).state ≠ .planned ∧
    (∃ st, three7001.lines.head?.bind (fun l => l.r.station) = some st ∧ (three7001.lines.head?.map fun l => l.w.lapsed) = some false) ∧
    (two7001.cancelUnpinned 7002).plan.w0 = 1493825 :=
  ⟨⟨by decide +kernel, by decide +kernel⟩, by decide +kernel⟩
/-- The fire point of a target in the slot and of one that waits, and none. -/
theorem witness_ProvisionalExtensionStaysWithinTheAllowance_free :
    (changing 0).freeCount .s5 = 1493825 - (changing 0).seamOffset .s5 + ((changing 0).streamProfile .s5).doneWindow ∧
    (aimed .s5 { target with firePoint := 900 }).freeCount .s5 = 900 ∧ (swapping 700 false).freeCount .s5 = 700 ∧
    live.plan.window = [] ∧ (swapping 0 false).plan.window ≠ [] := by decide +kernel
/-- L at the start of an order and one short of it. -/
theorem witness_CutPositionsAreRounded_cutting :
    (swapping 1493825 true).idsDistinct ∧ ((swapping 1493825 true).order? 7002).map OrderRec.phase = some .planned ∧
    ((swapping 1493825 true).cutting.order? 7002).map OrderRec.phase = some .cutting ∧
    (swapping 1493824 true).cutting = swapping 1493824 true ∧ ((swapping 0 true).port .planning).classes.length = 12 :=
  ⟨⟨by decide, by decide⟩, by decide +kernel⟩
/-- A swap from B to A at the start of 7,002, 7,001 PINNED or not, D_A - D_B = 35,000. -/
def slitting (pinned : Bool) : State :=
  let s := swapping 0 pinned
  let s := { s with profile := { s.profile with slitter := { dA := 60000, dB := 25000 } } }
  s.modifyWindow 7002 fun w => { w with swap := { kind := .boundary, drop := some { station := .a }, lifts := [{ station := .b }] } }
/-- The span planned, inserted at the pin, and inserted at a recomputation; a swap that has none. -/
theorem witness_CutPositionsAreRounded_spans :
    (slitting false).idsDistinct ∧ ((slitting false).lines.map fun l => ((slitting false).plannedSpan l, l.r.pinned)) =
      [(none, false), (some (1493825, 1528825), false)] ∧
    ((slitting false).pinOne 7001 false).map.track = [.closed 1493825 1528825 .doubleSlit] ∧
    (slitting true).startPinned 7002 = true ∧ (slitting true).insertPinnedSpans.map.track = [.closed 1493825 1528825 .doubleSlit] ∧
    (slitting false).insertPinnedSpans = slitting false ∧ (swapping 0 true).insertPinnedSpans = swapping 0 true :=
  ⟨⟨by decide, by decide⟩, by decide +kernel⟩

/-! The acts that are made due, and the stream section of a load. -/

/-- A list without and with recomputations, and an act of each kind that the rules of the acts in turn name. -/
theorem witness_ForwardPulseCounts_acts :
    Task.recompute ∉ [Task.runout .s1] ∧
    lastRecompute ([.recompute, .expiry] ++ .recompute :: [.runout .s1]) = [.expiry, .recompute, .runout .s1] ∧
    Task.runout .s1 ≠ .recompute ∧ Task.recompute ∈ [Task.windowTest .one, .recompute] ∧
    mergeWork (.runout .s1) [.windowTest .one, .recompute] [.recompute, .expiry] = [.windowTest .one, .recompute, .expiry] ∧
    fresh.part = .setup ∧ live.part = .tracking ∧ live.work = [] ∧
    ({ live with work := [.expiry, .declare] } : State).work = .expiry :: [.declare] := by decide
/-- A lane track of seven marks, one that is full, a stream without a lane, and a done in SETUP. -/
theorem witness_DonePulseCompletesTheSplice_acts :
    let full := fun (n : Nat) => ({ lane1Example with part := .tracking }.setMarks .one
      ((List.range n).map fun i => ⟨.s1, .a, 2463516 + i, false, false, i⟩)).withSlot .s1 (fired 2463516)
    let s5 := s5Example.withSlot .s5 (fired 15600000)
    let tail := [Task.slotFree .s1, .deferred .s1, .runout .s1]
    (Stream.s1.lane = some .one ∧ Stream.s5.lane = none ∧ fresh.part = .setup ∧ ((full 7).lane .one).marks.length < 8) ∧
    ((full 7).donePulse .s1).work = [.windowTest .one, .recompute] ++ tail ∧
    ((full 8).donePulse .s1).work = [.recompute, .windowTest .one, .recompute] ++ tail ∧
    s5.part = .tracking ∧ (s5.donePulse .s5).work = [.recompute, .slotFree .s5, .deferred .s5, .runout .s5] := by decide +kernel
/-- A break in TRACKING and in SETUP, a restored web with its claim held, and a recovery with the arm RUNNING or not. -/
theorem witness_WebBreakStopsTheStream_acts :
    (s5Example.breakWeb .s5 none).work = [.recompute, .slotFree .s5] ∧ (fresh.breakWeb .s5 none).work = [.slotFree .s5] ∧
    (∃ y ∈ brokenS3.map.track, Claim.webBreak .s3 ∈ y.claims) ∧
    (({ brokenS3 with part := .tracking } : State).restoreWeb .s3 .a 0).work =
      [.recompute, .slotFree .s3, .deferred .s3, .runout .s3] ∧
    (s5Example.recoverStream .s5 .a).work = [.slotFree .s5] ∧
    (s5Example.recoverStream .s5 .b).work = [.slotFree .s5, .deferred .s5, .runout .s5] := by decide +kernel
/-- S5 made active with the scan at no stream, and made inactive with the scan and a transaction at it; the other stream, S2,
takes the scan. -/
theorem witness_LoadTakesASectionWhole_stream :
    let at' := fun (x : Option Stream) (b : Option Transaction) =>
      ((fresh.withStream .s2 { fresh.streamProfile .s2 with active := true }).setLink
        { interrupt := true, scan := x, busy := b }).setStream .s5 { writePending := true, linkFault := true }
    let on := (at' none none).loadStream .s5 { active := true }
    let off := (at' (some .s5) (some ⟨.s5, false, 0, {}⟩)).loadStream .s5 {}
    on.splice.link = { interrupt := true, scan := some .s5 } ∧
    on.stream .s5 = { writePending := true, linkFault := true, readPending := true } ∧
    off.splice.link = { interrupt := true, scan := some .s2 } ∧ off.stream .s5 = { linkFault := true } ∧
    off.stream .s2 = { fresh.stream .s2 with readPending := true } := by decide +kernel

/-! Behaviour that is easily lost. -/

/-- R58, R168 (log 69): an order at the head cancelled after start, with no cut left to deal with, leaves at the cancel. -/
theorem test_cancel_closes :
    Task.close 7001 ∈ ((last7001 .cutting 2).cancelAfterStart 7001).work := by decide +kernel
/-- R26, R35, R108 (log 8): of the recomputations one command makes due the last serves for all, ahead of the acts of a FREE slot. -/
theorem test_settled_recomputes_once :
    lastRecompute [.recompute, .recompute, .slotFree .s3] = [.recompute, .slotFree .s3] := by decide

/-- R97, R209: without a start count the length consumed is given as 0. -/
theorem test_armBytes_consumed :
    ((live.setArm .s1 .a { state := .loaded, declaration := some ⟨7, 900⟩ }).armBytes .s1 .a).drop 6 =
      List.replicate 6 0xFF ++ List.replicate 7 0 := by decide +kernel
/-- R31, R26: a mark whose seam covers no web leaves its lane and is handed to the planner all the same. -/
theorem test_windowTest_hands_on :
    let s := { fresh.webAt 100 0 with part := .tracking }
    let s := s.setLane .one { s.lane .one with marks := [⟨.s1, .a, 0, false, false, 0⟩], nextAge := 1 }
    (s.windowTest .one).work = [.recompute] ∧ (s.windowTest .one).map.track = [] := by decide +kernel

/-- R156: after the first CUT of a Release Line the test is made again behind the recomputation and what follows from it, and
ahead of the run-out and deferred-commit tests (R200). -/
theorem test_release_repeats :
    let s := { after (.releaseLine .planning 0) releasable with work := [] }
    let s := s.withLine { h := 40000 }
    s.releaseTest.work = [.recompute, .release] ∧
    (mergeWork .recompute recomputeActs [.release, .runout .s1, .deferred .s1]).drop 10 = [.release, .runout .s1, .deferred .s1] := by
  decide +kernel

end Sys2Proof.Tests
end

section
/-! PROOF. The figures that the length measurement keeps: which commands change the LMU and the profile, and how. -/

namespace Sys2Proof.Machine

variable {s t u : State}

/-! ### What leaves the LMU and the profile alone -/

/-- The LMU and the profile are the same in two states. -/
structure FiguresKept (s t : State) : Prop where
  lmu : t.lmu = s.lmu
  profile : t.profile = s.profile

theorem FiguresKept.refl (s : State) : FiguresKept s s := ⟨rfl, rfl⟩

theorem FiguresKept.trans (h : FiguresKept s t) (k : FiguresKept t u) : FiguresKept s u :=
  ⟨k.lmu.trans h.lmu, k.profile.trans h.profile⟩

/-- The operations that leave `Untouched` what they start from keep the figures: `h.andThen (·.insertExtent x)`. -/
theorem FiguresKept.andThen (h : FiguresKept s t) (k : Untouched t t → Untouched t u) : FiguresKept s u :=
  have k := k (.refl t)
  h.trans ⟨k.lmu, k.profile⟩

theorem FiguresKept.setPort (h : FiguresKept s t) (p : Port) (r : PortRec) : FiguresKept s (t.setPort p r) := ⟨h.lmu, h.profile⟩
theorem FiguresKept.setLink (h : FiguresKept s t) (l : StandLink) : FiguresKept s (t.setLink l) := ⟨h.lmu, h.profile⟩
theorem FiguresKept.setLane (h : FiguresKept s t) (l : Lane) (r : LaneRec) : FiguresKept s (t.setLane l r) := ⟨h.lmu, h.profile⟩
theorem FiguresKept.setStream (h : FiguresKept s t) (x : Stream) (r : StreamRec) : FiguresKept s (t.setStream x r) :=
  ⟨h.lmu, h.profile⟩
theorem FiguresKept.setSlot (h : FiguresKept s t) (x : Stream) (v : Option Slot) : FiguresKept s (t.setSlot x v) :=
  ⟨h.lmu, h.profile⟩
theorem FiguresKept.setArm (h : FiguresKept s t) (x : Stream) (arm : Arm) (r : ArmRec) : FiguresKept s (t.setArm x arm r) :=
  ⟨h.lmu, h.profile⟩
theorem FiguresKept.setStation (h : FiguresKept s t) (x : Station) (r : StationRec) : FiguresKept s (t.setStation x r) :=
  ⟨h.lmu, h.profile⟩
theorem FiguresKept.modifyTool (h : FiguresKept s t) (st : Station) (k : ToolKind) (n : Nat) (f : Tool → Tool) :
    FiguresKept s (t.modifyTool st k n f) := ⟨h.lmu, h.profile⟩
theorem FiguresKept.modifyOrder (h : FiguresKept s t) (id : Nat) (f : OrderRec → OrderRec) :
    FiguresKept s (t.modifyOrder id f) := ⟨h.lmu, h.profile⟩
theorem FiguresKept.modifyWindow (h : FiguresKept s t) (id : Nat) (f : WindowOrder → WindowOrder) :
    FiguresKept s (t.modifyWindow id f) := ⟨h.lmu, h.profile⟩
theorem FiguresKept.push (h : FiguresKept s t) (ts : List Task) : FiguresKept s (t.push ts) := ⟨h.lmu, h.profile⟩
theorem FiguresKept.raise (h : FiguresKept s t) (n : Notice) : FiguresKept s (t.raise n) := ⟨h.lmu, h.profile⟩
theorem FiguresKept.reply (h : FiguresKept s t) (p : Port) (f : Frame) : FiguresKept s (t.reply p f) := ⟨h.lmu, h.profile⟩
theorem FiguresKept.attempt (h : FiguresKept s t) (p : Port) : FiguresKept s (t.attempt p) := ⟨h.lmu, h.profile⟩

theorem FiguresKept.raiseIf (h : FiguresKept s t) (b : Bool) (n : Notice) : FiguresKept s (t.raiseIf b n) :=
  h.andThen (·.raiseIf b n)

theorem FiguresKept.replan (h : FiguresKept s t) : FiguresKept s t.replan := h.andThen (·.replan)

theorem FiguresKept.settled (h : FiguresKept s t) : FiguresKept s t.settled := h.andThen fun _ => settled_untouched t

theorem FiguresKept.foldl {α : Type} (f : State → α → State) (hf : ∀ {u} (a : α), FiguresKept s u → FiguresKept s (f u a))
    (l : List α) (h : FiguresKept s t) : FiguresKept s (l.foldl f t) := by
  induction l generalizing t with
  | nil => exact h
  | cons a as ih => exact ih (hf a h)

/-! ### The reel stands and the stand link (05) -/

theorem FiguresKept.tryLoad (h : FiguresKept s t) (x : Stream) (arm : Arm) : FiguresKept s (t.tryLoad x arm) := by
  unfold State.tryLoad
  dsimp only
  split
  · exact h.setArm _ _ _
  · exact h

theorem FiguresKept.openBreak (h : FiguresKept s t) (x : Stream) : FiguresKept s (t.openBreak x) := by
  unfold State.openBreak
  split
  · exact h.andThen fun k => (k.insertExtent _).setUnsynced _
  · exact h.andThen (·.insertExtent _)

theorem FiguresKept.breakWeb (h : FiguresKept s t) (x : Stream) (left : Option Arm) : FiguresKept s (t.breakWeb x left) := by
  unfold State.breakWeb
  extract_lets closed freed stopArm stopped
  have slotDealtWith : FiguresKept s closed := by
    dsimp only [closed]
    repeat' split
    · exact h.andThen (·.insertFault _ _)
    · exact h.andThen (·.closeClaim _ _)
    · exact h
    · exact h
  have armStopped : ∀ {v} arm, FiguresKept s v → FiguresKept s (stopArm v arm) := by
    intro v arm k
    dsimp only [stopArm]
    repeat' split
    all_goals exact k.setArm _ _ _
  exact ((armStopped .b (armStopped .a (slotDealtWith.setSlot x none))).setStream _ _ |>.openBreak x).push _

theorem FiguresKept.abortSplice (h : FiguresKept s t) (x : Stream) : FiguresKept s (t.abortSplice x) := by
  unfold State.abortSplice
  repeat' split
  · exact h
  · exact (h.setSlot _ _).push _
  · exact h.setSlot _ _

theorem FiguresKept.reelLeaves (h : FiguresKept s t) (x : Stream) (arm : Arm) (b : Bool) :
    FiguresKept s (t.reelLeaves x arm b) := by
  unfold State.reelLeaves
  dsimp only
  repeat' split
  · exact h
  · exact h.setArm _ _ _
  · exact h.breakWeb _ _
  · exact (h.setArm _ _ _).abortSplice _
  · exact h.setArm _ _ _
  · exact h.breakWeb _ _
  · exact h.setArm _ _ _
  · exact h

theorem FiguresKept.armEvents (h : FiguresKept s t) (x : Stream) (arm : Arm) (old : ArmRec) :
    FiguresKept s (t.armEvents x arm old) := by
  unfold State.armEvents
  extract_lets r presentCleared latchedCleared left loaded pressed record ready
  have reelLeft : FiguresKept s left := by
    dsimp only [left]
    split
    · exact h.reelLeaves _ _ _
    · exact h
  have madeReady : FiguresKept s ready := by
    dsimp only [ready]
    split
    · exact ((reelLeft.tryLoad x arm).setArm _ _ _).push _
    · exact reelLeft.tryLoad x arm
  split
  · exact madeReady.push _
  · exact madeReady

theorem FiguresKept.clearFault (h : FiguresKept s t) (x : Stream) : FiguresKept s (t.clearFault x) := by
  unfold State.clearFault
  split
  · exact (h.setStream _ _).push _
  · exact h

theorem FiguresKept.takeRead (h : FiguresKept s t) (x : Stream) (v : StandLevels) : FiguresKept s (t.takeRead x v) :=
  (((h.clearFault x).setStream _ _).armEvents _ _ _).armEvents _ _ _

theorem FiguresKept.setFault (h : FiguresKept s t) (x : Stream) : FiguresKept s (t.setFault x) := (h.setStream _ _).raiseIf _ _

theorem FiguresKept.scanTo (h : FiguresKept s t) (x : Option Stream) : FiguresKept s (t.scanTo x) := by
  cases x with
  | none => exact h.setLink _
  | some y => exact (h.setLink _).setStream _ _

theorem FiguresKept.readMade (h : FiguresKept s t) (x : Stream) : FiguresKept s (t.readMade x) := by
  unfold State.readMade
  dsimp only
  split
  · exact (h.setStream _ _).scanTo _
  · exact h.setStream _ _

theorem FiguresKept.poll (h : FiguresKept s t) : FiguresKept s t.poll :=
  FiguresKept.foldl _ (fun _ k => k.setStream _ _) _ (h.setLink _)

theorem FiguresKept.setInterrupt (h : FiguresKept s t) (b : Bool) : FiguresKept s (t.setInterrupt b) := by
  unfold State.setInterrupt
  dsimp only
  repeat' split
  · exact h
  · exact (h.setLink _).scanTo _
  · exact h.setLink _

theorem FiguresKept.linkStart (h : FiguresKept s t) : FiguresKept s t.linkStart := by
  unfold State.linkStart
  split
  · exact (h.setStream _ _).setLink _
  · exact h

theorem FiguresKept.standRead (h : FiguresKept s t) (v : StandLevels) : FiguresKept s (t.standRead v) := by
  unfold State.standRead
  repeat' split
  · exact h
  · exact ((h.setLink _).readMade _).takeRead _ _
  · exact h

theorem FiguresKept.standWrite (h : FiguresKept s t) : FiguresKept s t.standWrite := by
  unfold State.standWrite
  repeat' split
  · exact ((h.setLink _).setStream _ _).clearFault _
  · exact h
  · exact h

theorem FiguresKept.abandon (h : FiguresKept s t) (v : Transaction) : FiguresKept s (t.abandon v) := by
  unfold State.abandon
  dsimp only
  split
  · exact ((h.setLink _).setStream _ _).setFault _
  · exact ((h.setLink _).readMade _).setFault _

theorem FiguresKept.attemptFailed (h : FiguresKept s t) : FiguresKept s t.attemptFailed := by
  unfold State.attemptFailed
  repeat' split
  · exact h.setLink _
  · exact h.abandon _
  · exact h

theorem FiguresKept.delayReached (h : FiguresKept s t) (x : Stream) (arm : Arm) : FiguresKept s (t.delayReached x arm) := by
  unfold State.delayReached
  dsimp only
  repeat' split
  · exact (h.setStream _ _).push _
  · exact h
  · exact h

theorem FiguresKept.completeSplice (h : FiguresKept s t) (x : Stream) (v : Slot) : FiguresKept s (t.completeSplice x v) := by
  unfold State.completeSplice
  extract_lets arm stopped running grade record freed spent stretch marked
  have oldStopped : FiguresKept s stopped := by
    dsimp only [stopped]
    repeat' split
    · exact h
    · exact h.setArm _ _ _
    · exact h
  have slotFreed : FiguresKept s freed := (oldStopped.setArm _ _ _).setStream _ _
  have targetSpent : FiguresKept s spent := by
    dsimp only [spent]
    cases v.target? with
    | none => exact slotFreed
    | some id => exact slotFreed.modifyWindow _ _
  have seamMarked : FiguresKept s marked := by
    dsimp only [marked]
    split
    · exact targetSpent.andThen (·.enterMark _ _ _ _ _ _)
    · exact targetSpent.andThen (·.insertExtent _)
  exact (seamMarked.raise _).push _

theorem FiguresKept.donePulse (h : FiguresKept s t) (x : Stream) : FiguresKept s (t.donePulse x) := by
  unfold State.donePulse State.doneAct
  repeat' split
  · exact (h.setStream _ _).completeSplice _ _
  · exact (h.setStream _ _).raise _
  · exact (h.setStream _ _).raise _

/-! ### The requests of the wet end (02, 05) -/

theorem FiguresKept.restoreWeb (h : FiguresKept s t) (x : Stream) (arm : Arm) (n : Nat) :
    FiguresKept s (t.restoreWeb x arm n) :=
  (((h.andThen (·.closeClaim _ _) : FiguresKept s (t.closeBreak x)).setArm _ _ _).setStream _ _).push _

theorem FiguresKept.recoverStream (h : FiguresKept s t) (x : Stream) (arm : Arm) : FiguresKept s (t.recoverStream x arm) := by
  unfold State.recoverStream
  extract_lets wasRunning ran other stopped grade record named fault freed offered
  have armRuns : FiguresKept s ran := by
    dsimp only [ran]
    split
    · exact h
    · exact h.setArm _ _ _
  have otherStops : FiguresKept s stopped := by
    dsimp only [stopped]
    repeat' split
    · exact armRuns.setArm _ _ _
    · exact armRuns.setArm _ _ _
    · exact armRuns
  have faultFreed : FiguresKept s freed := by
    dsimp only [freed]
    split
    · exact (otherStops.setStream _ _).setSlot _ _
    · exact otherStops.setStream _ _
  have slotOffered : FiguresKept s offered := by
    dsimp only [offered]
    split
    · exact faultFreed.push _
    · exact faultFreed
  split
  · exact slotOffered
  · exact slotOffered.push _

/-! ### The requests of the planning port (03, 04, 09) -/

theorem FiguresKept.dropTargets (h : FiguresKept s t) (ids : List Nat) (x : Stream) : FiguresKept s (t.dropTargets ids x) := by
  unfold State.dropTargets
  repeat' split
  · exact (h.setSlot _ _).push _
  · exact h
  · exact h

theorem FiguresKept.cancelQueued (h : FiguresKept s t) (id : Nat) : FiguresKept s (t.cancelQueued id) :=
  ((h.modifyOrder _ _).raiseIf _ _).replan

theorem FiguresKept.cancelAfterStart (h : FiguresKept s t) (id : Nat) : FiguresKept s (t.cancelAfterStart id) :=
  ((h.modifyOrder _ _).andThen (·.pinEnd _ _)).replan.push _

theorem FiguresKept.cancelUnpinned (h : FiguresKept s t) (id : Nat) : FiguresKept s (t.cancelUnpinned id) := by
  unfold State.cancelUnpinned
  extract_lets line after ids dissolved plan left cancelled
  clear_value line after
  have boundaryDissolved : FiguresKept s dissolved := by
    dsimp only [dissolved]
    split
    · exact (h.modifyOrder _ _).modifyWindow _ _
    · exact h
  have orderLeft : FiguresKept s left := ⟨boundaryDissolved.lmu, boundaryDissolved.profile⟩
  have replanned : FiguresKept s cancelled.setSwaps.shiftPlan := (orderLeft.modifyOrder _ _).andThen fun k => k.setSwaps.shiftPlan
  exact (FiguresKept.foldl _ (fun _ k => k.dropTargets _ _) _ replanned).replan

theorem FiguresKept.releaseLine (h : FiguresKept s t) : FiguresKept s t.releaseLine := ⟨h.lmu, h.profile⟩

theorem FiguresKept.clearSlot (h : FiguresKept s t) (x : Stream) : FiguresKept s (t.clearSlot x) := by
  unfold State.clearSlot
  dsimp only
  split
  · exact (h.setArm _ _ _).setSlot _ _
  · exact h.setSlot _ _

theorem FiguresKept.clearDry (h : FiguresKept s t) : FiguresKept s t.clearDry := h.andThen fun k => (k.withDry _).expireExtents

theorem FiguresKept.clearMap (h : FiguresKept s t) : FiguresKept s t.clearMap :=
  h.andThen fun k => ((((k.withMap _).setMarks _ _).setMarks _ _).setUnsynced _).setUnsynced _

theorem FiguresKept.clearLine (h : FiguresKept s t) : FiguresKept s t.clearLine := by
  have inSetup : FiguresKept s (({ t with part := .setup } : State).raise .partState) := ⟨h.lmu, h.profile⟩
  have planCleared := inSetup.clearDry
  have slotsCleared := FiguresKept.foldl State.clearSlot (fun x k => k.clearSlot x) Stream.all
    (⟨planCleared.lmu, planCleared.profile⟩ : FiguresKept s
      (({ t with part := .setup } : State).raise .partState).clearDry.clearPlan)
  exact FiguresKept.clearMap ⟨slotsCleared.lmu, slotsCleared.profile⟩

/-! ### The requests of the dry end (06, 07) and of every port (08) -/

theorem FiguresKept.reassignHeld (h : FiguresKept s t) (st : Station) : FiguresKept s (t.reassignHeld st) := by
  unfold State.reassignHeld
  dsimp only
  repeat' split
  · exact h
  · exact (h.andThen (·.assignLayout _ _ _)).setStation _ _
  · exact h.andThen fun k => (k.assignLayout _ _ _).becomeReady _
  · exact h.andThen (·.assignLayout _ _ _)
  · exact h.andThen (·.failStation _)

theorem FiguresKept.retireTool (h : FiguresKept s t) (st : Station) (k : ToolKind) (n : Nat) :
    FiguresKept s (t.retireTool st k n) := h.andThen fun u => (u.modifyTool _ _ _ _).dropMoves _

theorem FiguresKept.placeTool (h : FiguresKept s t) (st : Station) (k : ToolKind) (n m : Nat) (v : Tool) :
    FiguresKept s (t.placeTool st k n m v) := by
  unfold State.placeTool
  dsimp only
  repeat' split
  · exact h.andThen fun u => ((u.modifyTool _ _ _ _).dropMoves _).becomeReady _
  · exact h.andThen fun u => (u.modifyTool _ _ _ _).dropMoves _
  · exact h.andThen fun u => ((u.modifyTool _ _ _ _).dropMoves _).joinMoves _
  · exact ((((h.modifyTool _ _ _ _).retireTool _ _ _).raise _).reassignHeld _).replan

theorem FiguresKept.takeToolOut (h : FiguresKept s t) (st : Station) (k : ToolKind) (n : Nat) (v : Tool) :
    FiguresKept s (t.takeToolOut st k n v) := by
  unfold State.takeToolOut
  extract_lets r retired served
  have out : FiguresKept s retired := (h.retireTool _ _ _).modifyTool _ _ _ _
  refine FiguresKept.replan ?_
  dsimp only [served]
  repeat' split
  · exact out
  · exact out
  · exact out.reassignHeld _
  · exact out.andThen (·.setupForDemand _)
  · exact out.reassignHeld _
  · exact out
  · exact out.andThen (·.insertExtent _)
  · exact out

theorem FiguresKept.takeToolIn (h : FiguresKept s t) (st : Station) (k : ToolKind) (n : Nat) :
    FiguresKept s (t.takeToolIn st k n) := by
  unfold State.takeToolIn
  extract_lets returned record served
  have back : FiguresKept s returned := h.modifyTool _ _ _ _
  refine FiguresKept.replan ?_
  dsimp only [served]
  repeat' split
  · exact back.andThen (·.setupForDemand _)
  · exact back.setStation _ _
  · exact back

theorem FiguresKept.untakeAll (h : FiguresKept s t) (p : Port) : FiguresKept s (t.untakeAll p) := by
  cases p with
  | dry => exact h.andThen fun k => ((k.withSlitter _).withDry _).raiseIf _ _
  | planning => exact h
  | wet => exact h

end Sys2Proof.Machine
end

section
/-! PROOF. What a command does: every command but the two of the reset input is one event, whose own change is `actOf`. -/

namespace Sys2Proof.Machine

variable {s t u : State} {P : State → State → Prop}

/-! ### Requests -/

/-- What a verdict does before its reply and after it is, from every state, a change of the kind `P`. -/
def Verdict.Does (P : State → State → Prop) (v : Verdict) : Prop :=
  ∀ payload before after, v = .done payload before after → (∀ s, P s (before s)) ∧ ∀ s, P s (after s)

theorem Verdict.Does.refuse (c : RefusalCause) (x : Nat) : (Verdict.refuse c x).Does P := nofun

theorem Verdict.Does.no (c : RefusalCause) : (Verdict.no c).Does P := nofun

theorem Verdict.Does.done {payload : List Byte} {f g : State → State} (h : ∀ s, P s (f s)) (k : ∀ s, P s (g s)) :
    (Verdict.done payload f g).Does P := by
  rintro _ _ _ ⟨⟩
  exact ⟨h, k⟩

/-- A request does no more than queueing one frame, raising REQUEST_DROPPED and what its verdict does. -/
theorem State.takeRequest_does {p : Port} {tag : Byte} {kind : Nat} {v : Verdict}
    (trans : ∀ {a b c : State}, P a b → P b c → P a c) (drop : P s (s.dropRequest p))
    (reply : ∀ (u : State) (f : Frame), P u (u.reply p f)) (h : v.Does P) : P s (s.takeRequest p tag kind v) := by
  rcases takeRequest_cases s p tag kind v with ⟨-, e⟩ | ⟨-, -, e⟩ | ⟨-, -, _, _, -, e⟩ | ⟨-, -, _, _, _, k, e⟩
  · rw [e]; exact drop
  · rw [e]; exact reply _ _
  · rw [e]; exact reply _ _
  · obtain ⟨before, after⟩ := h _ _ _ k
    rw [e]
    exact trans (trans (before s) (reply _ _)) (after _)

theorem FiguresKept.takeRequest {v : Verdict} (h : v.Does FiguresKept) (s : State) (p : Port) (tag : Byte) (kind : Nat) :
    FiguresKept s (s.takeRequest p tag kind v) :=
  State.takeRequest_does FiguresKept.trans ((FiguresKept.refl s).raise _) (fun u _ => (FiguresKept.refl u).reply _ _) h

/-- A request that is judged and answered with a reading alone, or refused, changes no figure. -/
theorem Verdict.Does.read (payload : List Byte) : (Verdict.read payload).Does FiguresKept := .done .refl .refl

theorem Verdict.Does.ok {f : State → State} (h : ∀ s, FiguresKept s (f s)) : (Verdict.ok f).Does FiguresKept := .done .refl h

theorem addOrderVerdict_keepsFigures (o : RawOrder) (s : State) : (addOrderVerdict o s).Does FiguresKept := by
  unfold addOrderVerdict
  repeat' split
  · exact .no _
  · exact .no _
  · exact .no _
  · exact .no _
  · exact .done .refl fun s => FiguresKept.replan (t := { s with book := s.book ++ [{ fig := figuresOf o }] }) ⟨rfl, rfl⟩

theorem amendOrderVerdict_keepsFigures (x : RawAmend) (s : State) : (amendOrderVerdict x s).Does FiguresKept := by
  unfold amendOrderVerdict
  repeat' split
  · exact .no _
  · exact .no _
  · exact .no _
  · exact .no _
  · exact .ok fun s => ((FiguresKept.refl s).modifyOrder _ _).replan

theorem cancelOrderVerdict_keepsFigures (id : Nat) (s : State) : (cancelOrderVerdict id s).Does FiguresKept := by
  unfold cancelOrderVerdict
  repeat' split
  · exact .no _
  · exact .no _
  · exact .no _
  · exact .ok fun s => (FiguresKept.refl s).cancelQueued _
  · refine .ok fun s => ?_
    split
    · exact (FiguresKept.refl s).cancelAfterStart _
    · exact (FiguresKept.refl s).cancelUnpinned _
  · exact .ok fun s => (FiguresKept.refl s).cancelAfterStart _

theorem discardOrderVerdict_keepsFigures (id : Nat) (s : State) : (discardOrderVerdict id s).Does FiguresKept := by
  unfold discardOrderVerdict
  repeat' split
  · exact .no _
  · exact .ok fun s => ⟨rfl, rfl⟩
  · exact .no _

theorem readBookVerdict_keepsFigures (n : Nat) (s : State) : (readBookVerdict n s).Does FiguresKept := by
  unfold readBookVerdict
  split
  · exact .no _
  · exact .read _

theorem releaseLineVerdict_keepsFigures (s : State) : (releaseLineVerdict s).Does FiguresKept := by
  unfold releaseLineVerdict
  repeat' split
  · exact .no _
  · exact .refuse _ _
  · exact .ok fun s => (FiguresKept.refl s).releaseLine

theorem clearLineVerdict_keepsFigures (s : State) : (clearLineVerdict s).Does FiguresKept := by
  unfold clearLineVerdict
  split
  · exact .ok fun s => (FiguresKept.refl s).clearLine
  · exact .no _

theorem declareReelVerdict_keepsFigures (x arm g n : Nat) (s : State) : (declareReelVerdict x arm g n s).Does FiguresKept := by
  unfold declareReelVerdict
  repeat' split
  · exact .ok fun s => ((FiguresKept.refl s).setArm _ _ _).tryLoad _ _
  · exact .no _
  · exact .no _
  · exact .no _

theorem withdrawReelVerdict_keepsFigures (x arm : Nat) (s : State) : (withdrawReelVerdict x arm s).Does FiguresKept := by
  unfold withdrawReelVerdict
  repeat' split
  · exact .ok fun s => (FiguresKept.refl s).setArm _ _ _
  · exact .no _
  · exact .no _

theorem manualSpliceVerdict_keepsFigures (x : Nat) (s : State) : (manualSpliceVerdict x s).Does FiguresKept := by
  unfold manualSpliceVerdict
  repeat' split
  · exact .no _
  · exact .no _
  · exact .no _
  · exact .ok fun s => (FiguresKept.refl s).andThen (·.commitSlot _ _ _)
  · exact .no _

theorem webBreakVerdict_keepsFigures (x : Nat) (s : State) : (webBreakVerdict x s).Does FiguresKept := by
  unfold webBreakVerdict
  repeat' split
  · exact .no _
  · exact .no _
  · exact .ok fun s => (FiguresKept.refl s).breakWeb _ _

theorem webRestoredVerdict_keepsFigures (x arm n : Nat) (s : State) : (webRestoredVerdict x arm n s).Does FiguresKept := by
  unfold webRestoredVerdict
  repeat' split
  · exact .ok fun s => (FiguresKept.refl s).restoreWeb _ _ _
  · exact .no _
  · exact .no _
  · exact .no _

theorem streamRecoverVerdict_keepsFigures (x arm : Nat) (s : State) : (streamRecoverVerdict x arm s).Does FiguresKept := by
  unfold streamRecoverVerdict
  repeat' split
  · exact .no _
  · exact .no _
  · exact .ok fun s => (FiguresKept.refl s).recoverStream _ _
  · exact .no _
  · exact .no _

theorem laneSyncVerdict_keepsFigures (l : Nat) (k : Int) (s : State) : (laneSyncVerdict l k s).Does FiguresKept := by
  unfold laneSyncVerdict
  repeat' split
  · exact .ok fun s => (FiguresKept.refl s).andThen fun k => (k.clearUnsynced _).setOffset _ _
  · exact .no _
  · exact .no _

theorem actionDoneVerdict_keepsFigures (q m : Nat) (s : State) : (actionDoneVerdict q m s).Does FiguresKept := by
  unfold actionDoneVerdict
  repeat' split
  · exact .no _
  · exact .ok fun s => (FiguresKept.refl s).andThen (·.execute _ _)
  · exact .no _
  · exact .no _

theorem qualityRejectVerdict_keepsFigures (x y : Nat) (s : State) : (qualityRejectVerdict x y s).Does FiguresKept := by
  unfold qualityRejectVerdict
  dsimp only
  split
  · exact .no _
  · exact .done .refl fun s => (FiguresKept.refl s).andThen (·.insertExtent _)

theorem toolPlacedVerdict_keepsFigures (st k n m : Nat) (s : State) : (toolPlacedVerdict st k n m s).Does FiguresKept := by
  unfold toolPlacedVerdict
  repeat' split
  · exact .ok fun s => (FiguresKept.refl s).placeTool _ _ _ _ _
  · exact .no _
  · exact .no _
  · exact .no _

theorem toolOutVerdict_keepsFigures (st k n : Nat) (s : State) : (toolOutVerdict st k n s).Does FiguresKept := by
  unfold toolOutVerdict
  repeat' split
  · exact .no _
  · exact .ok fun s => (FiguresKept.refl s).takeToolOut _ _ _ _
  · exact .no _

theorem toolInVerdict_keepsFigures (st k n : Nat) (s : State) : (toolInVerdict st k n s).Does FiguresKept := by
  unfold toolInVerdict
  repeat' split
  · exact .ok fun s => (FiguresKept.refl s).takeToolIn _ _ _
  · exact .no _
  · exact .no _

theorem readMapVerdict_keepsFigures (c n : Nat) (s : State) : (readMapVerdict c n s).Does FiguresKept := by
  unfold readMapVerdict
  repeat' split
  · exact .no _
  · exact .read _
  · exact .read _
  · exact .read _
  · exact .no _

theorem readOrderVerdict_keepsFigures (id : Nat) (s : State) : (readOrderVerdict id s).Does FiguresKept := by
  unfold readOrderVerdict
  split
  · exact .read _
  · exact .no _

theorem readStreamVerdict_keepsFigures (x : Nat) (s : State) : (readStreamVerdict x s).Does FiguresKept := by
  unfold readStreamVerdict
  split
  · exact .read _
  · exact .no _

theorem setNoticeEnablesVerdict_keepsFigures (p : Port) (c : BitVec 16) (s : State) : (setNoticeEnablesVerdict p c s).Does FiguresKept := by
  unfold setNoticeEnablesVerdict
  split
  · exact .no _
  · exact .ok fun s => ((FiguresKept.refl s).setPort _ _).attempt _

theorem clearNoticesVerdict_keepsFigures (p : Port) (c : BitVec 16) (s : State) : (clearNoticesVerdict p c s).Does FiguresKept := by
  unfold clearNoticesVerdict
  split
  · exact .no _
  · exact .done (fun s => (FiguresKept.refl s).setPort _ _) fun s => (FiguresKept.refl s).attempt _

/-- No request but Load Profile Section changes the LMU or the profile. -/
theorem verdictOf_keepsFigures (i : Instr) (h : ∀ p tag load, i ≠ .loadProfileSection p tag load) (s : State) :
    (verdictOf i s).Does FiguresKept := by
  cases i with
  | loadProfileSection p tag load => exact absurd rfl (h p tag load)
  | addOrder _ _ o => exact addOrderVerdict_keepsFigures o s
  | amendOrder _ _ x => exact amendOrderVerdict_keepsFigures x s
  | cancelOrder _ _ id => exact cancelOrderVerdict_keepsFigures id s
  | discardOrder _ _ id => exact discardOrderVerdict_keepsFigures id s
  | readBook _ _ n => exact readBookVerdict_keepsFigures n s
  | readPlan _ _ => exact .read _
  | releaseLine _ _ => exact releaseLineVerdict_keepsFigures s
  | clearLine _ _ => exact clearLineVerdict_keepsFigures s
  | declareReel _ _ x arm g n => exact declareReelVerdict_keepsFigures x arm g n s
  | withdrawReel _ _ x arm => exact withdrawReelVerdict_keepsFigures x arm s
  | manualSplice _ _ x => exact manualSpliceVerdict_keepsFigures x s
  | webBreak _ _ x => exact webBreakVerdict_keepsFigures x s
  | webRestored _ _ x arm n => exact webRestoredVerdict_keepsFigures x arm n s
  | streamRecover _ _ x arm => exact streamRecoverVerdict_keepsFigures x arm s
  | laneSync _ _ l k => exact laneSyncVerdict_keepsFigures l k s
  | readStationChanges _ _ => exact .done .refl fun s => ⟨rfl, rfl⟩
  | takeActions _ _ => exact .done .refl fun s => ⟨rfl, rfl⟩
  | actionDone _ _ q m => exact actionDoneVerdict_keepsFigures q m s
  | qualityReject _ _ x y => exact qualityRejectVerdict_keepsFigures x y s
  | takeToolMoves _ _ => exact .done .refl fun s => ⟨rfl, rfl⟩
  | toolPlaced _ _ st k n m => exact toolPlacedVerdict_keepsFigures st k n m s
  | toolOut _ _ st k n => exact toolOutVerdict_keepsFigures st k n s
  | toolIn _ _ st k n => exact toolInVerdict_keepsFigures st k n s
  | readStatus _ _ => exact .read _
  | readMap _ _ c n => exact readMapVerdict_keepsFigures c n s
  | readOrder _ _ id => exact readOrderVerdict_keepsFigures id s
  | readStream _ _ x => exact readStreamVerdict_keepsFigures x s
  | readStations _ _ => exact .read _
  | setNoticeEnables p _ c => exact setNoticeEnablesVerdict_keepsFigures p c s
  | clearNotices p _ c => exact clearNoticesVerdict_keepsFigures p c s
  | pauseNotices p _ => exact .ok fun s => (FiguresKept.refl s).setPort _ _
  | resumeNotices p _ => exact .ok fun s => ((FiguresKept.refl s).setPort _ _).attempt _
  | restartPort p _ =>
    exact .done (fun s => (FiguresKept.refl s).setPort _ _) fun s => ((FiguresKept.refl s).untakeAll p).attempt _
  | _ => exact .no _

/-! ### Commands as events -/

/-- The change that a command makes within its event. The two commands of the reset input are no events (log 5). -/
def actOf (i : Instr) (s : State) : State :=
  match i with
  | .forwardPulse c => s.forwardPulse c
  | .reversePulse c => s.reversePulse c
  | .bothLevelsChange c => s.setChannel c (s.channel c).bothLevels
  | .tenMsUpdate => { s with lmu := s.lmu.tenMs }
  | .entryIntoAStop => if s.mayStop then s.enterStop else s
  | .takeStopZone n => if s.lmu.stopped && s.zoneFree n then (s.reachTolerance n).takeZone n else s
  | .seamInputChange l b => s.seamInput l b
  | .standPoll => s.poll
  | .standInterruptChange b => s.setInterrupt b
  | .standTransactionStart => s.linkStart
  | .standRead v => s.standRead v
  | .standWrite => s.standWrite
  | .standAttemptFailed => s.attemptFailed
  | .driveGoodDelay x arm => s.delayReached x arm
  | .firePulseEnd x => s.endFire x
  | .donePulse x => s.donePulse x
  | .selectStart p => s.selectStart p
  | .selectEnd p => s.selectEnd p
  | .byteClocked p b => s.clockByte p b
  | i =>
    match requestFrame i with
    | some f => s.takeRequest f.port f.tag f.kind (verdictOf i s)
    | none => s

/-- Every command but the two of the reset input is one event. -/
theorem exec_eq_event (i : Instr) (s : State) (h : i ≠ .resetAssert) (k : ∀ v, i ≠ .resetRelease v) :
    exec i s = event (actOf i) s := by
  cases i with
  | resetAssert => exact absurd rfl h
  | resetRelease v => exact absurd rfl (k v)
  | _ => rfl

/-- Out of reset a command answers its own change with the acts that follow from it carried out (log 8). -/
theorem exec_settles (i : Instr) (s : State) (h : i ≠ .resetAssert) (k : ∀ v, i ≠ .resetRelease v)
    (running : s.resetAsserted = false) : exec i s = .next (actOf i s).settled := by
  rw [exec_eq_event i s h k, event_next, running]
  rfl

/-- A command that makes no act due answers its own change alone. -/
theorem exec_quiet (i : Instr) (s : State) (h : i ≠ .resetAssert) (k : ∀ v, i ≠ .resetRelease v)
    (running : s.resetAsserted = false) (quiet : (actOf i s).work = []) : exec i s = .next (actOf i s) := by
  rw [exec_settles i s h k running, settled_nil _ quiet]

/-- A request's row is an event in which the request is taken (R180, log 6). -/
theorem actOf_request (i : Instr) (s : State) {f : RequestFrame} (h : requestFrame i = some f) :
    actOf i s = s.takeRequest f.port f.tag f.kind (verdictOf i s) := by
  cases i <;> cases h <;> rfl

end Sys2Proof.Machine
end

section
/-! PROOF. The ranges of R1, R2, R15 and R195: what each command does to the LMU and the profile, and that every step keeps
both in their ranges. -/

namespace Sys2Proof.Machine

variable {s t u : State}

/-! ### Profile sections (R195 to R197) -/

/-- The LMU stays and the profile stays within its ranges. -/
structure RangesKept (s t : State) : Prop where
  lmu : t.lmu = s.lmu
  profile : s.profile.inRange → t.profile.inRange

theorem RangesKept.refl (s : State) : RangesKept s s := ⟨rfl, id⟩

theorem RangesKept.trans (h : RangesKept s t) (k : RangesKept t u) : RangesKept s u :=
  ⟨k.lmu.trans h.lmu, fun r => k.profile (h.profile r)⟩

theorem FiguresKept.ranges (h : FiguresKept s t) : RangesKept s t := ⟨h.lmu, fun r => h.profile ▸ r⟩

theorem streamSection?_inRange {f : RawStreamSection} {v : StreamProfile} (h : streamSection? f = some v) : v.inRange := by
  unfold streamSection? at h
  split at h
  · cases h
  · split at h
    · next k =>
      simp only [Bool.and_eq_true, decide_eq_true_eq] at k
      obtain ⟨⟨⟨⟨⟨⟨⟨⟨⟨-, distance⟩, lead⟩, speed⟩, seamLead⟩, seamTrail⟩, fast⟩, reserve⟩, butt⟩, window⟩ := k
      cases h
      exact ⟨distance, lead, speed, ⟨seamLead, seamTrail⟩, fast, reserve, butt, window⟩
    · cases h

theorem laneSection?_inRange {f : RawLaneSection} {v : LaneProfile} (h : laneSection? f = some v) : v.inRange := by
  unfold laneSection? at h
  split at h
  · next k =>
    simp only [Bool.and_eq_true, decide_eq_true_eq] at k
    obtain ⟨⟨⟨⟨⟨⟨⟨⟨⟨base, det⟩, confirm⟩, correction⟩, pre⟩, active⟩, gap⟩, post⟩, extra⟩, rethread⟩ := k
    cases h
    exact ⟨base, det, ⟨confirm, correction⟩, ⟨pre, active, gap, post⟩, extra, rethread⟩
  · cases h

theorem lineSection?_inRange {f : RawLineSection} {v : LineProfile} (h : lineSection? f = some v) : v.inRange := by
  unfold lineSection? at h
  split at h
  · next k =>
    simp only [Bool.and_eq_true, decide_eq_true_eq] at k
    obtain ⟨⟨⟨⟨⟨⟨⟨⟨⟨⟨⟨⟨⟨⟨g, wgLow⟩, wgHigh⟩, hLow⟩, hHigh⟩, lead⟩, tolerance⟩, stopLow⟩, stopHigh⟩, w0⟩, w1⟩, w2⟩, f0⟩, f1⟩, f2⟩ := k
    cases h
    refine ⟨g, ⟨wgLow, wgHigh⟩, ⟨hLow, hHigh⟩, lead, tolerance, ⟨stopLow, stopHigh⟩, fun c => ?_, fun c => ?_⟩
    · cases c
      · exact w0
      · exact w1
      · exact w2
    · cases c
      · exact f0
      · exact f1
      · exact f2
  · cases h

theorem slitterSection?_inRange {f : RawSlitterSection} {v : SlitterProfile} (h : slitterSection? f = some v) : v.inRange := by
  unfold slitterSection? at h
  split at h
  · next k =>
    simp only [Bool.and_eq_true, decide_eq_true_eq] at k
    obtain ⟨⟨⟨⟨⟨⟨dA, dB⟩, slits⟩, scores⟩, tolerance⟩, low⟩, high⟩ := k
    cases h
    exact ⟨⟨dA, dB⟩, ⟨slits, scores⟩, tolerance, ⟨low, high⟩⟩
  · cases h

theorem entrySection?_inRange {f : RawEntrySection} {v : EntryProfile} (h : entrySection? f = some v) : v.inRange := by
  unfold entrySection? at h
  split at h
  · cases h
  · split at h
    · next k =>
      simp only [Bool.and_eq_true, decide_eq_true_eq] at k
      obtain ⟨⟨⟨⟨-, near⟩, far⟩, lead⟩, tolerance⟩ := k
      cases h
      exact ⟨⟨near, far⟩, lead, tolerance⟩
    · cases h

theorem length_modify1 {α : Type} (l : List α) (n : Nat) (f : α → α) : (modify1 l n f).length = l.length := by
  cases n with
  | zero => rfl
  | succ n => exact List.length_modify f l n

theorem mem_modify1_const {α : Type} {l : List α} {n : Nat} {v x : α} (h : x ∈ modify1 l n fun _ => v) : x = v ∨ x ∈ l := by
  cases n with
  | zero => exact .inr h
  | succ n =>
    obtain ⟨k, hk, rfl⟩ := List.mem_iff_getElem.mp h
    simp only [modify1, List.getElem_modify]
    split
    · exact .inl rfl
    · exact .inr (List.getElem_mem _)

theorem Profile.inRange.setStream {p : Profile} (h : p.inRange) (x : Stream) {v : StreamProfile} (k : v.inRange) :
    ({ p with streams := p.streams.set x v } : Profile).inRange :=
  { h with
    streams := fun y => by
      rw [PerStream.get_set]
      split
      · exact k
      · exact h.streams y }

theorem Profile.inRange.setLane {p : Profile} (h : p.inRange) (l : Lane) {v : LaneProfile} (k : v.inRange) :
    ({ p with lanes := p.lanes.set l v } : Profile).inRange :=
  { h with
    lanes := fun y => by
      rw [PerLane.get_set]
      split
      · exact k
      · exact h.lanes y }

theorem Profile.inRange.setEntry {p : Profile} (h : p.inRange) (n : Nat) {v : EntryProfile} (k : v.inRange) :
    ({ p with entries := modify1 p.entries n fun _ => v } : Profile).inRange :=
  { h with
    entries := fun e m => (mem_modify1_const m).elim (fun eq => eq ▸ k) (h.entries e)
    entryCount := (length_modify1 _ _ _).trans h.entryCount }

theorem FiguresKept.readdress (h : FiguresKept s t) (x : Stream) : FiguresKept s (t.readdress x) := by
  unfold State.readdress
  extract_lets link record dropped freed
  have linkFreed : FiguresKept s freed := by
    dsimp only [freed]
    split
    · exact (h.setStream _ _).setLink _
    · exact h.setStream _ _
  repeat' split
  · exact h.scanTo _
  · exact h
  · exact linkFreed.scanTo _
  · exact linkFreed

/-- A section that is taken lies in its ranges (R196). -/
theorem sectionEffect_keepsRanges {load : SectionLoad} {f : State → State} (h : sectionEffect load = some f) (s : State) :
    RangesKept s (f s) := by
  unfold sectionEffect at h
  split at h
  · split at h
    · next x v _ k =>
      cases h
      have taken : RangesKept s { s with profile := { s.profile with streams := s.profile.streams.set x v } } :=
        ⟨rfl, fun r => r.setStream x (streamSection?_inRange k)⟩
      exact taken.trans ((FiguresKept.refl _).readdress x).ranges
    · cases h
  · split at h
    · next l v _ k =>
      cases h
      have taken : RangesKept s { s with profile := { s.profile with lanes := s.profile.lanes.set l v } } :=
        ⟨rfl, fun r => r.setLane l (laneSection?_inRange k)⟩
      exact taken.trans ((FiguresKept.refl _).andThen fun k => (k.setUnsynced l).setOffset l v.kBase).ranges
    · cases h
  · obtain ⟨v, k, rfl⟩ := Option.map_eq_some_iff.mp h
    exact ⟨rfl, fun r => { r with line := lineSection?_inRange k }⟩
  · obtain ⟨v, k, rfl⟩ := Option.map_eq_some_iff.mp h
    exact ⟨rfl, fun r => { r with slitter := slitterSection?_inRange k }⟩
  · split at h
    · obtain ⟨v, k, rfl⟩ := Option.map_eq_some_iff.mp h
      exact ⟨rfl, fun r => r.setEntry _ (entrySection?_inRange k)⟩
    · cases h
  · cases h

theorem Verdict.Does.mono {P Q : State → State → Prop} (k : ∀ {s t}, P s t → Q s t) {v : Verdict} (h : v.Does P) : v.Does Q :=
  fun _ _ _ e => ⟨fun s => k ((h _ _ _ e).1 s), fun s => k ((h _ _ _ e).2 s)⟩

theorem loadVerdict_keepsRanges (load : SectionLoad) (s : State) : (loadVerdict load s).Does RangesKept := by
  unfold loadVerdict
  split
  · exact .no _
  · split
    · next f h => exact .done .refl fun s => sectionEffect_keepsRanges h s
    · exact .no _

/-- No request changes the LMU, or takes the profile out of its ranges. -/
theorem verdictOf_keepsRanges (i : Instr) (s : State) : (verdictOf i s).Does RangesKept := by
  by_cases h : ∃ p tag load, i = .loadProfileSection p tag load
  · obtain ⟨p, tag, load, rfl⟩ := h
    exact loadVerdict_keepsRanges load s
  · exact (verdictOf_keepsFigures i (fun p tag load e => h ⟨p, tag, load, e⟩) s).mono FiguresKept.ranges

theorem RangesKept.takeRequest (i : Instr) (s : State) (p : Port) (tag : Byte) (kind : Nat) :
    RangesKept s (s.takeRequest p tag kind (verdictOf i s)) :=
  State.takeRequest_does RangesKept.trans ((FiguresKept.refl s).raise _).ranges
    (fun u _ => ((FiguresKept.refl u).reply _ _).ranges) (verdictOf_keepsRanges i s)

theorem RangesKept.takeReceived (s : State) (p : Port) (bytes : List Byte) : RangesKept s (s.takeReceived p bytes) := by
  unfold State.takeReceived
  split
  · exact .refl s
  · split
    · exact ((FiguresKept.refl s).raise _).ranges
    · exact ((FiguresKept.refl s).reply _ _).ranges
  · exact .takeRequest _ _ _ _ _

theorem RangesKept.selectEnd (s : State) (p : Port) : RangesKept s (s.selectEnd p) := by
  unfold State.selectEnd
  split
  · exact .refl s
  · split
    · exact ((FiguresKept.refl s).setPort _ _).ranges
    · next v _ _ =>
      dsimp only
      have delivered := ((FiguresKept.refl s).setPort p { (s.port p).deliver v with select := none }).ranges
      exact delivered.trans ((RangesKept.takeReceived _ p v.received).trans
        (((FiguresKept.refl _).settled).attempt p).ranges)

/-! ### What a command does to the LMU -/

/-- The changes of the LMU between resets: none, a pulse or a step of both levels, the 10-ms update, the entry into a stop, or
the stop duration brought up to an entry's tolerance (R4 to R6, R13, R15, R38). -/
inductive LmuChange (s : State) : Lmu → Prop where
  | none : LmuChange s s.lmu
  | forward (c : Channel) : LmuChange s (s.setChannel c ((s.channel c).forward (s.pulseWeight c))).lmu
  | reverse (c : Channel) : LmuChange s (s.setChannel c ((s.channel c).reverse (s.pulseWeight c))).lmu
  | bothLevels (c : Channel) : LmuChange s (s.setChannel c (s.channel c).bothLevels).lmu
  | tenMs : LmuChange s s.lmu.tenMs
  | stop : LmuChange s (s.lmu.enterStop s.profile.line.stopTime)
  | tolerance (n : Nat) : LmuChange s (s.reachTolerance n).lmu

/-- What one command does to the LMU and the profile. -/
structure CommandFigures (s t : State) : Prop where
  lmu : LmuChange s t.lmu
  profile : s.profile.inRange → t.profile.inRange

theorem RangesKept.command (h : RangesKept s t) : CommandFigures s t := ⟨h.lmu ▸ .none, h.profile⟩

theorem FiguresKept.command (h : FiguresKept s t) : CommandFigures s t := h.ranges.command

theorem CommandFigures.andThen (h : CommandFigures s t) (k : FiguresKept t u) : CommandFigures s u :=
  ⟨k.lmu ▸ h.lmu, fun r => k.profile ▸ h.profile r⟩

theorem seamInput_keepsFigures (s : State) (l : Lane) (b : Bool) : FiguresKept s (s.seamInput l b) := by
  unfold State.seamInput
  dsimp only
  split
  · exact .refl s
  · exact ((FiguresKept.refl s).setLane _ _).andThen (·.recogniserTest _)

theorem selectStart_keepsFigures (s : State) (p : Port) : FiguresKept s (s.selectStart p) := by
  unfold State.selectStart
  split
  · exact (FiguresKept.refl s).setPort _ _
  · exact .refl s

theorem clockByte_keepsFigures (s : State) (p : Port) (b : Byte) : FiguresKept s (s.clockByte p b) := by
  unfold State.clockByte
  dsimp only
  split
  · exact .refl s
  · exact (FiguresKept.refl s).setPort _ _

/-- What each command's own change does to the LMU and the profile. -/
theorem actOf_figures (i : Instr) (s : State) : CommandFigures s (actOf i s) := by
  cases i with
  | forwardPulse c =>
    have pulse : CommandFigures s (s.setChannel c ((s.channel c).forward (s.pulseWeight c))) := ⟨.forward c, id⟩
    exact pulse.andThen (((FiguresKept.refl _).raiseIf _ _).push _)
  | reversePulse c =>
    have pulse : CommandFigures s (s.setChannel c ((s.channel c).reverse (s.pulseWeight c))) := ⟨.reverse c, id⟩
    exact pulse.andThen ((FiguresKept.refl _).raiseIf _ _)
  | bothLevelsChange c => exact ⟨.bothLevels c, id⟩
  | tenMsUpdate => exact ⟨.tenMs, id⟩
  | entryIntoAStop =>
    dsimp only [actOf]
    split
    · have entered : CommandFigures s { s with
          lmu := s.lmu.enterStop s.profile.line.stopTime
          map := { s.map with zoneTaken := List.replicate 12 false } } := ⟨.stop, id⟩
      exact entered.andThen ((FiguresKept.refl _).andThen (·.takeDueZones))
    · exact (FiguresKept.refl s).command
  | takeStopZone n =>
    dsimp only [actOf]
    split
    · have reached : CommandFigures s (s.reachTolerance n) := ⟨.tolerance n, id⟩
      exact reached.andThen ((FiguresKept.refl _).andThen (·.takeZone n))
    · exact (FiguresKept.refl s).command
  | seamInputChange l b => exact (seamInput_keepsFigures s l b).command
  | standPoll => exact (FiguresKept.refl s).poll.command
  | standInterruptChange b => exact ((FiguresKept.refl s).setInterrupt b).command
  | standTransactionStart => exact (FiguresKept.refl s).linkStart.command
  | standRead v => exact ((FiguresKept.refl s).standRead v).command
  | standWrite => exact (FiguresKept.refl s).standWrite.command
  | standAttemptFailed => exact (FiguresKept.refl s).attemptFailed.command
  | driveGoodDelay x arm => exact ((FiguresKept.refl s).delayReached x arm).command
  | firePulseEnd x => exact ((FiguresKept.refl s).setStream x _).command
  | donePulse x => exact ((FiguresKept.refl s).donePulse x).command
  | selectStart p => exact (selectStart_keepsFigures s p).command
  | selectEnd p => exact (RangesKept.selectEnd s p).command
  | byteClocked p b => exact (clockByte_keepsFigures s p b).command
  | resetAssert => exact (FiguresKept.refl s).command
  | resetRelease v => exact (FiguresKept.refl s).command
  | _ =>
    rw [actOf_request _ s rfl]
    exact (RangesKept.takeRequest _ _ _ _ _).command

/-- Between resets a command changes the LMU in one of the ways of `LmuChange` and keeps the profile in its ranges. -/
theorem exec_figures {i : Instr} (h : i ≠ .resetAssert) (k : ∀ v, i ≠ .resetRelease v) (e : exec i s = .next t) :
    CommandFigures s t := by
  rw [exec_eq_event i s h k, event_next] at e
  cases e
  split
  · exact (FiguresKept.refl s).command
  · exact (actOf_figures i s).andThen (FiguresKept.refl _).settled

/-! ### The ranges of R1, R2 and R15 -/

/-- A change of a channel that keeps its buckets, its gain and its speed is in range when what it sets is. -/
theorem ChannelRec.wf.forward {r : ChannelRec} (h : r.wf) (w : Nat) : (r.forward w).wf := by
  unfold ChannelRec.forward
  dsimp only
  split
  · exact { h with backTravel := (Nat.sub_le _ _).trans h.backTravel }
  · exact { h with
      counter := Nat.min_le_right _ _
      fraction := Nat.mod_lt _ (by decide)
      backTravel := Nat.zero_le _
      gain := Nat.min_le_right _ _ }

theorem ChannelRec.wf.reverse {r : ChannelRec} (h : r.wf) (w : Nat) : (r.reverse w).wf :=
  { h with backTravel := Nat.min_le_right _ _ }

theorem ChannelRec.wf.bothLevels {r : ChannelRec} (h : r.wf) : r.bothLevels.wf := { h with }

theorem ChannelRec.wf.takeLevels {r : ChannelRec} (h : r.wf) (x y : Bool) : (r.takeLevels x y).wf := { h with }

/-- Ten buckets of at most 65535 make a speed of at most 6553500 (R13). -/
theorem ChannelRec.wf.closeBucket {r : ChannelRec} (h : r.wf) : r.closeBucket.wf := by
  have count : (r.newBucket :: r.buckets.take 9).length = 10 := by simp [h.bucketCount]
  have bounds : ∀ b ∈ r.newBucket :: r.buckets.take 9, b ≤ Config.bucketMax := by
    intro b m
    rcases List.mem_cons.mp m with rfl | m
    · exact r.newBucket_le.trans h.gain
    · exact h.buckets b (List.mem_of_mem_take m)
  have total := List.sum_le_card_nsmul _ _ bounds
  rw [count] at total
  refine { h with bucketCount := count, buckets := bounds, gain := Nat.zero_le _, speed := ?_ }
  have limit : Config.bucketMax = 65535 := rfl
  simp only [smul_eq_mul, limit] at total
  change 10 * (r.newBucket :: r.buckets.take 9).sum ≤ 6553500
  omega

theorem Lmu.wf.channel (h : s.lmu.wf) (c : Channel) : (s.channel c).wf := by
  cases c
  · exact h.main
  · exact h.lane1
  · exact h.lane2

theorem Lmu.wf.setChannel (h : s.lmu.wf) (c : Channel) {r : ChannelRec} (k : r.wf) : (s.setChannel c r).lmu.wf := by
  cases c
  · exact { h with main := k }
  · exact { h with lane1 := k }
  · exact { h with lane2 := k }

theorem Lmu.wf.tenMs {l : Lmu} (h : l.wf) : l.tenMs.wf := by
  unfold Lmu.tenMs
  dsimp only
  repeat' split
  all_goals exact ⟨h.main.closeBucket, h.lane1.closeBucket, h.lane2.closeBucket, Nat.zero_lt_succ 9, h.stopDuration⟩

theorem Lmu.wf.enterStop {l : Lmu} (h : l.wf) (n : Nat) : (l.enterStop n).wf := { h with stopDuration := Nat.zero_le _ }

theorem Lmu.wf.tick {l : Lmu} (h : l.wf) : l.tick.wf := by
  refine { h with divider := Nat.mod_lt _ (by decide), stopDuration := ?_ }
  unfold Lmu.tick
  dsimp only
  split
  · exact Nat.min_le_right _ _
  · exact h.stopDuration

theorem nth1_mem {α : Type} {l : List α} {n : Nat} {x : α} (h : nth1 l n = some x) : x ∈ l := by
  cases n with
  | zero => cases h
  | succ n => exact List.mem_of_getElem? h

/-- An entry's tolerance is at most 60000 ms (R195), so a stop brought up to it stays within 65535 (R15). -/
theorem reachTolerance_wf (h : s.lmu.wf) (p : s.profile.inRange) (n : Nat) : (s.reachTolerance n).lmu.wf := by
  have tolerance : ((nth1 s.profile.entries n).map EntryProfile.stopTolerance).getD 0 ≤ Config.bucketMax := by
    cases e : nth1 s.profile.entries n with
    | none => exact Nat.zero_le _
    | some v => exact (p.entries v (nth1_mem e)).stopTolerance.trans (by decide)
  exact { h with stopDuration := Nat.max_le.mpr ⟨h.stopDuration, tolerance⟩ }

/-- Every change of the LMU between resets keeps it in its ranges. -/
theorem LmuChange.wf {l : Lmu} (h : LmuChange s l) (k : s.lmu.wf) (p : s.profile.inRange) : l.wf := by
  cases h with
  | none => exact k
  | forward c => exact k.setChannel c ((k.channel c).forward _)
  | reverse c => exact k.setChannel c ((k.channel c).reverse _)
  | bothLevels c => exact k.setChannel c (k.channel c).bothLevels
  | tenMs => exact k.tenMs
  | stop => exact k.enterStop _
  | tolerance n => exact reachTolerance_wf k p n

/-! ### Reset -/

theorem ChannelRec.reset_wf : ({} : ChannelRec).wf :=
  ⟨by decide, by decide, by decide, by decide, by decide, by decide, by decide⟩

theorem Lmu.reset_wf : State.reset.lmu.wf :=
  ⟨ChannelRec.reset_wf, ChannelRec.reset_wf, ChannelRec.reset_wf, by decide, by decide⟩

theorem Profile.reset_inRange : State.reset.profile.inRange where
  streams x := by cases x <;> exact ⟨by decide, by decide, by decide, by decide, by decide, by decide, by decide, by decide⟩
  lanes l := by cases l <;> exact ⟨by decide, by decide, by decide, by decide, by decide, by decide⟩
  line := ⟨by decide, by decide, by decide, by decide, by decide, by decide, fun c => by cases c <;> decide,
    fun c => by cases c <;> decide⟩
  slitter := ⟨by decide, by decide, by decide, by decide⟩
  entries e h := by
    rw [List.eq_of_mem_replicate h]
    exact ⟨by decide, by decide, by decide⟩
  entryCount := rfl

theorem released_figures (v : ReleaseLevels) (h : s.lmu.wf) : (s.released v).lmu.wf :=
  { h with
    main := h.main.takeLevels _ _
    lane1 := h.lane1.takeLevels _ _
    lane2 := h.lane2.takeLevels _ _ }

/-- Every command keeps the LMU and the profile in their ranges. -/
theorem exec_keepsRanges {i : Instr} (h : s.lmu.wf) (p : s.profile.inRange) (e : exec i s = .next t) :
    t.lmu.wf ∧ t.profile.inRange := by
  by_cases a : i = .resetAssert
  · subst a
    cases e
    exact ⟨Lmu.reset_wf, Profile.reset_inRange⟩
  by_cases r : ∃ v, i = .resetRelease v
  · obtain ⟨v, rfl⟩ := r
    cases e
    split
    · exact ⟨released_figures v h, p⟩
    · exact ⟨h, p⟩
  have change := exec_figures a (fun v k => r ⟨v, k⟩) e
  exact ⟨change.lmu.wf h p, change.profile p⟩

theorem tick_keepsRanges (h : s.lmu.wf) (p : s.profile.inRange) : s.tick.lmu.wf ∧ s.tick.profile.inRange := by
  unfold State.tick
  split
  · exact ⟨h, p⟩
  · exact ⟨h.tick, p⟩

/-- Settles O58: a step is a tick or a command, and each keeps both in their ranges. -/
theorem figuresStayInRange : Obligations.FiguresStayInRange := by
  intro s t h p e
  unfold step at e
  split at e
  · next c rest _ => exact exec_keepsRanges (s := { s with pending := rest }) h p e
  · cases e
    exact tick_keepsRanges h p

/-! ### Counters and doubt causes -/

/-- A channel's counter has not fallen or passed its limit, and no doubt cause has left (R7, R8). -/
structure ChannelRec.Grows (r u : ChannelRec) : Prop where
  counter : r.counter ≤ u.counter
  limit : r.counter ≤ Config.counterMax → u.counter ≤ Config.counterMax
  saturated : r.saturated = true → u.saturated = true
  capped : r.capped = true → u.capped = true

theorem ChannelRec.Grows.refl (r : ChannelRec) : r.Grows r := ⟨le_rfl, id, id, id⟩

theorem ChannelRec.forward_grows {r : ChannelRec} (h : r.counter ≤ Config.counterMax) (w : Nat) : r.Grows (r.forward w) := by
  unfold ChannelRec.forward
  dsimp only
  split
  · exact ⟨le_rfl, id, id, id⟩
  · exact ⟨le_min (Nat.le_add_right _ _) h, fun _ => Nat.min_le_right _ _, fun k => by simp [k], id⟩

theorem ChannelRec.reverse_grows (r : ChannelRec) (w : Nat) : r.Grows (r.reverse w) :=
  ⟨le_rfl, id, id, fun k => by simp [ChannelRec.reverse, k]⟩

theorem channel_setChannel_grows {c d : Channel} {r : ChannelRec} (h : c = d → (s.channel c).Grows r) :
    (s.channel d).Grows ((s.setChannel c r).channel d) := by
  unfold State.channel State.setChannel at *
  rw [PerChannel.get_set]
  split
  · next e => exact e ▸ h e.symm
  · exact .refl _

/-- Between resets every change of the LMU lets a channel's counter and doubt causes only grow. -/
theorem LmuChange.grows {l : Lmu} (h : LmuChange s l) (c : Channel) (k : (s.channel c).counter ≤ Config.counterMax) :
    (s.channel c).Grows (l.channels.get c) := by
  cases h with
  | none => exact .refl _
  | forward d => exact channel_setChannel_grows fun e => ChannelRec.forward_grows (e ▸ k) _
  | reverse d => exact channel_setChannel_grows fun _ => ChannelRec.reverse_grows _ _
  | bothLevels d => exact channel_setChannel_grows fun _ => ⟨le_rfl, id, id, id⟩
  | tenMs =>
    have closed : (s.channel c).Grows (s.channel c).closeBucket := ⟨le_rfl, id, id, id⟩
    unfold Lmu.tenMs
    dsimp only
    cases c <;> (repeat' split) <;> exact closed
  | stop => exact .refl _
  | tolerance n => exact .refl _

/-- Settles O11. -/
theorem countersAndDoubtsOnlyGrow : Obligations.CountersAndDoubtsOnlyGrow := by
  intro i s t c h limit e
  have grows : (s.channel c).Grows (t.channel c) := by
    by_cases r : ∃ v, i = .resetRelease v
    · obtain ⟨v, rfl⟩ := r
      cases e
      split
      · cases c <;> exact ⟨le_rfl, id, id, id⟩
      · exact .refl _
    · exact (exec_figures h (fun v k => r ⟨v, k⟩) e).lmu.grows c limit
  exact ⟨grows.counter, grows.limit limit, grows.saturated, grows.capped⟩

end Sys2Proof.Machine
end

section
/-! PROOF. Reset, and the updates that the clock brings: the reset values, the 10-ms update and the tick (01, R204). -/

namespace Sys2Proof.Machine

variable {s t u : State}

/-! ### Reset (R18, R43, R67, R95, R127, R152, R173, R194, R204) -/

/-- Settles O3: each field of the reset state, by evaluation. -/
theorem resetStateHoldsTheResetValues : Obligations.ResetStateHoldsTheResetValues := by
  have channels : ∀ c, State.reset.channel c = {} := fun c => by cases c <;> rfl
  have lanes : ∀ l, State.reset.lane l = {} := fun l => by cases l <;> rfl
  have streams : ∀ x, State.reset.stream x = {} := fun x => by cases x <;> rfl
  have arms : ∀ x arm, State.reset.arm x arm = {} := fun x arm => by cases x <;> cases arm <;> rfl
  have stations : ∀ st, State.reset.station st = {} := fun st => by cases st <;> rfl
  refine ⟨rfl, rfl, fun c => ?_, rfl, rfl, rfl, rfl, fun x => by cases x <;> rfl, fun l => by cases l <;> rfl, rfl, rfl, rfl, rfl,
    rfl, fun l => ?_, rfl, rfl, rfl, rfl, rfl, fun x => ?_, rfl, rfl, rfl, rfl, fun st => ?_, rfl, rfl, rfl, rfl, rfl, rfl,
    fun p => by cases p <;> exact ⟨rfl, rfl, rfl, rfl, rfl⟩, rfl⟩
  · rw [channels]
    exact ⟨rfl, rfl, rfl, rfl, rfl, rfl, rfl, rfl⟩
  · rw [lanes]
    exact ⟨rfl, rfl, rfl, rfl, rfl⟩
  · rw [streams]
    refine ⟨rfl, rfl, rfl, rfl, rfl, rfl, rfl, rfl, rfl, rfl, fun arm => ?_⟩
    rw [arms]
    exact ⟨rfl, rfl, rfl, rfl, rfl, rfl, rfl, rfl, rfl, rfl⟩
  · rw [stations]
    exact ⟨rfl, rfl, rfl, rfl, rfl, rfl, rfl, rfl⟩

/-- On an empty queue a step is one tick (log 1). -/
theorem step_idle (h : s.pending = []) : step s = .next s.tick := by
  unfold step
  rw [h]

/-- While the reset input is asserted no tick is taken (R1). -/
theorem tick_held (h : s.resetAsserted = true) : s.tick = s := by
  unfold State.tick
  rw [if_pos h]

theorem tick_running (h : s.resetAsserted = false) : s.tick = { s.count with pending := s.pending ++ dueCommands s s.count } := by
  unfold State.tick
  rw [h]
  rfl

/-- Settles O4. -/
theorem resetAssertClearsAndHolds : Obligations.ResetAssertClearsAndHolds := by
  refine ⟨fun s => rfl, fun i s held h k => ?_, fun s held idle => ?_⟩
  · rw [exec_eq_event i s h k, event_held _ s held]
  · rw [step_idle idle, tick_held held]

theorem execResetRelease_held (v : ReleaseLevels) (h : s.resetAsserted = true) :
    exec (.resetRelease v) s = .next (s.released v) := by
  change Host.Outcome.next (if s.resetAsserted then s.released v else s) = _
  rw [if_pos h]

/-- Settles O5: the release is `State.released`, read field by field. -/
theorem resetReleaseTakesTheInputs : Obligations.ResetReleaseTakesTheInputs := by
  intro v s
  refine ⟨fun running => ?_, fun held => ⟨s.released v, execResetRelease_held v held, rfl, rfl, rfl, rfl, rfl, rfl, ?_, ?_, rfl,
    rfl, ?_⟩⟩
  · change Host.Outcome.next (if s.resetAsserted then s.released v else s) = _
    rw [running]
    rfl
  · intro p
    cases p <;> rfl
  · intro l
    cases l <;> rfl
  · rw [← held]
    rfl

/-- Settles O60: every bounded collection is empty after reset, and every figure is the reset value of its table. -/
theorem resetMeetsTheInvariants : Obligations.ResetMeetsTheInvariants where
  left := Lmu.reset_wf
  right := by
    refine ⟨Profile.reset_inRange, ⟨trivial, nofun, nofun, Nat.zero_le _⟩, fun p => ?_, fun l => ?_, Nat.zero_le _, List.nodup_nil,
      Nat.zero_le _, Nat.zero_le _⟩
    · cases p <;> exact ⟨⟨Nat.zero_le _, Nat.zero_le _⟩, rfl⟩
    · cases l <;> exact Nat.zero_le _

/-! ### The 10-ms update (R13, R14, R16) -/

/-- Every channel closes a bucket. -/
theorem tenMs_channel (l : Lmu) (c : Channel) : l.tenMs.channels.get c = (l.channels.get c).closeBucket := by
  unfold Lmu.tenMs
  dsimp only
  cases c <;> (repeat' split) <;> rfl

theorem tenMs_frame (l : Lmu) : l.tenMs.stopDuration = l.stopDuration ∧ l.tenMs.ticks = l.ticks ∧ l.tenMs.divider = 0 := by
  unfold Lmu.tenMs
  dsimp only
  repeat' split
  all_goals exact ⟨rfl, rfl, rfl⟩

/-- Travel in the newest bucket ends a stop (R16). -/
theorem tenMs_stopped (l : Lmu) : l.tenMs.stopped = (l.stopped && l.channels.main.newBucket == 0) := by
  unfold Lmu.tenMs
  dsimp only
  split
  · next h => simp_all
  · next h =>
    have idle : l.channels.main.newBucket = 0 := by simpa using h
    split <;> simp [idle]

/-- The zero-speed time starts again with travel, and when the speed becomes 0 (R15, R16). -/
theorem tenMs_zeroSpeedTime (l : Lmu) : l.tenMs.zeroSpeedTime =
    if l.channels.main.newBucket ≠ 0 ∨ (l.channels.main.closeBucket.speed = 0 ∧ l.channels.main.speed ≠ 0) then 0
    else l.zeroSpeedTime := by
  unfold Lmu.tenMs
  dsimp only
  split
  · next h => rw [if_pos (.inl (by simpa using h))]
  · next h =>
    have idle : ¬ l.channels.main.newBucket ≠ 0 := by simpa using h
    split
    · next k => rw [if_pos (.inr (by simpa using k))]
    · next k => rw [if_neg (not_or.mpr ⟨idle, by simpa using k⟩)]

/-- Settles O8. -/
theorem tenMsUpdateClosesTheBuckets : Obligations.TenMsUpdateClosesTheBuckets := by
  intro s running quiet
  obtain ⟨stopDuration, ticks, divider⟩ := tenMs_frame s.lmu
  have channels := tenMs_channel s.lmu
  have zeroSpeed := tenMs_zeroSpeedTime s.lmu
  refine ⟨{ s with lmu := s.lmu.tenMs }, exec_quiet .tenMsUpdate s nofun nofun running quiet, channels, tenMs_stopped s.lmu, ?_, stopDuration, ticks,
    divider, rfl⟩
  have speed : (({ s with lmu := s.lmu.tenMs } : State).channel .main).speed = s.lmu.channels.main.closeBucket.speed :=
    congrArg ChannelRec.speed (channels .main)
  rw [speed]
  exact zeroSpeed

/-! ### The tick (R1, R98, R99, R113, R115) -/

theorem ArmRec.tick_eq (r : ArmRec) :
    r.tick = { r with delay := if r.driveEnable = true then min (r.delay + 1) 800 else r.delay } := by
  unfold ArmRec.tick
  split <;> rfl

theorem DoneSample.next_eq (d : DoneSample) (found : Bool) :
    d.next found = if found = true then (if d = .low then .once else .high) else .low := by
  cases found <;> cases d <;> rfl

/-- A DONE input is accepted at its second high sample (R115). -/
theorem DoneSample.next_accepts (d : DoneSample) (found : Bool) : d = .once ∧ d.next found = .high ↔ d = .once ∧ found = true := by
  cases found <;> cases d <;> decide

theorem count_arm (s : State) (x : Stream) (arm : Arm) : s.count.arm x arm = (s.arm x arm).tick := by
  cases x <;> cases arm <;> rfl

theorem count_stream (s : State) (x : Stream) : s.count.stream x = (s.stream x).tick (s.pins.done.get x) := by
  cases x <;> rfl

theorem count_stream_fields (s : State) (x : Stream) : s.count.stream x =
    { s.stream x with
      arms := (s.count.stream x).arms, fireLeft := (s.stream x).fireLeft - 1
      doneSample :=
        if s.pins.done.get x = true then (if (s.stream x).doneSample = .low then .once else .high) else .low } := by
  rw [← DoneSample.next_eq]
  cases x <;> rfl

theorem DriveMode.delay?_le {m : DriveMode} {d : Nat} (h : m.delay? = some d) : d ≤ 800 := by
  cases m <;> cases h <;> decide

/-- The delay timer reaches a DELAY-mode value at one tick alone (R98). -/
theorem ArmRec.tick_reaches (r : ArmRec) {d : Nat} (h : d ≤ 800) :
    r.tick.delay = d ∧ r.delay < d ↔ r.driveEnable = true ∧ d = r.delay + 1 := by
  rw [ArmRec.tick_eq]
  cases r.driveEnable <;> simp <;> omega

theorem mem_delayCommands (s t : State) (i : Instr) : i ∈ delayCommands s t ↔
    ∃ x arm d, (t.streamProfile x).driveMode.delay? = some d ∧ (t.arm x arm).delay = d ∧ (s.arm x arm).delay < d ∧
      i = .driveGoodDelay x arm := by
  have streams : ∀ x : Stream, x ∈ Stream.all := fun x => by cases x <;> decide
  have arms : ∀ arm : Arm, arm ∈ [Arm.a, .b] := fun arm => by cases arm <;> decide
  unfold delayCommands
  simp only [List.mem_flatMap, List.mem_filterMap, streams, arms, true_and]
  refine exists_congr fun x => exists_congr fun arm => ?_
  cases (t.streamProfile x).driveMode.delay? with
  | none => simp
  | some d =>
    simp only [State.arm, Option.ite_none_right_eq_some, Bool.and_eq_true, decide_eq_true_eq, Option.some.injEq, exists_eq_left',
      and_assoc, eq_comm (b := i)]

/-- The commands that a tick brings, and when (log 26). -/
theorem mem_dueCommands (s t : State) (i : Instr) : i ∈ dueCommands s t ↔
    (i = .tenMsUpdate ∧ t.lmu.divider = 0) ∨
    (i = .entryIntoAStop ∧ t.lmu.stopped = false ∧ t.lmu.channels.main.speed = 0 ∧
      t.profile.line.stopTime ≤ t.lmu.zeroSpeedTime) ∨
    (∃ n ∈ entryNumbers, t.zoneDue n = true ∧ i = .takeStopZone n) ∨
    (i = .standInterruptChange t.pins.interrupt ∧ t.splice.link.samples = 20) ∨
    (i = .standPoll ∧ t.splice.link.poll = 0) ∨ i ∈ delayCommands s t ∨
    (∃ x, (t.stream x).fire = true ∧ (t.stream x).fireLeft = 0 ∧ i = .firePulseEnd x) ∨
    (∃ x, (s.stream x).doneSample = .once ∧ (t.stream x).doneSample = .high ∧ i = .donePulse x) ∨
    (i = .standTransactionStart ∧ t.splice.link.busy = none ∧ t.nextTransaction.isSome = true) := by
  have streams : ∀ x : Stream, x ∈ Stream.all := fun x => by cases x <;> decide
  have single : ∀ (p : Prop) [Decidable p] (j : Instr), (i ∈ if p then [j] else []) ↔ i = j ∧ p := by
    intro p _ j
    split <;> simp_all
  have samples : Config.interruptSamples = 20 := rfl
  unfold dueCommands
  simp only [List.mem_append, single, List.mem_map, List.mem_filter, streams, true_and, samples, Bool.and_eq_true, Bool.not_eq_true',
    beq_iff_eq, decide_eq_true_eq, Option.isNone_iff_eq_none, and_assoc, or_assoc, eq_comm (b := i)]

theorem nextTransaction_isSome (s : State) : s.nextTransaction.isSome = true ↔ ∃ x, (s.streamProfile x).active = true ∧
    (((s.stream x).writePending = true ∧ (s.stream x).linkFault = false) ∨ (s.stream x).readPending = true) := by
  have streams : ∀ x : Stream, x ∈ Stream.all := fun x => by cases x <;> decide
  unfold State.nextTransaction
  dsimp only
  split
  · next x h =>
    have due := List.find?_some h
    simp only [Bool.and_eq_true, Bool.not_eq_true'] at due
    obtain ⟨⟨active, write⟩, sound⟩ := due
    exact ⟨fun _ => ⟨x, active, .inl ⟨write, sound⟩⟩, fun _ => rfl⟩
  · next noWrite =>
    have noWrite := List.find?_eq_none.mp noWrite
    split
    · next x h =>
      have due := List.find?_some h
      simp only [Bool.and_eq_true] at due
      exact ⟨fun _ => ⟨x, due.1, .inr due.2⟩, fun _ => rfl⟩
    · next noRead =>
      have noRead := List.find?_eq_none.mp noRead
      refine ⟨nofun, ?_⟩
      rintro ⟨x, active, ⟨write, sound⟩ | read⟩
      · exact absurd (by simp [active, write, sound]) (noWrite x (streams x))
      · exact absurd (by simp [active, read]) (noRead x (streams x))

/-- Counting the timers leaves the transaction that is due. -/
theorem count_nextTransaction (s : State) : s.count.nextTransaction.isSome = true ↔ ∃ x, (s.streamProfile x).active = true ∧
    (((s.stream x).writePending = true ∧ (s.stream x).linkFault = false) ∨ (s.stream x).readPending = true) := by
  rw [nextTransaction_isSome]
  refine exists_congr fun x => ?_
  rw [count_stream]
  exact Iff.rfl

theorem mem_entryNumbers (n : Nat) : n ∈ entryNumbers ↔ 1 ≤ n ∧ n ≤ 12 := by
  unfold entryNumbers
  simp only [List.mem_cons, List.not_mem_nil, or_false]
  omega

/-- A zone is due at the tick at which its stop has lasted the entry's tolerance (R38). -/
theorem count_zoneDue (s : State) (n : Nat) : s.count.zoneDue n = true ↔ s.lmu.stopped = true ∧
    nth1 s.map.zoneTaken n = some false ∧
    ∃ e, nth1 s.profile.entries n = some e ∧ e.enable = true ∧ e.stopTolerance ≤ min (s.lmu.stopDuration + 1) 65535 := by
  have duration : s.count.lmu.stopDuration =
      if s.lmu.stopped then min (s.lmu.stopDuration + 1) 65535 else s.lmu.stopDuration := rfl
  have stopped : s.count.lmu.stopped = s.lmu.stopped := rfl
  have profile : s.count.profile = s.profile := rfl
  have map : s.count.map = s.map := rfl
  unfold State.zoneDue State.zoneFree
  rw [duration, stopped, profile, map]
  cases s.lmu.stopped <;> cases nth1 s.profile.entries n <;> cases nth1 s.map.zoneTaken n <;> simp [and_left_comm, and_assoc]

/-! Each command that a tick can bring, and its moment (log 26). -/

theorem tick_brings_tenMsUpdate (s : State) : Instr.tenMsUpdate ∈ dueCommands s s.count ↔ s.count.lmu.divider = 0 := by
  simp [mem_dueCommands, mem_delayCommands]

theorem count_zeroSpeedTime (s : State) : s.count.lmu.zeroSpeedTime =
    if s.lmu.stopped = false ∧ (s.channel .main).speed = 0 then s.lmu.zeroSpeedTime + 1 else s.lmu.zeroSpeedTime := by
  change (if (!s.lmu.stopped && (s.channel .main).speed == 0) = true then _ else _) = _
  simp only [Bool.and_eq_true, Bool.not_eq_true', beq_iff_eq]

theorem tick_brings_entryIntoAStop (s : State) : Instr.entryIntoAStop ∈ dueCommands s s.count ↔
    s.lmu.stopped = false ∧ (s.channel .main).speed = 0 ∧ s.profile.line.stopTime ≤ s.lmu.zeroSpeedTime + 1 := by
  have brings : Instr.entryIntoAStop ∈ dueCommands s s.count ↔ s.lmu.stopped = false ∧ (s.channel .main).speed = 0 ∧
      s.profile.line.stopTime ≤ s.count.lmu.zeroSpeedTime := by
    simp [mem_dueCommands, mem_delayCommands, State.count, Lmu.tick, State.channel, PerChannel.get]
  rw [brings, count_zeroSpeedTime]
  refine and_congr_right fun clear => and_congr_right fun still => ?_
  rw [if_pos ⟨clear, still⟩]

theorem tick_brings_takeStopZone (s : State) (n : Nat) : Instr.takeStopZone n ∈ dueCommands s s.count ↔
    1 ≤ n ∧ n ≤ 12 ∧ s.lmu.stopped = true ∧ nth1 s.map.zoneTaken n = some false ∧
      ∃ e, nth1 s.profile.entries n = some e ∧ e.enable = true ∧ e.stopTolerance ≤ min (s.lmu.stopDuration + 1) 65535 := by
  rw [← and_assoc, ← mem_entryNumbers, ← count_zoneDue]
  simp [mem_dueCommands, mem_delayCommands]

theorem tick_brings_standInterruptChange (s : State) (b : Bool) : Instr.standInterruptChange b ∈ dueCommands s s.count ↔
    b = s.pins.interrupt ∧ s.pins.interrupt ≠ s.splice.link.interrupt ∧ 20 ≤ s.splice.link.samples + 1 := by
  have samples : s.count.splice.link.samples =
      if s.pins.interrupt = s.splice.link.interrupt then 0 else min (s.splice.link.samples + 1) 20 := rfl
  have pins : s.count.pins = s.pins := rfl
  have brings : Instr.standInterruptChange b ∈ dueCommands s s.count ↔
      b = s.pins.interrupt ∧ s.count.splice.link.samples = 20 := by
    simp [mem_dueCommands, mem_delayCommands, pins]
  rw [brings, samples]
  refine and_congr_right fun _ => ?_
  split
  · next h => simp [h]
  · next h => simp [h]

theorem tick_brings_standPoll (s : State) : Instr.standPoll ∈ dueCommands s s.count ↔ (s.splice.link.poll + 1) % 100 = 0 := by
  have poll : s.count.splice.link.poll = (s.splice.link.poll + 1) % 100 := rfl
  simp [mem_dueCommands, mem_delayCommands, poll]

theorem tick_brings_driveGoodDelay (s : State) (x : Stream) (arm : Arm) : Instr.driveGoodDelay x arm ∈ dueCommands s s.count ↔
    (s.arm x arm).driveEnable = true ∧ (s.streamProfile x).driveMode.delay? = some ((s.arm x arm).delay + 1) := by
  have profile : s.count.streamProfile x = s.streamProfile x := rfl
  have brings : Instr.driveGoodDelay x arm ∈ dueCommands s s.count ↔ ∃ d, (s.streamProfile x).driveMode.delay? = some d ∧
      (s.count.arm x arm).delay = d ∧ (s.arm x arm).delay < d := by
    simp [mem_dueCommands, mem_delayCommands, ← profile]
  rw [brings, count_arm]
  constructor
  · rintro ⟨d, mode, reached⟩
    obtain ⟨enabled, rfl⟩ := ((s.arm x arm).tick_reaches (DriveMode.delay?_le mode)).mp reached
    exact ⟨enabled, mode⟩
  · rintro ⟨enabled, mode⟩
    exact ⟨_, mode, ((s.arm x arm).tick_reaches (DriveMode.delay?_le mode)).mpr ⟨enabled, rfl⟩⟩

theorem tick_brings_firePulseEnd (s : State) (x : Stream) : Instr.firePulseEnd x ∈ dueCommands s s.count ↔
    (s.stream x).fire = true ∧ (s.stream x).fireLeft ≤ 1 := by
  have brings : Instr.firePulseEnd x ∈ dueCommands s s.count ↔
      (s.count.stream x).fire = true ∧ (s.count.stream x).fireLeft = 0 := by
    simp [mem_dueCommands, mem_delayCommands]
  rw [brings, count_stream]
  exact and_congr_right fun _ => Nat.sub_eq_zero_iff_le

theorem tick_brings_donePulse (s : State) (x : Stream) : Instr.donePulse x ∈ dueCommands s s.count ↔
    (s.stream x).doneSample = .once ∧ s.pins.done.get x = true := by
  have brings : Instr.donePulse x ∈ dueCommands s s.count ↔
      (s.stream x).doneSample = .once ∧ (s.count.stream x).doneSample = .high := by
    simp [mem_dueCommands, mem_delayCommands]
  rw [brings, count_stream]
  exact DoneSample.next_accepts _ _

theorem tick_brings_standTransactionStart (s : State) : Instr.standTransactionStart ∈ dueCommands s s.count ↔
    s.splice.link.busy = none ∧ ∃ x, (s.streamProfile x).active = true ∧
      (((s.stream x).writePending = true ∧ (s.stream x).linkFault = false) ∨ (s.stream x).readPending = true) := by
  have busy : s.count.splice.link.busy = s.splice.link.busy := rfl
  rw [← count_nextTransaction, ← busy]
  simp [mem_dueCommands, mem_delayCommands]

theorem tick_brings_only {s : State} {i : Instr} (h : i ∈ dueCommands s s.count) :
    i = .tenMsUpdate ∨ i = .entryIntoAStop ∨ i = .standPoll ∨ i = .standTransactionStart ∨
      (∃ n, i = .takeStopZone n) ∨ (∃ b, i = .standInterruptChange b) ∨ (∃ x arm, i = .driveGoodDelay x arm) ∨
      (∃ x, i = .firePulseEnd x) ∨ ∃ x, i = .donePulse x := by
  rw [mem_dueCommands, mem_delayCommands] at h
  rcases h with ⟨rfl, -⟩ | ⟨rfl, -⟩ | ⟨n, -, -, rfl⟩ | ⟨rfl, -⟩ | ⟨rfl, -⟩ | ⟨x, arm, -, -, -, -, rfl⟩ | ⟨x, -, -, rfl⟩ | ⟨x, -, -, rfl⟩ |
    ⟨rfl, -⟩ <;> simp

/-- Settles O2: the timers count as `State.count` says, and each command comes at its own moment. -/
theorem emptyQueueTakesOneTick : Obligations.EmptyQueueTakesOneTick := by
  intro s idle
  refine ⟨fun held => by rw [step_idle idle, tick_held held], fun running => ?_⟩
  have tick : step s = .next { s.count with pending := dueCommands s s.count } := by
    rw [step_idle idle, tick_running running, idle, List.nil_append]
  have frame : { s with pending := [] } = s := by rw [← idle]
  exact ⟨_, tick, rfl, rfl, rfl, rfl, count_zeroSpeedTime s, rfl, fun x arm => (count_arm s x arm).trans (ArmRec.tick_eq _),
    count_stream_fields s, rfl, tick_brings_tenMsUpdate s, tick_brings_entryIntoAStop s, tick_brings_firePulseEnd s, tick_brings_donePulse s,
    tick_brings_standPoll s, tick_brings_takeStopZone s, tick_brings_standInterruptChange s, tick_brings_driveGoodDelay s,
    tick_brings_standTransactionStart s, fun _ => tick_brings_only, frame⟩

end Sys2Proof.Machine
end

section
/-! PROOF. Pulses, and the acts that follow from a counter update: which they are, their order, and how they are carried out
(R4 to R8, R10, R109; logs 7 to 9). -/

namespace Sys2Proof.Machine

variable {s t u : State}

/-! ### Pulses (R4 to R8) -/

/-- The acts that follow from a command leave the channels (log 8). -/
theorem channel_settled (s : State) (c : Channel) : s.settled.channel c = s.channel c := by
  unfold State.channel
  rw [(settled_untouched s).lmu]

@[simp] theorem channel_push (s : State) (ts : List Task) (c : Channel) : (s.push ts).channel c = s.channel c := rfl

theorem channel_setChannel_other (s : State) {c d : Channel} (h : d ≠ c) (r : ChannelRec) :
    (s.setChannel c r).channel d = s.channel d := PerChannel.get_set_other _ _ _ _ h

theorem channel_updateChannel (s : State) (c d : Channel) (r : ChannelRec) :
    (s.updateChannel c r).channel d = (s.setChannel c r).channel d := by
  unfold State.updateChannel
  rcases (s.setChannel c r).raiseIf_eq ((s.channel c).newDoubt r) .trackDoubt with e | e <;> rw [e]
  rfl

theorem work_updateChannel (s : State) (c : Channel) (r : ChannelRec) : (s.updateChannel c r).work = s.work := by
  unfold State.updateChannel
  rcases (s.setChannel c r).raiseIf_eq ((s.channel c).newDoubt r) .trackDoubt with e | e <;> rw [e]
  · rfl
  · rfl

@[simp] theorem State.push_nil (s : State) : s.push [] = s := by
  unfold State.push
  rw [List.append_nil]

/-- Case 1 of R5: back-travel takes the whole weight. -/
theorem ChannelRec.forward_held (r : ChannelRec) {w : Nat} (h : w ≤ r.backTravel) : r.forward w =
    { r with levelA := !r.levelB, levelB := r.levelA, backTravel := r.backTravel - w } := by
  unfold ChannelRec.forward
  exact if_pos h

/-- Cases 2 to 4 of R5: what back-travel leaves of the weight joins the fraction. -/
theorem ChannelRec.forward_counted (r : ChannelRec) {w : Nat} (h : r.backTravel < w) : r.forward w =
    let acc := r.fraction + (w - r.backTravel)
    let counter := min (r.counter + acc / 1024) (2 ^ 40 - 1)
    { r with
      levelA := !r.levelB, levelB := r.levelA, backTravel := 0, fraction := acc % 1024, counter := counter
      gain := min (r.gain + (counter - r.counter)) 65535
      saturated := r.saturated || decide (2 ^ 40 - 1 < r.counter + acc / 1024) } := by
  have added : r.added w = w - r.backTravel := if_neg (not_le.mpr h)
  unfold ChannelRec.forward
  refine (if_neg (not_le.mpr h)).trans ?_
  have same : ChannelRec.added { r with levelA := !r.levelB, levelB := r.levelA } w = w - r.backTravel := added
  rw [same]
  rfl

theorem ChannelRec.forward_frame (r : ChannelRec) (w : Nat) : (r.forward w).levels = quadratureNext r.levels ∧
    (r.forward w).capped = r.capped ∧ (r.forward w).speed = r.speed ∧ (r.forward w).buckets = r.buckets := by
  have levels : ((!r.levelB, r.levelA) : Bool × Bool) = quadratureNext r.levels := by
    unfold ChannelRec.levels
    cases r.levelA <;> cases r.levelB <;> rfl
  unfold ChannelRec.forward
  dsimp only
  split <;> exact ⟨levels, rfl, rfl, rfl⟩

/-- The gain of a pulse is what its forward record's accumulator overflows by (R5). -/
theorem ChannelRec.pulseGain_counted (r : ChannelRec) {w : Nat} (h : r.backTravel < w) :
    r.pulseGain w = (r.fraction + (w - r.backTravel)) / 1024 := by
  unfold ChannelRec.pulseGain ChannelRec.added
  rw [if_neg (not_le.mpr h), if_neg (not_le.mpr h)]

/-- A pulse with a gain is a counter update of its channel (R10). -/
theorem pulseActs_update {c : Channel} (h : (s.channel c).backTravel < s.pulseWeight c)
    (gain : 1 ≤ ((s.channel c).fraction + (s.pulseWeight c - (s.channel c).backTravel)) / 1024) :
    s.pulseActs c = updateActs c := by
  rw [← (s.channel c).pulseGain_counted h] at gain
  exact if_pos gain

theorem pulseActs_none {c : Channel} (h : s.pulseWeight c ≤ (s.channel c).backTravel ∨
    ((s.channel c).fraction + (s.pulseWeight c - (s.channel c).backTravel)) / 1024 = 0) : s.pulseActs c = [] := by
  have gain : (s.channel c).pulseGain (s.pulseWeight c) = 0 := by
    rcases Nat.lt_or_ge (s.channel c).backTravel (s.pulseWeight c) with k | k
    · rw [(s.channel c).pulseGain_counted k]
      exact h.resolve_left (not_le.mpr k)
    · exact if_pos k
  unfold State.pulseActs
  rw [gain]
  rfl

/-- A forward pulse raises TRACK_DOUBT exactly where SATURATED joins (R8). -/
theorem updateChannel_forward (s : State) (c : Channel) (w : Nat) :
    s.updateChannel c ((s.channel c).forward w) =
      if (s.channel c).saturated = false ∧ ((s.channel c).forward w).saturated = true then
        (s.setChannel c ((s.channel c).forward w)).raise .trackDoubt
      else s.setChannel c ((s.channel c).forward w) := by
  have joins : (s.channel c).newDoubt ((s.channel c).forward w) = true ↔
      (s.channel c).saturated = false ∧ ((s.channel c).forward w).saturated = true := by
    unfold ChannelRec.newDoubt
    rw [((s.channel c).forward_frame w).2.1]
    simp [and_comm]
  unfold State.updateChannel State.raiseIf
  simp only [joins]

theorem forwardPulse_rule : Rule.ForwardPulse := by
  intro c s running
  have exec := exec_settles (.forwardPulse c) s nofun nofun running
  obtain ⟨levels, capped, speed, buckets⟩ := (s.channel c).forward_frame (s.pulseWeight c)
  have record : (s.forwardPulse c).settled.channel c = (s.channel c).forward (s.pulseWeight c) := by
    rw [channel_settled, State.forwardPulse, channel_push, channel_updateChannel, State.channel_setChannel]
  have others : ∀ d, d ≠ c → (s.forwardPulse c).settled.channel d = s.channel d := fun d h => by
    rw [channel_settled, State.forwardPulse, channel_push, channel_updateChannel, channel_setChannel_other s h]
  refine ⟨_, exec, ?_⟩
  intro w r r' acc
  have r'_eq : r' = r.forward w := record
  clear_value r'
  subst r'_eq
  refine ⟨fun h => ?_, fun h => ?_, levels, capped, speed, buckets, others, ?_⟩
  · rw [r.forward_held h]
    exact ⟨rfl, rfl, rfl, rfl, rfl⟩
  · rw [r.forward_counted h]
    exact ⟨rfl, rfl, rfl, rfl, rfl⟩
  · have change := updateChannel_forward s c w
    intro u
    have u_eq : s.updateChannel c (r.forward w) = u := change
    have work : u.work = s.work := by rw [← u_eq, work_updateChannel]
    refine ⟨fun h gain => ?_, fun h quiet => ?_⟩
    · have acts : s.pulseActs c = updateActs c := pulseActs_update h gain
      have pushed : s.forwardPulse c = { u with work := s.work ++ updateActs c } := by
        rw [State.forwardPulse, acts, ← work]
        exact congrArg (State.push · (updateActs c)) u_eq
      exact congrArg State.settled pushed
    · have acts : s.pulseActs c = [] := pulseActs_none h
      have same : s.forwardPulse c = u := by
        rw [State.forwardPulse, acts, State.push_nil]
        exact u_eq
      change (s.forwardPulse c).settled = u
      rw [same, settled_nil u (work.trans quiet)]

/-! ### The order of the acts (logs 7 to 9) -/

/-- Every recomputation ends with the acts that follow from it (logs 51, 52, 66). -/
theorem recompute_tracking (h : s.part = .tracking) : ∃ before : State, s.recompute = before.push recomputeActs :=
  ⟨_, if_pos (by simp [State.tracking, h])⟩

theorem actEffects_rule : Rule.ActEffects := by
  intro s
  refine ⟨rfl, fun _ _ => rfl, fun _ => rfl, rfl, rfl, rfl, rfl, fun _ => ⟨rfl, rfl, rfl, rfl, rfl, rfl, rfl⟩,
    fun _ => ⟨rfl, rfl⟩, rfl, rfl, rfl, fun _ => rfl, fun setup => ?_, fun tracking => ?_⟩
  · unfold State.recompute State.tracking
    rw [setup]
    rfl
  · obtain ⟨before, e⟩ := recompute_tracking tracking
    exact ⟨before.work, congrArg State.work e⟩

/-- With no recomputation among them, acts stay as they are. -/
theorem lastRecompute_of_not_mem {acts : List Task} (h : Task.recompute ∉ acts) : lastRecompute acts = acts := by
  induction acts with
  | nil => rfl
  | cons a l ih =>
    obtain ⟨ne, rest⟩ := List.ne_and_not_mem_of_not_mem_cons h
    unfold lastRecompute
    rw [ih rest]
    refine if_neg ?_
    simp [ne.symm]

/-- Of several recomputations the last stays in its place. -/
theorem lastRecompute_append {before behind : List Task} (h : Task.recompute ∉ behind) :
    lastRecompute (before ++ .recompute :: behind) = before.filter (fun a => a != .recompute) ++ .recompute :: behind := by
  induction before with
  | nil =>
    rw [List.nil_append, lastRecompute, if_neg (by simp [h]), lastRecompute_of_not_mem h]
    rfl
  | cons a l ih =>
    rw [List.cons_append, lastRecompute, ih]
    by_cases e : a = .recompute
    · simp [e]
    · simp [e]

/-- What `lastRecompute` drops are recomputations alone. -/
theorem filter_lastRecompute {p : Task → Bool} (h : p .recompute = false) (l : List Task) :
    (lastRecompute l).filter p = l.filter p := by
  induction l with
  | nil => rfl
  | cons a l ih =>
    unfold lastRecompute
    split
    · next k =>
      simp only [Bool.and_eq_true, beq_iff_eq] at k
      rw [ih, k.1, List.filter_cons_of_neg (by simp [h])]
    · rw [List.filter_cons, List.filter_cons, ih]

/-- One recomputation is left of those that are due. -/
theorem filter_recompute_lastRecompute (l : List Task) :
    (lastRecompute l).filter (fun b => b == .recompute) = if Task.recompute ∈ l then [.recompute] else [] := by
  induction l with
  | nil => rfl
  | cons a l ih =>
    unfold lastRecompute
    split
    · next k =>
      simp only [Bool.and_eq_true, beq_iff_eq, List.contains_eq_mem, decide_eq_true_eq] at k
      rw [ih, if_pos k.2, if_pos (List.mem_cons_of_mem _ k.2)]
    · next k =>
      rw [List.filter_cons, ih]
      by_cases e : a = .recompute
      · have last : Task.recompute ∉ l := fun m => k (by simp [e, m])
        simp [e, last]
      · simp [e, Ne.symm e]

theorem onSlot_iff (a : Task) : a.onSlot = true ↔ ∃ x, a = .doneWindow x ∨ a = .commitTest x ∨ a = .wrongGrade x ∨
    a = .fireTest x ∨ a = .runout x ∨ a = .deferred x ∨ a = .slotFree x := by
  cases a <;> simp [Task.onSlot]

theorem contains_lastRecompute (l : List Task) : ((lastRecompute l).contains .recompute = true) = (Task.recompute ∈ l) := by
  rw [List.contains_eq_mem, decide_eq_true_eq, mem_lastRecompute]

theorem actOrder_rule : Rule.ActOrder := by
  refine ⟨fun _ => lastRecompute_of_not_mem, fun _ _ => lastRecompute_append, onSlot_iff, fun a new rest => ?_⟩
  intro left fresh
  refine ⟨fun h => ?_, ?_⟩
  · unfold mergeWork
    simp only [contains_lastRecompute, if_neg h]
    rfl
  · unfold mergeWork afterRecompute
    simp only [contains_lastRecompute, if_true]
    rw [filter_recompute_lastRecompute, filter_lastRecompute (by rfl)]

theorem actsInTurn_rule : Rule.ActsInTurn := by
  refine ⟨fun _ => rfl, fun n s h => ?_, fun n s a rest due => ?_⟩
  · rcases h with rfl | h
    · rfl
    · exact settle_nil n s h
  · rw [settle, due]

/-- Settles O6. -/
theorem forwardPulseCounts : Obligations.ForwardPulseCounts :=
  ⟨forwardPulse_rule, ⟨rfl, rfl, rfl⟩, actEffects_rule, actOrder_rule, actsInTurn_rule⟩

/-! ### Reverse pulses (R6, R8) -/

/-- A reverse pulse raises TRACK_DOUBT exactly where CAPPED joins (R8). -/
theorem updateChannel_reverse (s : State) (c : Channel) (w : Nat) :
    s.updateChannel c ((s.channel c).reverse w) =
      if min ((s.channel c).backTravel + w) 16777215 = 16777215 ∧ (s.channel c).capped = false then
        (s.setChannel c ((s.channel c).reverse w)).raise .trackDoubt
      else s.setChannel c ((s.channel c).reverse w) := by
  have joins : (s.channel c).newDoubt ((s.channel c).reverse w) = true ↔
      min ((s.channel c).backTravel + w) 16777215 = 16777215 ∧ (s.channel c).capped = false := by
    unfold ChannelRec.newDoubt ChannelRec.reverse Config.backMax
    cases (s.channel c).capped <;> simp
  unfold State.updateChannel State.raiseIf
  simp only [joins]

/-- Settles O7. -/
theorem reversePulseHoldsBackTravel : Obligations.ReversePulseHoldsBackTravel := by
  intro c s running quiet
  have reverse : exec (.reversePulse c) s = .next (s.updateChannel c ((s.channel c).reverse (s.pulseWeight c))) :=
    exec_quiet (.reversePulse c) s nofun nofun running ((work_updateChannel _ _ _).trans quiet)
  have forward : ((s.forwardPulse c).settled.channel c).levels = quadratureNext (s.channel c).levels := by
    rw [channel_settled, State.forwardPulse, channel_push, channel_updateChannel, State.channel_setChannel]
    exact ((s.channel c).forward_frame _).1
  refine ⟨?_, ?_, ⟨_, exec_settles (.forwardPulse c) s nofun nofun running, forward⟩,
    exec_quiet (.bothLevelsChange c) s nofun nofun running quiet⟩
  · rw [reverse, updateChannel_reverse]
    rfl
  · unfold ChannelRec.levels
    cases (s.channel c).levelA <;> cases (s.channel c).levelB <;> rfl

end Sys2Proof.Machine
end

section
/-! PROOF. The question of R21, the places of seams, and the entry into a stop (R12, R21, R29, R30, R15, R37, R38). -/

namespace Sys2Proof.Machine

variable {s t u : State}

/-! ### The question of R21 -/

theorem mem_marks (s : State) (m : LaneMark) : m ∈ s.marks ↔ ∃ l, m ∈ (s.lane l).marks := by
  unfold State.marks
  rw [List.mem_append]
  constructor
  · rintro (h | h)
    · exact ⟨.one, h⟩
    · exact ⟨.two, h⟩
  · rintro ⟨l, h⟩
    cases l
    · exact .inl h
    · exact .inr h

theorem overlaps_iff (x : Extent) (a b : Pos) : x.overlaps a b = true ↔ x.start < b ∧ ∀ e, x.finish = some e → a < e := by
  unfold Extent.overlaps beforeEnd
  cases x.finish <;> simp

theorem markOverlaps_iff (s : State) (m : LaneMark) (a b : Pos) : s.markOverlaps m a b = true ↔
    (s.seamExtent (s.predicted m) m.stream m.fast m.unsynced).1 < b ∧
      a < (s.seamExtent (s.predicted m) m.stream m.fast m.unsynced).2 := by
  unfold State.markOverlaps
  simp

/-- A lane mark overlaps a stretch. -/
theorem anyMark_iff (s : State) (a b : Pos) : (s.marks.any fun m => s.markOverlaps m a b) = true ↔
    ∃ l, ∃ m ∈ (s.lane l).marks, (s.seamExtent (s.predicted m) m.stream m.fast m.unsynced).1 < b ∧
      a < (s.seamExtent (s.predicted m) m.stream m.fast m.unsynced).2 := by
  simp only [List.any_eq_true, mem_marks, markOverlaps_iff, exists_and_right, exists_comm (α := Lane)]

theorem mem_overlappedCauses (track : List Extent) (a b : Pos) (start : List Cause) (c : Cause) :
    c ∈ track.foldl (fun acc x => if x.overlaps a b then unionCauses acc x.causes else acc) start ↔
      c ∈ start ∨ ∃ x ∈ track, x.overlaps a b = true ∧ c ∈ x.causes := by
  induction track generalizing start with
  | nil => simp
  | cons y l ih =>
    rw [List.foldl_cons, ih]
    by_cases h : y.overlaps a b = true
    · simp [h, mem_unionCauses, or_assoc]
    · simp [h]

theorem mapAnswer_rule : Rule.MapAnswer := by
  intro s a b _
  refine ⟨?_, fun c => ?_⟩
  · unfold State.overlapped
    rw [Bool.or_eq_true, anyMark_iff, List.any_eq_true]
    simp only [overlaps_iff]
  · have track : c ∈ s.map.track.foldl (fun acc x => if x.overlaps a b then unionCauses acc x.causes else acc) [] ↔
        ∃ x ∈ s.map.track, x.start < b ∧ (∀ e, x.finish = some e → a < e) ∧ c ∈ x.causes := by
      rw [mem_overlappedCauses]
      simp only [overlaps_iff, List.not_mem_nil, false_or, and_assoc]
    unfold State.causesOver
    dsimp only
    rw [← anyMark_iff, ← track]
    split
    · next h => simp [mem_unionCauses, h]
    · next h => simp [h]

/-! ### Where seams lie (R12, R29, R30) -/

/-- The extra length of an UNSYNCED lane's seams; S5 has no lane (R30). -/
def State.unsyncedExtra (s : State) (x : Stream) : Nat :=
  match x.lane with
  | some l => (s.laneProfile l).unsyncedExtra
  | none => 0

/-- A seam's extent by its stream's lead, trail and extras (R30). -/
theorem seamExtent_eq (s : State) (p : Pos) (x : Stream) (fast unsynced : Bool) : s.seamExtent p x fast unsynced =
    let extra : Nat := (if fast = true then (s.streamProfile x).fastExtra else 0) +
      (if unsynced = true then s.unsyncedExtra x else 0)
    (max 0 (p - ((s.streamProfile x).seamLead + extra : Nat)), p + ((s.streamProfile x).seamTrail + extra : Nat)) := by
  unfold State.seamExtent State.unsyncedExtra
  cases x.lane <;> cases fast <;> cases unsynced <;> simp [Int.sub_sub, Int.add_assoc]

theorem seamPlaces_rule : Rule.SeamPlaces := by
  intro s offset widened
  have seamOffset : ∀ x, s.seamOffset x = (s.streamProfile x).splicerDistance + offset x := fun x => by cases x <;> rfl
  refine ⟨seamOffset, fun m => ?_, fun p x fast unsynced => ?_⟩
  · unfold State.predicted
    rw [seamOffset, Int.add_assoc]
  · have lane : widened x = s.unsyncedExtra x := by cases x <;> rfl
    rw [lane]
    exact seamExtent_eq s p x fast unsynced

/-- Settles O12. -/
theorem mapAnswersForAStretch : Obligations.MapAnswersForAStretch := ⟨mapAnswer_rule, seamPlaces_rule⟩

/-! ### Stop zones (R37, R38) -/

/-- Nothing but the map, the ports and the acts due has changed. -/
def MapAlone (s t : State) : Prop := { t with map := s.map, ports := s.ports, work := s.work } = s

theorem MapAlone.refl (s : State) : MapAlone s s := rfl

theorem MapAlone.trans (h : MapAlone s t) (k : MapAlone t u) : MapAlone s u := by
  unfold MapAlone at *
  calc ({ u with map := s.map, ports := s.ports, work := s.work } : State)
      = { { u with map := t.map, ports := t.ports, work := t.work } with map := s.map, ports := s.ports, work := s.work } := rfl
    _ = { t with map := s.map, ports := s.ports, work := s.work } := by rw [k]
    _ = s := h

/-- An extent inserted and a notice raised: nothing but the track, the ports and the acts due changes. -/
theorem insertExtent_raise_mapAlone (s : State) (x : Extent) (n : Notice) : MapAlone s ((s.insertExtent x).raise n) :=
  (insertExtent_frame s x).1

theorem insertExtent_map (s : State) (x : Extent) :
    (s.insertExtent x).map.lanes = s.map.lanes ∧ (s.insertExtent x).map.zoneTaken = s.map.zoneTaken := by
  have h := (insertExtent_frame s x).2
  exact ⟨(congrArg WebMap.lanes h :), (congrArg WebMap.zoneTaken h :)⟩

/-- The state with an entry's marker set. -/
def State.markZone (s : State) (n : Nat) : State :=
  { s with map := { s.map with zoneTaken := modify1 s.map.zoneTaken n fun _ => true } }

/-- The extent of an entry's stop zone at the present L. -/
def State.stopZone (s : State) (e : EntryProfile) : Extent := .closed (s.knife + e.dNear) (s.knife + e.dFar) .stop

theorem takeZone_web {n : Nat} {e : EntryProfile} (h : nth1 s.profile.entries n = some e) (web : e.dNear < e.dFar) :
    s.takeZone n = ((s.markZone n).insertExtent (s.stopZone e)).raise .stopZone := by
  unfold State.takeZone
  rw [h]
  exact if_pos web

theorem takeZone_bare {n : Nat} {e : EntryProfile} (h : nth1 s.profile.entries n = some e) (bare : e.dFar ≤ e.dNear) :
    s.takeZone n = s.markZone n := by
  unfold State.takeZone
  rw [h]
  exact if_neg (not_lt.mpr bare)

/-- What taking an entry's zone leaves alone, and its marker (R38). -/
theorem takeZone_frame {n : Nat} {e : EntryProfile} (h : nth1 s.profile.entries n = some e) : MapAlone s (s.takeZone n) ∧
    (s.takeZone n).map.lanes = s.map.lanes ∧ (s.takeZone n).map.zoneTaken = modify1 s.map.zoneTaken n fun _ => true := by
  rcases Nat.lt_or_ge e.dNear e.dFar with web | bare
  · rw [takeZone_web h web]
    obtain ⟨lanes, markers⟩ := insertExtent_map (s.markZone n) (s.stopZone e)
    have marked : MapAlone s (s.markZone n) := rfl
    exact ⟨marked.trans (insertExtent_raise_mapAlone _ _ _), lanes, markers⟩
  · rw [takeZone_bare h bare]
    exact ⟨rfl, rfl, rfl⟩

/-- Ports that only grow keep their class tables' lengths. -/
theorem PortGrows.classCount {r v : PortRec} (h : PortGrows r v) : v.classes.length = r.classes.length := by
  simpa using congrArg List.length h.enables

/-- A zone that covers web covers it with cause STOP and raises STOP_ZONE (R38). -/
theorem takeZone_covers {n : Nat} {e : EntryProfile} (h : nth1 s.profile.entries n = some e) (web : e.dNear < e.dFar) :
    (s.takeZone n).covers .stop ((s.mainCount : Int) + e.dNear) ((s.mainCount : Int) + e.dFar) ∧
    ((s.port .wet).classes.length = 13 → ((s.takeZone n).port .wet).rawOf 10 = true) := by
  rw [takeZone_web h web]
  refine ⟨insertExtent_closed_covers (s.markZone n) .stop _ _ none, fun classes => ?_⟩
  have grown := ((Untouched.refl (s.markZone n)).insertExtent (s.stopZone e)).ports .wet
  have room : 10 < (((s.markZone n).insertExtent (s.stopZone e)).port .wet).classes.length := by
    rw [grown.classCount]
    change 10 < (s.port .wet).classes.length
    omega
  unfold State.raise
  rw [show Notice.stopZone.port = .wet from rfl, State.port_setPort]
  exact PortRec.raise_raw _ _ room

/-- One step of the examination of R38: the zone of an entry is taken where it is due. -/
def State.takeIfDue (t : State) (n : Nat) : State := if t.zoneDue n then t.takeZone n else t

theorem zoneDue_iff (s : State) (n : Nat) : s.zoneDue n = true ↔ s.lmu.stopped = true ∧
    nth1 s.map.zoneTaken n = some false ∧
    ∃ e, nth1 s.profile.entries n = some e ∧ e.enable = true ∧ e.stopTolerance ≤ s.lmu.stopDuration := by
  unfold State.zoneDue State.zoneFree
  cases s.lmu.stopped <;> cases nth1 s.profile.entries n <;> cases nth1 s.map.zoneTaken n <;>
    simp [and_left_comm, and_assoc]

theorem takeIfDue_due {n : Nat} (h : s.zoneDue n = true) : s.takeIfDue n = s.takeZone n := if_pos h

theorem takeIfDue_idle {n : Nat} (h : s.zoneDue n ≠ true) : s.takeIfDue n = s := if_neg h

theorem Untouched.takeIfDue (h : Untouched s t) (n : Nat) : Untouched s (t.takeIfDue n) := by
  unfold State.takeIfDue
  split
  · exact h.takeZone n
  · exact h

theorem takeIfDue_frame (s : State) (n : Nat) : MapAlone s (s.takeIfDue n) ∧ (s.takeIfDue n).map.lanes = s.map.lanes := by
  by_cases h : s.zoneDue n = true
  · obtain ⟨-, -, e, he, -, -⟩ := (zoneDue_iff s n).mp h
    obtain ⟨frame, lanes, -⟩ := takeZone_frame he
    rw [takeIfDue_due h]
    exact ⟨frame, lanes⟩
  · rw [takeIfDue_idle h]
    exact ⟨.refl s, rfl⟩

theorem nth1_modify1_const {α : Type} (l : List α) (n m : Nat) (v : α) :
    nth1 (modify1 l n fun _ => v) m = if m = n then (nth1 l m).map fun _ => v else nth1 l m := by
  cases n with
  | zero =>
    cases m with
    | zero => rfl
    | succ m => rfl
  | succ n =>
    cases m with
    | zero => rfl
    | succ m =>
      simp only [nth1, modify1, List.getElem?_modify, Nat.add_right_cancel_iff]
      by_cases h : m = n
      · subst h
        simp
      · simp [h, Ne.symm h]

/-- The markers after one entry has been examined. -/
theorem takeIfDue_marker (s : State) (n m : Nat) : nth1 (s.takeIfDue n).map.zoneTaken m =
    if m = n ∧ s.zoneDue n = true then some true else nth1 s.map.zoneTaken m := by
  by_cases h : s.zoneDue n = true
  · obtain ⟨-, clear, e, he, -, -⟩ := (zoneDue_iff s n).mp h
    rw [takeIfDue_due h, (takeZone_frame he).2.2, nth1_modify1_const]
    by_cases k : m = n
    · subst k
      simp [h, clear]
    · simp [k]
  · rw [takeIfDue_idle h]
    simp [h]

/-- An entry examined leaves the other entries' zones due as they were. -/
theorem takeIfDue_zoneDue (s : State) (n m : Nat) :
    (s.takeIfDue n).zoneDue m = true ↔ s.zoneDue m = true ∧ m ≠ n := by
  have kept := (Untouched.refl s).takeIfDue n
  rw [zoneDue_iff, zoneDue_iff, kept.lmu, kept.profile, takeIfDue_marker]
  by_cases k : m = n
  · subst k
    by_cases h : s.zoneDue m = true
    · simp [h]
    · have idle := mt (zoneDue_iff s m).mpr h
      simp only [h, and_false, ne_eq, not_true_eq_false]
      exact iff_of_false idle id
  · simp [k]

theorem takeIfDue_covers {c : Cause} {first last : Pos} (h : s.covers c first last) (n : Nat) :
    (s.takeIfDue n).covers c first last := by
  unfold State.takeIfDue
  split
  · unfold State.takeZone
    split
    · dsimp only
      split
      · exact insertExtent_covers _ _ _ _ _ h
      · exact h
    · exact h
  · exact h

theorem foldl_takeIfDue_covers {c : Cause} {first last : Pos} (l : List Nat) (h : s.covers c first last) :
    (l.foldl State.takeIfDue s).covers c first last := by
  induction l generalizing s with
  | nil => exact h
  | cons n l ih => exact ih (takeIfDue_covers h n)

theorem foldl_takeIfDue_untouched (s : State) (l : List Nat) : Untouched s (l.foldl State.takeIfDue s) :=
  Untouched.foldl _ (fun n k => k.takeIfDue n) l (.refl s)

/-- What the examination of some entries leaves alone (R38). -/
theorem foldl_takeIfDue_frame (s : State) (l : List Nat) :
    MapAlone s (l.foldl State.takeIfDue s) ∧ (l.foldl State.takeIfDue s).map.lanes = s.map.lanes := by
  induction l generalizing s with
  | nil => exact ⟨.refl s, rfl⟩
  | cons n l ih =>
    obtain ⟨frame, lanes⟩ := takeIfDue_frame s n
    obtain ⟨rest, restLanes⟩ := ih (s.takeIfDue n)
    exact ⟨frame.trans rest, restLanes.trans lanes⟩

/-- The markers of the entries examined whose zones were due are set. -/
theorem foldl_takeIfDue_marker (s : State) (l : List Nat) (m : Nat) : nth1 (l.foldl State.takeIfDue s).map.zoneTaken m =
    if m ∈ l ∧ s.zoneDue m = true then some true else nth1 s.map.zoneTaken m := by
  induction l generalizing s with
  | nil => simp
  | cons n l ih =>
    rw [List.foldl_cons, ih, takeIfDue_marker]
    simp only [takeIfDue_zoneDue, List.mem_cons]
    by_cases k : m = n
    · subst k
      simp
    · simp [k]

/-- A zone that was due and covers web has been taken (R38). -/
theorem foldl_takeIfDue_takes {l : List Nat} {m : Nat} {e : EntryProfile} (h : m ∈ l) (due : s.zoneDue m = true)
    (entry : nth1 s.profile.entries m = some e) (web : e.dNear < e.dFar) :
    (l.foldl State.takeIfDue s).covers .stop ((s.mainCount : Int) + e.dNear) ((s.mainCount : Int) + e.dFar) ∧
    ((s.port .wet).classes.length = 13 → ((l.foldl State.takeIfDue s).port .wet).rawOf 10 = true) := by
  induction l generalizing s with
  | nil => cases h
  | cons n l ih =>
    rw [List.foldl_cons]
    by_cases k : m = n
    · subst k
      obtain ⟨covers, raised⟩ := takeZone_covers entry web
      rw [takeIfDue_due due]
      exact ⟨foldl_takeIfDue_covers l covers,
        fun classes => ((foldl_takeIfDue_untouched _ l).ports .wet).raw 10 (raised classes)⟩
    · have kept := (Untouched.refl s).takeIfDue n
      have later := ih (s := s.takeIfDue n) ((List.mem_cons.mp h).resolve_left k)
        ((takeIfDue_zoneDue s n m).mpr ⟨due, k⟩) (by rw [kept.profile]; exact entry)
      have count : (s.takeIfDue n).mainCount = s.mainCount := by
        unfold State.mainCount
        rw [kept.lmu]
      rw [count, (kept.ports .wet).classCount] at later
      exact later

/-- With no zone due that covers web, an examination changes markers alone. -/
theorem foldl_takeIfDue_bare (s : State) (l : List Nat)
    (h : ∀ m e, s.zoneDue m = true → nth1 s.profile.entries m = some e → e.dFar ≤ e.dNear) :
    (l.foldl State.takeIfDue s).map.track = s.map.track ∧ (l.foldl State.takeIfDue s).ports = s.ports ∧
      (l.foldl State.takeIfDue s).work = s.work := by
  induction l generalizing s with
  | nil => exact ⟨rfl, rfl, rfl⟩
  | cons n l ih =>
    have kept := (Untouched.refl s).takeIfDue n
    have one : (s.takeIfDue n).map.track = s.map.track ∧ (s.takeIfDue n).ports = s.ports ∧
        (s.takeIfDue n).work = s.work := by
      by_cases due : s.zoneDue n = true
      · obtain ⟨-, -, e, entry, -, -⟩ := (zoneDue_iff s n).mp due
        rw [takeIfDue_due due, takeZone_bare entry (h n e due entry)]
        exact ⟨rfl, rfl, rfl⟩
      · rw [takeIfDue_idle due]
        exact ⟨rfl, rfl, rfl⟩
    obtain ⟨track, ports, work⟩ := ih (s.takeIfDue n) fun m e due entry =>
      h m e ((takeIfDue_zoneDue s n m).mp due).1 (by rw [← kept.profile]; exact entry)
    exact ⟨track.trans one.1, ports.trans one.2.1, work.trans one.2.2⟩

theorem foldl_takeIfDue_idle (s : State) (l : List Nat) (h : ∀ m, s.zoneDue m ≠ true) : l.foldl State.takeIfDue s = s := by
  induction l with
  | nil => rfl
  | cons n l ih => rw [List.foldl_cons, takeIfDue_idle (h n), ih]

theorem foldl_takeIfDue_length (s : State) (l : List Nat) :
    (l.foldl State.takeIfDue s).map.zoneTaken.length = s.map.zoneTaken.length := by
  induction l generalizing s with
  | nil => rfl
  | cons n l ih =>
    rw [List.foldl_cons, ih]
    by_cases due : s.zoneDue n = true
    · obtain ⟨-, -, e, entry, -, -⟩ := (zoneDue_iff s n).mp due
      rw [takeIfDue_due due, (takeZone_frame entry).2.2, length_modify1]
    · rw [takeIfDue_idle due]

/-! ### The entry into a stop (R15, R37) -/

/-- The entry into a stop before any zone is taken. -/
def State.stopEntered (s : State) : State :=
  { s with
    lmu := s.lmu.enterStop s.profile.line.stopTime
    map := { s.map with zoneTaken := List.replicate 12 false } }

theorem enterStop_eq (s : State) : s.enterStop = entryNumbers.foldl State.takeIfDue s.stopEntered := rfl

theorem nth1_replicate {α : Type} {k n : Nat} (v : α) (low : 1 ≤ n) (high : n ≤ k) : nth1 (List.replicate k v) n = some v := by
  cases n with
  | zero => exact absurd low (by decide)
  | succ n => exact (List.getElem?_replicate ..).trans (if_pos high)

/-- At the entry into a stop the zones of tolerance 0 are due (R38). -/
theorem stopEntered_zoneDue (s : State) {n : Nat} {e : EntryProfile} (low : 1 ≤ n) (high : n ≤ 12)
    (entry : nth1 s.profile.entries n = some e) :
    s.stopEntered.zoneDue n = true ↔ e.enable = true ∧ e.stopTolerance = 0 := by
  have profile : s.stopEntered.profile = s.profile := rfl
  have clear : nth1 s.stopEntered.map.zoneTaken n = some false := nth1_replicate false low high
  have stopped : s.stopEntered.lmu.stopped = true := rfl
  have duration : s.stopEntered.lmu.stopDuration = 0 := rfl
  rw [zoneDue_iff, profile, clear, stopped, duration, entry]
  simp

theorem stopEntered_zoneDue_entry {n : Nat} {e : EntryProfile} (h : s.stopEntered.zoneDue n = true)
    (entry : nth1 s.profile.entries n = some e) : e.enable = true ∧ e.stopTolerance = 0 := by
  obtain ⟨-, -, v, found, enabled, tolerance⟩ := (zoneDue_iff _ _).mp h
  have same : e = v := Option.some.inj (entry.symm.trans found)
  subst same
  exact ⟨enabled, Nat.le_zero.mp tolerance⟩

/-- Settles O9. -/
theorem entryIntoAStopBeginsAStop : Obligations.EntryIntoAStopBeginsAStop := by
  intro s running
  refine ⟨fun moving quiet => ?_, fun clear still => ?_⟩
  · have none : actOf .entryIntoAStop s = s := by
      refine if_neg ?_
      unfold State.mayStop
      rcases moving with stopped | speed
      · simp [stopped]
      · have speed : s.lmu.channels.main.speed ≠ 0 := speed
        simp [speed]
    have quiet' : (actOf .entryIntoAStop s).work = [] := by rw [none, quiet]
    rw [exec_quiet .entryIntoAStop s nofun nofun running quiet', none]
  · have entered : actOf .entryIntoAStop s = s.enterStop := by
      refine if_pos ?_
      have still : s.lmu.channels.main.speed = 0 := still
      simp [State.mayStop, clear, still]
    have exec := exec_settles .entryIntoAStop s nofun nofun running
    rw [entered] at exec
    have kept := foldl_takeIfDue_untouched s.stopEntered entryNumbers
    rw [← enterStop_eq] at kept
    obtain ⟨frame, lanes⟩ := foldl_takeIfDue_frame s.stopEntered entryNumbers
    rw [← enterStop_eq] at frame lanes
    refine ⟨s.enterStop, s.enterStop.settled, exec, rfl, (settled_untouched _).lmu, kept.lmu, lanes, ?_, ?_, ?_, ?_, ?_⟩
    · rw [enterStop_eq, foldl_takeIfDue_length]
      rfl
    · intro n e low high entry
      have due := stopEntered_zoneDue s low high entry
      refine ⟨?_, fun enabled tolerance web => ?_⟩
      · rw [enterStop_eq, foldl_takeIfDue_marker]
        simp only [mem_entryNumbers]
        by_cases k : s.stopEntered.zoneDue n = true
        · obtain ⟨enabled, tolerance⟩ := due.mp k
          simp [k, low, high, enabled, tolerance]
        · have off : (e.enable && e.stopTolerance == 0) = false := by simpa using mt due.mpr k
          rw [if_neg fun h => k h.2, off]
          exact nth1_replicate false low high
      · exact foldl_takeIfDue_takes ((mem_entryNumbers n).mpr ⟨low, high⟩) (due.mpr ⟨enabled, tolerance⟩) entry web
    · intro bare
      refine foldl_takeIfDue_bare s.stopEntered entryNumbers fun m e due entry => ?_
      obtain ⟨enabled, tolerance⟩ := stopEntered_zoneDue_entry due entry
      exact bare e (nth1_mem entry) enabled tolerance
    · intro tolerances quiet
      have idle : s.enterStop = s.stopEntered := by
        refine foldl_takeIfDue_idle s.stopEntered entryNumbers fun m due => ?_
        obtain ⟨-, -, e, entry, enabled, -⟩ := (zoneDue_iff _ _).mp due
        exact tolerances e (nth1_mem entry) enabled (stopEntered_zoneDue_entry due entry).2
      rw [idle, settled_nil s.stopEntered quiet]
      rfl
    · have entry : { s.stopEntered with lmu := s.lmu, map := s.map } = s := rfl
      calc ({ s.enterStop with lmu := s.lmu, map := s.map, ports := s.ports, work := s.work } : State)
          = { { s.enterStop with map := s.stopEntered.map, ports := s.stopEntered.ports, work := s.stopEntered.work } with
              lmu := s.lmu, map := s.map } := rfl
        _ = { s.stopEntered with lmu := s.lmu, map := s.map } := by rw [show _ = s.stopEntered from frame]
        _ = s := entry

end Sys2Proof.Machine
end

section
/-! PROOF. Records as bytes: what stands where in a record (R207, R209), and the codes of R207. -/

namespace Sys2Proof.Machine

/-! ### Values and parts of records -/

theorem getElem?_le (w v i : Nat) (h : i < w) : (le w v)[i]? = some (BitVec.ofNat 8 (v / 256 ^ i)) := by
  induction w generalizing v i with
  | zero => omega
  | succ w ih =>
    cases i with
    | zero => simp [le]
    | succ i =>
      rw [le, List.getElem?_cons_succ, ih _ i (by omega), Nat.div_div_eq_div_mul, Nat.pow_succ']

@[simp] theorem length_le (w v : Nat) : (le w v).length = w := by
  induction w generalizing v with
  | zero => rfl
  | succ w ih => rw [le, List.length_cons, ih]

theorem HoldsAt.self (b : List Byte) : HoldsAt b 0 b := fun i _ => by rw [Nat.zero_add]

theorem holdsAt_of_eq {b c : List Byte} (h : b = c) : HoldsAt b 0 c := h ▸ HoldsAt.self b

theorem holdsAt_append {b x y : List Byte} {o : Nat} :
    HoldsAt b o (x ++ y) ↔ HoldsAt b o x ∧ HoldsAt b (o + x.length) y := by
  constructor
  · refine fun h => ⟨fun i hi => ?_, fun i hi => ?_⟩
    · rw [h i (by rw [List.length_append]; omega), List.getElem?_append_left hi]
    · rw [Nat.add_assoc, h (x.length + i) (by rw [List.length_append]; omega), List.getElem?_append_right (by omega),
        Nat.add_sub_cancel_left]
  · rintro ⟨hx, hy⟩ i hi
    rw [List.length_append] at hi
    by_cases hl : i < x.length
    · rw [hx i hl, List.getElem?_append_left hl]
    · have at_y := hy (i - x.length) (by omega)
      rw [show o + x.length + (i - x.length) = o + i by omega] at at_y
      rw [at_y, List.getElem?_append_right (by omega)]

theorem HoldsAt.trans {b p q : List Byte} {o k : Nat} (h : HoldsAt b o p) (hq : HoldsAt p k q) : HoldsAt b (o + k) q := by
  intro i hi
  have at_p := hq i hi
  have inside : k + i < p.length := by
    rw [List.getElem?_eq_getElem hi] at at_p
    exact (List.getElem?_eq_some_iff.mp at_p).1
  rw [Nat.add_assoc, h _ inside, at_p]

/-- The bytes of a figure in a field of `w` bytes (R207). -/
def Figure.bytes (w : Nat) : Figure → List Byte
  | .num v => le w v
  | .absent => absentField w
  | .place p => if p < 0 then le w (Config.negativePosition p).toNat else le w p.toNat
  | .signed v => le w (BitVec.ofInt 48 v).toNat

@[simp] theorem Figure.length_bytes (w : Nat) (f : Figure) : (f.bytes w).length = w := by
  cases f with
  | num v => exact length_le w v
  | absent => exact List.length_replicate
  | place p =>
    rw [Figure.bytes]
    split <;> exact length_le w _
  | signed v => exact length_le w _

theorem le_eq_bytes (w v : Nat) : le w v = (Figure.num v).bytes w := by rw [Figure.bytes]

theorem absentField_eq_bytes (w : Nat) : absentField w = Figure.absent.bytes w := by rw [Figure.bytes]

theorem opt_eq_bytes (w : Nat) (o : Option Nat) : opt w o = (Figure.num? o).bytes w := by cases o <;> rfl

theorem pos_eq_bytes (p : Pos) : pos p = (Figure.place p).bytes 6 := by rw [pos, Figure.bytes]

theorem optPos_eq_bytes (o : Option Pos) : optPos o = (Figure.place? o).bytes 6 := by cases o <;> rfl

theorem signed_eq_bytes (v : Int) : signed v = (Figure.signed v).bytes 6 := by rw [Machine.signed, Figure.bytes]

theorem yes_eq_bytes (b : Bool) : yes b = (Figure.num b.toNat).bytes 1 := by rw [yes, Figure.bytes]

theorem Figure.standsAt_of_holdsAt {b : List Byte} {o w : Nat} {f : Figure} (h : HoldsAt b o (f.bytes w)) : f.standsAt b o w := by
  have at_i : ∀ i < w, b[o + i]? = (f.bytes w)[i]? := fun i hi => h i (by rwa [Figure.length_bytes])
  cases f with
  | num v => exact fun i hi => (at_i i hi).trans (getElem?_le w v i hi)
  | absent => exact fun i hi => (at_i i hi).trans (List.getElem?_replicate_of_lt hi)
  | place p =>
    intro hp i hi
    rw [at_i i hi, Figure.bytes, if_neg (Int.not_lt.mpr hp), getElem?_le w _ i hi]
  | signed v =>
    intro i hi
    rw [at_i i hi, Figure.bytes, getElem?_le w _ i hi, BitVec.toNat_ofInt]
    rfl

/-! ### Fields one behind another -/

/-- The bytes of fields that stand one behind another, each given by its width and its figure. -/
def fieldBytes (fields : List (Nat × Figure)) : List Byte := fields.flatMap fun f => f.2.bytes f.1

/-- Fields that stand one behind another, with their offsets. -/
def fieldsFrom : Nat → List (Nat × Figure) → List (Nat × Nat × Figure)
  | _, [] => []
  | o, f :: fs => (o, f.1, f.2) :: fieldsFrom (o + f.1) fs

@[simp] theorem fieldBytes_nil : fieldBytes [] = [] := rfl

@[simp] theorem fieldBytes_cons (f : Nat × Figure) (fs : List (Nat × Figure)) :
    fieldBytes (f :: fs) = f.2.bytes f.1 ++ fieldBytes fs := rfl

@[simp] theorem length_fieldBytes_nil : (fieldBytes []).length = 0 := rfl

@[simp] theorem length_fieldBytes_cons (f : Nat × Figure) (fs : List (Nat × Figure)) :
    (fieldBytes (f :: fs)).length = f.1 + (fieldBytes fs).length := by
  rw [fieldBytes_cons, List.length_append, Figure.length_bytes]

theorem Lays.of_holdsAt {b : List Byte} {o : Nat} {fs : List (Nat × Figure)} (h : HoldsAt b o (fieldBytes fs)) :
    Lays b (fieldsFrom o fs) := by
  induction fs generalizing o with
  | nil => exact List.forall_mem_nil _
  | cons f fs ih =>
    obtain ⟨first, rest⟩ := holdsAt_append.mp h
    rw [Figure.length_bytes] at rest
    exact List.forall_mem_cons.mpr ⟨Figure.standsAt_of_holdsAt first, ih rest⟩

/-- A record that is nothing but fields. -/
theorem Lays.of_eq {b : List Byte} {fs : List (Nat × Figure)} (h : b = fieldBytes fs) : Lays b (fieldsFrom 0 fs) :=
  Lays.of_holdsAt (holdsAt_of_eq h)

/-- The fields of a record from the `k`th on, `n` of them. -/
theorem Lays.slice {b : List Byte} {fs : List (Nat × Nat × Figure)} (h : Lays b fs) (k n : Nat) : Lays b ((fs.drop k).take n) :=
  fun f hf => h f (List.mem_of_mem_drop (List.mem_of_mem_take hf))

theorem Lays.append {b : List Byte} {fs gs : List (Nat × Nat × Figure)} (h : Lays b fs) (k : Lays b gs) : Lays b (fs ++ gs) :=
  fun f hf => (List.mem_append.mp hf).elim (h f) (k f)

/-! ### Cross-machine positions -/

theorem crossPositions_succ (n : Nat) (ps : List Nat) :
    crossPositions (n + 1) ps = (Figure.num? ps[0]?).bytes 2 ++ crossPositions n ps.tail := by
  cases ps <;> rfl

@[simp] theorem length_crossPositions (n : Nat) (ps : List Nat) : (crossPositions n ps).length = 2 * n := by
  induction n generalizing ps with
  | zero => rfl
  | succ n ih => rw [crossPositions_succ, List.length_append, Figure.length_bytes, ih]; omega

theorem LaysEach.of_crossPositions {b : List Byte} {o n : Nat} {ps : List Nat} (h : HoldsAt b o (crossPositions n ps)) :
    LaysEach b o 2 n fun i => .num? ps[i]? := by
  induction n generalizing o ps with
  | zero => exact fun i hi => absurd hi (Nat.not_lt_zero i)
  | succ n ih =>
    rw [crossPositions_succ] at h
    obtain ⟨first, rest⟩ := holdsAt_append.mp h
    rw [Figure.length_bytes] at rest
    intro i hi
    cases i with
    | zero => exact Figure.standsAt_of_holdsAt first
    | succ i =>
      have tail := ih rest i (Nat.lt_of_succ_lt_succ hi)
      simp only [List.getElem?_tail] at tail
      rwa [show o + 2 * (i + 1) = o + 2 + 2 * i by omega]

/-! ### Records one behind another -/

theorem HoldsAt.flatMap {α : Type} {b : List Byte} {o : Nat} {f : α → List Byte} {l : List α} (h : HoldsAt b o (l.flatMap f))
    {i : Nat} {x : α} (hx : l[i]? = some x) : HoldsAt b (o + ((l.take i).flatMap f).length) (f x) := by
  obtain ⟨hi, rfl⟩ := List.getElem?_eq_some_iff.mp hx
  have split : l.flatMap f = (l.take i).flatMap f ++ (f l[i] ++ (l.drop (i + 1)).flatMap f) := by
    rw [← List.flatMap_cons, ← List.drop_eq_getElem_cons hi, ← List.flatMap_append, List.take_append_drop]
  rw [split] at h
  exact (holdsAt_append.mp (holdsAt_append.mp h).2).1

theorem length_flatMap_const {α : Type} {f : α → List Byte} {size : Nat} {l : List α} (h : ∀ x ∈ l, (f x).length = size) :
    (l.flatMap f).length = size * l.length := by
  rw [List.length_flatMap, List.map_congr_left h, List.map_const', List.sum_replicate_nat, Nat.mul_comm]

/-- Records of one size, one behind another. -/
theorem HoldsAt.flatMap_const {α : Type} {b : List Byte} {o size : Nat} {f : α → List Byte} {l : List α}
    (h : HoldsAt b o (l.flatMap f)) (hs : ∀ x ∈ l, (f x).length = size) {i : Nat} {x : α} (hx : l[i]? = some x) :
    HoldsAt b (o + size * i) (f x) := by
  have before : ((l.take i).flatMap f).length = size * i := by
    rw [length_flatMap_const fun x hx => hs x (List.mem_of_mem_take hx), List.length_take,
      Nat.min_eq_left (Nat.le_of_lt (List.getElem?_eq_some_iff.mp hx).1)]
  exact before ▸ h.flatMap hx

/-- A list with its count before it. -/
theorem HoldsAt.counted {α : Type} {b : List Byte} {o : Nat} {f : α → List Byte} {l : List α} (h : HoldsAt b o (counted f l)) :
    Lays b [(o, 1, .num l.length)] ∧ HoldsAt b (o + 1) (l.flatMap f) := by
  obtain ⟨count, rest⟩ := holdsAt_append.mp h
  rw [length_le] at rest
  exact ⟨Lays.of_holdsAt (fs := [(1, .num l.length)]) (by simpa [Figure.bytes] using count), rest⟩

theorem length_counted {α : Type} {f : α → List Byte} {size : Nat} {l : List α} (h : ∀ x ∈ l, (f x).length = size) :
    (counted f l).length = 1 + size * l.length := by
  rw [Machine.counted, List.length_append, length_le, length_flatMap_const h]

/-! ### Codes (R207) -/

theorem flags_testBit (l : List Bool) (n : Nat) : (flags l).testBit n = l[n]?.getD false := by
  induction l generalizing n with
  | nil => simp [flags]
  | cons b l ih =>
    have twice : flags (b :: l) = Nat.bit b (flags l) := by
      rw [flags, Nat.bit_val, Nat.add_comm]
    rw [twice]
    cases n with
    | zero => rw [Nat.testBit_bit_zero]; rfl
    | succ n => rw [Nat.testBit_bit_succ, ih]; rfl

theorem flags_lt (l : List Bool) : flags l < 2 ^ l.length := by
  induction l with
  | nil => exact Nat.one_pos
  | cons b l ih =>
    have := Bool.toNat_le b
    rw [flags, List.length_cons, Nat.pow_succ]
    omega

/-- A set as a bit map: one bit for each member of the code list. -/
theorem flags_contains {α : Type} [DecidableEq α] (all l : List α) {n : Nat} {c : α} (h : all[n]? = some c) :
    (flags (all.map fun x => l.contains x)).testBit n = true ↔ c ∈ l := by
  rw [flags_testBit, List.getElem?_map, h]
  exact List.contains_iff_mem

theorem codes_rule : Rule.Codes :=
  ⟨rfl, rfl, rfl, rfl, rfl, rfl, rfl, rfl, rfl, rfl, rfl, rfl, rfl, rfl, rfl, rfl, rfl,
    fun l _ _ h => flags_contains Cause.all l h, fun l _ _ h => flags_contains Claim.all l h,
    fun _ => flags_lt _, fun _ => flags_lt _, flags_testBit⟩

end Sys2Proof.Machine
end

section
/-! PROOF. The records field by field: orders, the map, actions, streams, stations, and the status (R209). -/

namespace Sys2Proof.Machine

/-! ### Orders (R65) -/

theorem orderBytes_eq (r : OrderRec) (k : Nat) : orderBytes r k =
    fieldBytes [(4, .num r.fig.id), (1, .num k), (1, .num r.fig.grades.s1), (1, .num r.fig.grades.s2), (1, .num r.fig.grades.s3),
      (1, .num r.fig.grades.s4), (1, .num r.fig.grades.s5), (4, .num r.fig.sf), (4, .num r.fig.t), (2, .num r.fig.a),
      (1, .num r.fig.m), (2, .num r.fig.q), (1, .num r.fig.layout.slits.length), (1, .num r.fig.layout.scores.length)] ++
    (crossPositions 8 r.fig.layout.slits ++ (crossPositions 10 r.fig.layout.scores ++
    fieldBytes [(1, .num r.phase.code), (1, .num r.pinned.toNat), (1, .num r.blocked.code), (1, .num (stationCode r.station)),
      (6, .place? r.p), (6, .place? r.e), (4, .num? r.n), (6, .num? r.gap), (4, .num r.wasteBefore), (4, .num? r.rejects),
      (4, .num r.counts.good), (4, .num r.counts.reject), (4, .num r.counts.unconfirmed), (4, .num r.counts.waste),
      (4, .num r.counts.dropped), (4, .num r.counts.stacksDone), (1, .num ((r.result.map fun v => v.cause.code).getD 0)),
      (4, .num? (r.result.map OrderResult.shortfall)), (4, .num? (r.result.map OrderResult.overs))])) := by
  unfold orderBytes
  cases r.result <;>
    simp [layoutBytes, Stream.all, PerStream.get, le_eq_bytes, opt_eq_bytes, optPos_eq_bytes, yes_eq_bytes, absentField_eq_bytes,
      Figure.num?]

@[simp] theorem length_orderBytes (r : OrderRec) (k : Nat) : (orderBytes r k).length = 128 := by
  simp [orderBytes_eq]

theorem summaryBytes_eq (r : OrderRec) : summaryBytes r = fieldBytes [(4, .num r.fig.id), (1, .num r.phase.code),
    (1, .num r.pinned.toNat), (1, .num r.blocked.code), (1, .num ((r.result.map fun v => v.cause.code).getD 0))] := by
  simp [summaryBytes, le_eq_bytes, yes_eq_bytes]

@[simp] theorem length_summaryBytes (r : OrderRec) : (summaryBytes r).length = 8 := by
  simp [summaryBytes_eq]

/-- Up to 8 records from an index on, behind the length of their list, the index, and their own count (R41, R65). -/
theorem lays_given {α : Type} {f : α → List Byte} {size : Nat} (hs : ∀ x, (f x).length = size) (l : List α) (n : Nat) {b : List Byte}
    (h : b = le 1 l.length ++ le 1 n ++ le 1 ((l.drop n).take 8).length ++ ((l.drop n).take 8).flatMap f) :
    Lays b [(0, 1, .num l.length), (1, 1, .num n), (2, 1, .num (min 8 (l.length - n)))] ∧
    ∀ i x, i < 8 → l[n + i]? = some x → HoldsAt b (3 + size * i) (f x) := by
  have head : b = fieldBytes [(1, .num l.length), (1, .num n), (1, .num (min 8 (l.length - n)))] ++ ((l.drop n).take 8).flatMap f := by
    rw [h, List.length_take, List.length_drop]
    simp [le_eq_bytes]
  obtain ⟨fields, records⟩ := holdsAt_append.mp (holdsAt_of_eq head)
  refine ⟨Lays.of_holdsAt fields, fun i x hi hx => ?_⟩
  have given : ((l.drop n).take 8)[i]? = some x := by
    rw [List.getElem?_take_of_lt hi, List.getElem?_drop, hx]
  exact records.flatMap_const (fun x _ => hs x) given

theorem orderRecords_rule : Rule.OrderRecords := by
  refine ⟨fun r k => ?_, fun book n => lays_given length_summaryBytes book n rfl⟩
  obtain ⟨head, rest⟩ := holdsAt_append.mp (holdsAt_of_eq (orderBytes_eq r k))
  obtain ⟨slits, rest⟩ := holdsAt_append.mp rest
  obtain ⟨scores, rest⟩ := holdsAt_append.mp rest
  simp only [length_fieldBytes_cons, length_fieldBytes_nil, length_crossPositions] at slits scores rest
  exact ⟨Lays.of_holdsAt head, .of_crossPositions slits, .of_crossPositions scores, Lays.of_holdsAt rest,
    Lays.of_eq (summaryBytes_eq r)⟩

/-! ### The map (R41) -/

theorem seamBytes_none : seamBytes none = fieldBytes [(1, .num 0), (1, .num 0), (1, .num 0)] := rfl

theorem seamBytes_some (v : SeamPart) : seamBytes (some v) = fieldBytes [(1, .num v.stream.number), (1, .num (armCode (some v.arm))),
    (1, .num (flags [v.confirmation == .confirmed, v.confirmation == .unconfirmed, v.fast, v.unsynced]))] := by
  have confirmation : confirmationFlags v.confirmation = [v.confirmation == .confirmed, v.confirmation == .unconfirmed] := by
    cases v.confirmation <;> rfl
  rw [seamBytes, confirmation]
  rfl

@[simp] theorem length_seamBytes (o : Option SeamPart) : (seamBytes o).length = 3 := by cases o <;> rfl

theorem extentBytes_eq (x : Extent) : extentBytes x = fieldBytes [(6, .place x.start), (6, .place? x.finish), (6, .place? x.held),
    (2, .num (causeBits x.causes)), (2, .num (if x.finish = none then claimBits x.claims else Config.absentClaims.toNat))] ++
    seamBytes x.seam := by
  simp [extentBytes, le_eq_bytes, pos_eq_bytes, optPos_eq_bytes]

@[simp] theorem length_extentBytes (x : Extent) : (extentBytes x).length = 25 := by
  simp [extentBytes_eq]

theorem markBytes_eq (s : State) (m : LaneMark) : s.markBytes m = fieldBytes [(1, .num m.stream.number), (1, .num (armCode (some m.arm))),
    (6, .num m.count), (1, .num (flags [m.fast, m.unsynced])), (6, .place (s.predicted m))] := by
  simp [State.markBytes, le_eq_bytes, pos_eq_bytes]

@[simp] theorem length_markBytes (s : State) (m : LaneMark) : (s.markBytes m).length = 15 := by
  simp [markBytes_eq]

theorem laneMapBytes_eq (s : State) (l : Lane) : s.laneMapBytes l =
    fieldBytes [(6, .signed (s.lane l).offset), (1, .num (s.lane l).unsynced.toNat), (1, .num (s.lane l).recogniser.state.code),
      (6, .num? (s.lane l).recogniser.p0), (6, .num? (s.lane l).recogniser.i0), (1, .num (s.lane l).marks.length)] ++
    (s.lane l).marks.flatMap s.markBytes := by
  simp [State.laneMapBytes, le_eq_bytes, opt_eq_bytes, signed_eq_bytes, yes_eq_bytes]

theorem lays_extentBytes (x : Extent) :
    Lays (extentBytes x)
      [(0, 6, .place x.start), (6, 6, .place? x.finish), (12, 6, .place? x.held), (18, 2, .num (causeBits x.causes))] ∧
    (x.finish = none → Lays (extentBytes x) [(20, 2, .num (claimBits x.claims))]) ∧
    (x.seam = none → Lays (extentBytes x) [(22, 1, .num 0), (23, 1, .num 0), (24, 1, .num 0)]) ∧
    ∀ v, x.seam = some v → Lays (extentBytes x) [(22, 1, .num v.stream.number), (23, 1, .num (armCode (some v.arm))),
      (24, 1, .num (flags [v.confirmation == .confirmed, v.confirmation == .unconfirmed, v.fast, v.unsynced]))] := by
  obtain ⟨fields, seam⟩ := holdsAt_append.mp (holdsAt_of_eq (extentBytes_eq x))
  simp only [length_fieldBytes_cons, length_fieldBytes_nil] at seam
  have lays := Lays.of_holdsAt fields
  refine ⟨lays.slice 0 4, fun hf => ?_, fun hs => ?_, fun v hs => ?_⟩
  · rw [if_pos hf] at lays
    exact lays.slice 4 1
  · rw [hs, seamBytes_none] at seam
    exact Lays.of_holdsAt seam
  · rw [hs, seamBytes_some] at seam
    exact Lays.of_holdsAt seam

theorem mapRecords_rule : Rule.MapRecords := by
  refine ⟨lays_extentBytes, fun s m => Lays.of_eq (markBytes_eq s m), fun track n => lays_given length_extentBytes track n rfl,
    fun s l => ?_⟩
  obtain ⟨fields, marks⟩ := holdsAt_append.mp (holdsAt_of_eq (laneMapBytes_eq s l))
  simp only [length_fieldBytes_cons, length_fieldBytes_nil] at marks
  exact ⟨Lays.of_holdsAt fields, fun i m hm => marks.flatMap_const (fun m _ => length_markBytes s m) hm⟩

/-! ### Actions, moves and station changes (R86, R135, R161) -/

theorem actionBytes_eq (r : ActionRec) : actionBytes r = fieldBytes [(1, .num r.kind.code), (4, .num r.sequence), (6, .place r.position),
    (6, .place r.deadline), (1, .num (flags [r.taken, r.lastOfStack, r.lastOfOrder, r.merged])), (1, .num (stationCode r.station)),
    (4, .num r.order), (4, .num? r.sheet), (6, .place? r.sheetStart), (1, .num ((r.disposition.map Disposition.code).getD 0)),
    (4, .num? r.stackNumber), (2, .num? r.sheetInStack),
    (2, .num (if r.disposition = some .reject then causeBits r.causes else Config.absentCauses.toNat))] := by
  simp [actionBytes, le_eq_bytes, opt_eq_bytes, pos_eq_bytes, optPos_eq_bytes]

@[simp] theorem length_actionBytes (r : ActionRec) : (actionBytes r).length = 42 := by
  simp [actionBytes_eq]

theorem lays_actionBytes (r : ActionRec) :
    Lays (actionBytes r)
      [(0, 1, .num r.kind.code), (1, 4, .num r.sequence), (5, 6, .place r.position), (11, 6, .place r.deadline),
        (18, 1, .num (stationCode r.station)), (19, 4, .num r.order), (23, 4, .num? r.sheet), (27, 6, .place? r.sheetStart),
        (33, 1, .num ((r.disposition.map Disposition.code).getD 0)), (34, 4, .num? r.stackNumber), (38, 2, .num? r.sheetInStack)] ∧
    (r.kind = .cut → Lays (actionBytes r) [(17, 1, .num (flags [r.taken, r.lastOfStack, r.lastOfOrder, r.merged]))]) ∧
    (r.disposition = some .reject → Lays (actionBytes r) [(40, 2, .num (causeBits r.causes))]) := by
  have lays := Lays.of_eq (actionBytes_eq r)
  refine ⟨?_, fun _ => ?_, fun hd => ?_⟩
  · exact (lays.slice 0 4).append (lays.slice 5 7)
  · exact lays.slice 4 1
  · rw [if_pos hd] at lays
    exact lays.slice 12 1

theorem moveBytes_eq (m : MoveEntry) : moveBytes m = fieldBytes [(1, .num (stationCode (some m.station))), (1, .num (toolKindCode m.kind)),
    (1, .num m.number), (2, .num m.target), (1, .num m.attempt)] := by
  simp [moveBytes, le_eq_bytes]

@[simp] theorem length_moveBytes (m : MoveEntry) : (moveBytes m).length = 6 := by
  simp [moveBytes_eq]

theorem changeBytes_eq (x : Nat × EntryKind × Nat) : changeBytes x = fieldBytes [(1, .num x.1), (1, .num x.2.1.code), (4, .num x.2.2)] := by
  simp [changeBytes, le_eq_bytes]

@[simp] theorem length_changeBytes (x : Nat × EntryKind × Nat) : (changeBytes x).length = 6 := by
  simp [changeBytes_eq]

/-- The change of one entry that holds an id (R86). -/
def State.changeAt (s : State) (n : Nat) : Option (Nat × EntryKind × Nat) :=
  match nth1 s.plan.pendingChange n, nth1 s.profile.entries n with
  | some (some id), some e => some (n, e.kind, id)
  | _, _ => none

theorem changes_eq (s : State) : s.changes = entryNumbers.filterMap s.changeAt := rfl

theorem changeAt_eq_some (s : State) (m n : Nat) (k : EntryKind) (id : Nat) : s.changeAt m = some (n, k, id) ↔
    m = n ∧ nth1 s.plan.pendingChange n = some (some id) ∧ ∃ e, nth1 s.profile.entries n = some e ∧ e.kind = k := by
  constructor
  · intro h
    unfold State.changeAt at h
    split at h
    next hc he =>
      cases h
      exact ⟨rfl, hc, _, he, rfl⟩
    next => cases h
  · rintro ⟨rfl, hc, e, he, rfl⟩
    rw [State.changeAt, hc, he]

theorem mem_changes (s : State) (n : Nat) (k : EntryKind) (id : Nat) : (n, k, id) ∈ s.changes ↔
    1 ≤ n ∧ n ≤ 12 ∧ nth1 s.plan.pendingChange n = some (some id) ∧ ∃ e, nth1 s.profile.entries n = some e ∧ e.kind = k := by
  simp only [changes_eq, List.mem_filterMap, mem_entryNumbers, changeAt_eq_some]
  constructor
  · rintro ⟨m, ⟨low, high⟩, rfl, held⟩
    exact ⟨low, high, held⟩
  · rintro ⟨low, high, held⟩
    exact ⟨n, ⟨low, high⟩, rfl, held⟩

theorem actionRecords_rule : Rule.ActionRecords := by
  refine ⟨lays_actionBytes, fun m => Lays.of_eq (moveBytes_eq m), fun n k id => Lays.of_eq (changeBytes_eq (n, k, id)), mem_changes,
    fun α f size l hs => ?_⟩
  obtain ⟨count, records⟩ := (HoldsAt.self (counted f l)).counted
  exact ⟨count, fun i x hx => by simpa using records.flatMap_const hs hx⟩

/-! ### Streams (R125) -/

theorem slotBytes_none : slotBytes none = fieldBytes [(1, .num 1), (1, .num 0), (1, .num 0), (4, .num 0), (1, .absent), (6, .absent),
    (6, .absent), (1, .num 0), (6, .absent)] := rfl

/-- A field of a slot, which is absent unless the slot holds it (R107). -/
def Figure.heldIf (holds : Bool) (f : Figure) : Figure := if holds then f else .absent

theorem slotBytes_some (v : Slot) : slotBytes (some v) = fieldBytes [(1, .num v.state.code), (1, .num v.kind.code),
    (1, .num (flags [v.deferred, v.fast, v.reaimed, v.advanced, v.wrongGrade, v.unsynced])), (4, .num (v.boundary.getD 0)),
    (1, .heldIf v.holdsPoints (.num v.grade)), (6, .heldIf v.holdsPoints (.place v.commitPoint)),
    (6, .heldIf v.holdsPoints (.place v.firePoint)), (1, .num (armCode v.chosen)), (6, .heldIf v.holdsFire (.num v.fireCount))] := by
  unfold slotBytes
  cases points : v.holdsPoints <;> cases fire : v.holdsFire <;>
    simp [points, fire, Figure.heldIf, le_eq_bytes, pos_eq_bytes, absentField_eq_bytes]

@[simp] theorem length_slotBytes (o : Option Slot) : (slotBytes o).length = 27 := by
  cases o with
  | none => rfl
  | some v => simp [slotBytes_some]

theorem lays_slotBytes (v : Slot) :
    Lays (slotBytes (some v)) [(0, 1, .num v.state.code), (1, 1, .num v.kind.code),
      (2, 1, .num (flags [v.deferred, v.fast, v.reaimed, v.advanced, v.wrongGrade, v.unsynced])),
      (3, 4, .num (v.boundary.getD 0)), (20, 1, .num (armCode v.chosen))] ∧
    (v.state ≠ .fault → Lays (slotBytes (some v)) [(7, 1, .num v.grade), (8, 6, .place v.commitPoint), (14, 6, .place v.firePoint)]) ∧
    (v.state = .fault → Lays (slotBytes (some v)) [(7, 1, .absent), (8, 6, .absent), (14, 6, .absent)]) ∧
    (v.state = .fired ∨ v.state = .fault → Lays (slotBytes (some v)) [(21, 6, .num v.fireCount)]) ∧
    (v.state = .planned ∨ v.state = .committed → Lays (slotBytes (some v)) [(21, 6, .absent)]) := by
  have lays := Lays.of_eq (slotBytes_some v)
  have points := lays.slice 4 3
  have fire := lays.slice 8 1
  refine ⟨(lays.slice 0 4).append (lays.slice 7 1),
    fun h => ?_, fun h => ?_, fun h => ?_, fun h => ?_⟩
  · rwa [show v.holdsPoints = true by simpa [Slot.holdsPoints] using h] at points
  · rwa [show v.holdsPoints = false by simp [Slot.holdsPoints, h]] at points
  · rwa [show v.holdsFire = true by simpa [Slot.holdsFire] using h] at fire
  · rwa [show v.holdsFire = false by rcases h with h | h <;> simp [Slot.holdsFire, h]] at fire

theorem armBytes_eq (s : State) (x : Stream) (arm : Arm) : s.armBytes x arm = fieldBytes [(1, .num (s.arm x arm).state.code),
    (1, .num (((s.arm x arm).declaration.map Declaration.grade).getD 0)), (4, .num? ((s.arm x arm).declaration.map Declaration.length)),
    (6, .num? (s.arm x arm).startCount), (6, .num (s.consumed x (s.arm x arm))),
    (1, .num (flags [(s.arm x arm).present.level, (s.arm x arm).latched.level, (s.arm x arm).button.level,
      (s.arm x arm).driveGood.level, (s.arm x arm).driveEnable, s.driveGood x arm, (s.arm x arm).lamp]))] := by
  simp [State.armBytes, le_eq_bytes, opt_eq_bytes]

@[simp] theorem length_armBytes (s : State) (x : Stream) (arm : Arm) : (s.armBytes x arm).length = 19 := by
  simp [armBytes_eq]

theorem streamBytes_eq (s : State) (x : Stream) : s.streamBytes x = fieldBytes [(1, .num x.number), (6, .num (s.streamCount x)),
    (4, .num (s.streamSpeed x)), (1, .num (armCode (s.stream x).running)), (1, .num (s.stream x).runningGrade),
    (1, .num (if (s.stream x).broken = true then 2 else 1)), (1, .num (flags [(s.stream x).linkFault, (s.stream x).splicerReady.level]))] ++
    (slotBytes (s.stream x).slot ++ (s.armBytes x .a ++ s.armBytes x .b)) := by
  simp [State.streamBytes, le_eq_bytes]

@[simp] theorem length_streamBytes (s : State) (x : Stream) : (s.streamBytes x).length = 80 := by
  simp [streamBytes_eq]

theorem streamRecords_rule : Rule.StreamRecords := by
  refine ⟨fun s x => ?_, Lays.of_eq slotBytes_none, lays_slotBytes, fun s x arm => Lays.of_eq (armBytes_eq s x arm)⟩
  obtain ⟨fields, rest⟩ := holdsAt_append.mp (holdsAt_of_eq (streamBytes_eq s x))
  obtain ⟨slot, rest⟩ := holdsAt_append.mp rest
  obtain ⟨a, b⟩ := holdsAt_append.mp rest
  simp only [length_fieldBytes_cons, length_fieldBytes_nil, length_slotBytes, length_armBytes] at slot a b
  exact ⟨Lays.of_holdsAt fields, slot, a, b⟩

/-! ### Stations (R150) -/

theorem toolBytes_eq (t : Tool) : toolBytes t = fieldBytes [(1, .num t.state.code), (1, .num t.attempts), (2, .num? t.target),
    (2, .num? t.measured)] := by
  simp [toolBytes, le_eq_bytes, opt_eq_bytes]

@[simp] theorem length_toolBytes (t : Tool) : (toolBytes t).length = 6 := by
  simp [toolBytes_eq]

theorem stationBytes_eq (s : State) (st : Station) : s.stationBytes st =
    fieldBytes [(1, .num (s.station st).state.code), (1, .num (s.station st).current.code), (1, .num (s.station st).previous.code),
      (4, .num ((s.station st).order.getD 0)), (1, .num ((s.station st).layout.getD ⟨[], []⟩).slits.length),
      (1, .num ((s.station st).layout.getD ⟨[], []⟩).scores.length)] ++
    (crossPositions 8 ((s.station st).layout.getD ⟨[], []⟩).slits ++ (crossPositions 10 ((s.station st).layout.getD ⟨[], []⟩).scores ++
    (fieldBytes [(4, .num (((s.station st).late.map LateSwap.order).getD 0)), (1, .num (stationCode ((s.station st).late.bind LateSwap.old))),
      (6, .place? ((s.station st).late.map LateSwap.position)), (1, .num (inService (s.station st).slits)),
      (1, .num (inService (s.station st).scores))] ++
    ((s.station st).slits.flatMap toolBytes ++ (s.station st).scores.flatMap toolBytes)))) := by
  simp [State.stationBytes, layoutBytes, le_eq_bytes, optPos_eq_bytes]

theorem length_stationBytes {s : State} {st : Station} (slits : (s.station st).slits.length = 8)
    (scores : (s.station st).scores.length = 10) : (s.stationBytes st).length = 166 := by
  simp only [stationBytes_eq, List.length_append, length_fieldBytes_cons, length_fieldBytes_nil, length_crossPositions,
    length_flatMap_const fun t _ => length_toolBytes t, slits, scores]

theorem lays_stationBytes (s : State) (st : Station) (eight : (s.station st).slits.length = 8) :
    let r := s.station st
    let l := r.layout.getD ⟨[], []⟩
    Lays (s.stationBytes st)
      [(0, 1, .num r.state.code), (1, 1, .num r.current.code), (2, 1, .num r.previous.code), (3, 4, .num (r.order.getD 0)),
        (7, 1, .num l.slits.length), (8, 1, .num l.scores.length)] ∧
    LaysEach (s.stationBytes st) 9 2 8 (fun i => .num? l.slits[i]?) ∧
    LaysEach (s.stationBytes st) 25 2 10 (fun i => .num? l.scores[i]?) ∧
    Lays (s.stationBytes st)
      [(45, 4, .num ((r.late.map LateSwap.order).getD 0)), (49, 1, .num (stationCode (r.late.bind LateSwap.old))),
        (50, 6, .place? (r.late.map LateSwap.position)), (56, 1, .num (inService r.slits)), (57, 1, .num (inService r.scores))] ∧
    (∀ (i : Nat) t, r.slits[i]? = some t → HoldsAt (s.stationBytes st) (58 + 6 * i) (toolBytes t)) ∧
    (∀ (i : Nat) t, r.scores[i]? = some t → HoldsAt (s.stationBytes st) (106 + 6 * i) (toolBytes t)) := by
  obtain ⟨head, rest⟩ := holdsAt_append.mp (holdsAt_of_eq (stationBytes_eq s st))
  obtain ⟨slits, rest⟩ := holdsAt_append.mp rest
  obtain ⟨scores, rest⟩ := holdsAt_append.mp rest
  obtain ⟨late, rest⟩ := holdsAt_append.mp rest
  obtain ⟨slitTools, scoreTools⟩ := holdsAt_append.mp rest
  simp only [length_fieldBytes_cons, length_fieldBytes_nil, length_crossPositions, length_flatMap_const fun t _ => length_toolBytes t, eight]
    at slits scores late slitTools scoreTools
  exact ⟨Lays.of_holdsAt head, .of_crossPositions slits, .of_crossPositions scores, Lays.of_holdsAt late,
    fun i t ht => slitTools.flatMap_const (fun t _ => length_toolBytes t) ht,
    fun i t ht => scoreTools.flatMap_const (fun t _ => length_toolBytes t) ht⟩

theorem stationsBytes_eq (s : State) : s.stationsBytes = s.stationBytes .a ++ (s.stationBytes .b ++
    fieldBytes [(1, .num s.slitter.moves.length), (1, .num (s.slitter.moves.filter fun m => !m.taken).length)]) := by
  simp [State.stationsBytes, le_eq_bytes]

theorem stationRecords_rule : Rule.StationRecords := by
  refine ⟨fun t => Lays.of_eq (toolBytes_eq t), fun s st slits _ => lays_stationBytes s st slits, fun s tools => ?_⟩
  obtain ⟨a, rest⟩ := holdsAt_append.mp (holdsAt_of_eq (stationsBytes_eq s))
  obtain ⟨b, moves⟩ := holdsAt_append.mp rest
  rw [length_stationBytes (tools .a).1 (tools .a).2] at b moves
  rw [length_stationBytes (tools .b).1 (tools .b).2] at moves
  exact ⟨a, b, Lays.of_holdsAt moves⟩

/-! ### Status (R17, R171, R192) -/

theorem channelBytes_eq (r : ChannelRec) : channelBytes r = fieldBytes [(6, .num r.counter), (4, .num r.backTravel), (4, .num r.speed),
    (1, .num (flags [r.saturated, r.capped]))] := by
  simp [channelBytes, le_eq_bytes]

@[simp] theorem length_channelBytes (r : ChannelRec) : (channelBytes r).length = 15 := by
  simp [channelBytes_eq]

theorem statusBytes_eq (s : State) (p : Port) : s.statusBytes p = channelBytes (s.channel .main) ++ (channelBytes (s.channel .lane1) ++
    (channelBytes (s.channel .lane2) ++
    fieldBytes [(1, .num s.lmu.stopped.toNat), (2, .num s.lmu.stopDuration), (6, .signed (s.lane .one).offset),
      (1, .num (s.lane .one).unsynced.toNat), (6, .signed (s.lane .two).offset), (1, .num (s.lane .two).unsynced.toNat),
      (1, .num s.dry.released.length), (1, .num (s.dry.released.filter fun r => !r.taken).length), (4, .num s.dry.sequence),
      (1, .num s.dry.wrapped.toNat), (6, .place s.dry.cursor), (1, .num s.dry.merge.toNat), (4, .num s.pendingCount),
      (1, .num s.part.code), (2, .num (flags ((s.port p).classes.map NoticeClass.raw))),
      (2, .num (flags ((s.port p).classes.map NoticeClass.enable))), (2, .num (flags ((s.port p).classes.map NoticeClass.queued))),
      (1, .num (s.port p).paused.toNat), (1, .num (s.port p).queue.length),
      (1, .num ((s.port p).queue.filter Frame.isNotice).length)])) := by
  unfold State.statusBytes DryList.untaken PortRec.rawFlags PortRec.notices
  simp [le_eq_bytes, pos_eq_bytes, signed_eq_bytes, yes_eq_bytes]

@[simp] theorem length_statusBytes (s : State) (p : Port) : (s.statusBytes p).length = 90 := by
  simp [statusBytes_eq]

theorem statusRecord_rule : Rule.StatusRecord := by
  refine ⟨fun r => Lays.of_eq (channelBytes_eq r), fun s p => ?_⟩
  obtain ⟨main, rest⟩ := holdsAt_append.mp (holdsAt_of_eq (statusBytes_eq s p))
  obtain ⟨lane1, rest⟩ := holdsAt_append.mp rest
  obtain ⟨lane2, rest⟩ := holdsAt_append.mp rest
  simp only [length_channelBytes] at lane1 lane2 rest
  exact ⟨main, lane1, lane2, Lays.of_holdsAt rest⟩

end Sys2Proof.Machine
end

section
/-! PROOF. The plan record (R93, R209), and the seven reads (R17, R41, R64, R65, R93, R125, R150, R192). -/

namespace Sys2Proof.Machine

variable {s : State}

/-! ### Lines and targets -/

theorem lineBytes_eq (l : Line) : lineBytes l = fieldBytes [(4, .num l.w.id), (1, .num l.r.phase.code), (1, .num l.r.pinned.toNat),
    (1, .num (stationCode l.r.station)), (6, .place? l.r.p), (6, .place? l.r.e), (4, .num? l.r.n), (4, .num? l.r.rejects),
    (6, .num? l.r.gap), (4, .num l.r.wasteBefore)] := by
  simp [lineBytes, le_eq_bytes, yes_eq_bytes, opt_eq_bytes, optPos_eq_bytes]

@[simp] theorem length_lineBytes (l : Line) : (lineBytes l).length = 37 := by
  simp [lineBytes_eq]

/-- A slot that holds the target of an order's boundary (R82). -/
def State.slotHolds (s : State) (x : Stream) (id : Nat) (v : Slot) : Prop :=
  (s.stream x).slot = some v ∧ v.kind = .grade ∧ v.departed = false ∧ v.boundary = some id

theorem targetInSlot_iff (s : State) (x : Stream) (id : Nat) : s.targetInSlot x id = true ↔ ∃ v, s.slotHolds x id v := by
  unfold State.targetInSlot State.slotHolds Slot.target?
  cases (s.stream x).slot <;> simp [and_assoc]

theorem targetInSlot_free {x : Stream} {id : Nat} (h : ∀ v, ¬ s.slotHolds x id v) : s.targetInSlot x id = false := by
  rw [← Bool.not_eq_true, targetInSlot_iff]
  exact not_exists.mpr h

theorem targetWaits_iff (s : State) (prev : PrevFigures) (l : Line) (x : Stream) : s.targetWaits prev l x = true ↔
    ((s.streamProfile x).active = true ∧ prev.grades.get x ≠ l.r.fig.grades.get x ∧ l.w.targetSpent.get x = false) ∧
      s.targetInSlot x l.w.id = false := by
  unfold State.targetWaits State.gradeChanges
  simp [and_assoc]

/-- The fields of a boundary's target. -/
def targetFields (x : Stream) (seam fire commit : Pos) (inSlot : Bool) : List (Nat × Figure) :=
  [(1, .num x.number), (6, .place seam), (6, .place fire), (6, .place commit), (1, .num inSlot.toNat)]

theorem fieldBytes_targetFields (x : Stream) (seam fire commit : Pos) (inSlot : Bool) :
    le 1 x.number ++ pos seam ++ pos fire ++ pos commit ++ yes inSlot = fieldBytes (targetFields x seam fire commit inSlot) := by
  simp [targetFields, le_eq_bytes, pos_eq_bytes, yes_eq_bytes]

@[simp] theorem length_targetFields (x : Stream) (seam fire commit : Pos) (inSlot : Bool) :
    (fieldBytes (targetFields x seam fire commit inSlot)).length = 20 := by
  simp [targetFields]

theorem targetBytes_inSlot {x : Stream} {l : Line} {v : Slot} (prev : PrevFigures) (h : s.slotHolds x l.w.id v) (sound : v.state ≠ .fault) :
    s.targetBytes prev l x =
      some (fieldBytes (targetFields x (l.start - s.profile.line.g) v.firePoint v.commitPoint true)) := by
  have inSlot := (targetInSlot_iff s x l.w.id).mpr ⟨v, h⟩
  have points : v.holdsPoints = true := by simpa [Slot.holdsPoints] using sound
  simp only [State.targetBytes, inSlot, if_true, h.1, Option.filter_some, points, fieldBytes_targetFields]

theorem targetBytes_inFault {x : Stream} {l : Line} {v : Slot} (prev : PrevFigures) (h : s.slotHolds x l.w.id v) (fault : v.state = .fault) :
    s.targetBytes prev l x = none := by
  have inSlot := (targetInSlot_iff s x l.w.id).mpr ⟨v, h⟩
  have points : v.holdsPoints = false := by simp [Slot.holdsPoints, fault]
  simp [State.targetBytes, State.targetWaits, inSlot, h.1, Option.filter, points]

theorem targetBytes_outside {x : Stream} {l : Line} (prev : PrevFigures) (h : ∀ v, ¬ s.slotHolds x l.w.id v) :
    s.targetBytes prev l x =
      if s.targetWaits prev l x then
        some (fieldBytes (targetFields x (l.start - s.profile.line.g) (s.targetFire x l.start)
          (s.targetFire x l.start - (s.streamProfile x).commitLead) false))
      else none := by
  simp only [State.targetBytes, targetInSlot_free h, Bool.false_eq_true, if_false, fieldBytes_targetFields]

theorem length_targetBytes {x : Stream} {l : Line} {prev : PrevFigures} {b : List Byte} (h : s.targetBytes prev l x = some b) :
    b.length = 20 := by
  by_cases held : ∃ v, s.slotHolds x l.w.id v
  · obtain ⟨v, hv⟩ := held
    by_cases fault : v.state = .fault
    · rw [targetBytes_inFault prev hv fault] at h
      cases h
    · rw [targetBytes_inSlot prev hv fault] at h
      cases h
      exact length_targetFields ..
  · rw [targetBytes_outside prev (not_exists.mp held)] at h
    split at h
    · cases h
      exact length_targetFields ..
    · cases h

theorem targets_rule (s : State) (prev : PrevFigures) (l : Line) (x : Stream) :
    let seam := l.r.p.getD 0 - s.profile.line.g
    let target := fun fire commit inSlot bytes => Lays bytes [(0, 1, .num x.number), (1, 6, .place seam), (7, 6, .place fire),
      (13, 6, .place commit), (19, 1, .num inSlot)] ∧ bytes.length = 20
    let differs := (s.streamProfile x).active = true ∧ prev.grades.get x ≠ l.r.fig.grades.get x ∧ l.w.targetSpent.get x = false
    (∀ v, s.slotHolds x l.w.id v → v.state ≠ .fault →
      ∃ b, s.targetBytes prev l x = some b ∧ target v.firePoint v.commitPoint 1 b) ∧
    ((∀ v, ¬ s.slotHolds x l.w.id v) → differs → ∃ b, s.targetBytes prev l x = some b ∧
      target (seam - s.seamOffset x) (seam - s.seamOffset x - (s.streamProfile x).commitLead) 0 b) ∧
    ((∀ v, ¬ s.slotHolds x l.w.id v) → ¬ differs → s.targetBytes prev l x = none) ∧
    (∀ v, s.slotHolds x l.w.id v → v.state = .fault → s.targetBytes prev l x = none) := by
  refine ⟨fun v hv sound => ?_, fun outside differs => ?_, fun outside same => ?_, fun v hv => targetBytes_inFault prev hv⟩
  · exact ⟨_, targetBytes_inSlot prev hv sound, Lays.of_eq rfl, length_targetFields ..⟩
  · have waits := (targetWaits_iff s prev l x).mpr ⟨differs, targetInSlot_free outside⟩
    exact ⟨_, (targetBytes_outside prev outside).trans (if_pos waits), Lays.of_eq rfl, length_targetFields ..⟩
  · exact (targetBytes_outside prev outside).trans (if_neg fun waits => same ((targetWaits_iff s prev l x).mp waits).1)

/-! ### Triggers (R85) -/

theorem triggerBytes_eq (t : Nat × Pos × Bool) : triggerBytes t = fieldBytes [(1, .num t.1), (6, .place t.2.1), (1, .num t.2.2.toNat)] := by
  simp [triggerBytes, le_eq_bytes, pos_eq_bytes, yes_eq_bytes]

@[simp] theorem length_triggerBytes (t : Nat × Pos × Bool) : (triggerBytes t).length = 8 := by
  simp [triggerBytes_eq]

/-- The trigger of one enabled entry at a line's start (R85). -/
def State.triggerAt (s : State) (l : Line) (n : Nat) : Option (Nat × Pos × Bool) :=
  match nth1 s.profile.entries n with
  | some e => if e.enable then some (n, triggerPoint l.start e, (nth1 l.w.triggerFired n).getD false) else none
  | none => none

theorem triggersAt_eq (s : State) (l : Line) (prev : PrevFigures) : s.triggersAt l prev =
    if Stream.all.any fun x => s.gradeChanges prev l x then entryNumbers.filterMap (s.triggerAt l) else [] := rfl

theorem triggerAt_eq_some (s : State) (l : Line) (m n : Nat) (point : Pos) (isFired : Bool) :
    s.triggerAt l m = some (n, point, isFired) ↔ m = n ∧ ∃ e, nth1 s.profile.entries n = some e ∧ e.enable = true ∧
      point = l.r.p.getD 0 - e.dFar - e.changeLead ∧ isFired = (nth1 l.w.triggerFired n).getD false := by
  constructor
  · intro h
    unfold State.triggerAt at h
    split at h
    next e he =>
      split at h
      next enabled =>
        cases h
        exact ⟨rfl, e, he, enabled, rfl, rfl⟩
      next => cases h
    next => cases h
  · rintro ⟨rfl, e, he, enabled, rfl, rfl⟩
    simp only [State.triggerAt, he, enabled, if_true]
    rfl

theorem mem_streamAll (x : Stream) : x ∈ Stream.all := by cases x <;> decide

theorem anyGradeChange_iff (s : State) (prev : PrevFigures) (l : Line) : (Stream.all.any fun x => s.gradeChanges prev l x) = true ↔
    ∃ x, (s.streamProfile x).active = true ∧ prev.grades.get x ≠ l.r.fig.grades.get x := by
  simp [List.any_eq_true, mem_streamAll, State.gradeChanges]

theorem mem_triggersAt (s : State) (l : Line) (prev : PrevFigures) (n : Nat) (point : Pos) (isFired : Bool) :
    (n, point, isFired) ∈ s.triggersAt l prev ↔
      (∃ x, (s.streamProfile x).active = true ∧ prev.grades.get x ≠ l.r.fig.grades.get x) ∧ 1 ≤ n ∧ n ≤ 12 ∧
      ∃ e, nth1 s.profile.entries n = some e ∧ e.enable = true ∧ point = l.r.p.getD 0 - e.dFar - e.changeLead ∧
        isFired = (nth1 l.w.triggerFired n).getD false := by
  rw [← anyGradeChange_iff, triggersAt_eq]
  split
  next change =>
    simp only [change, true_and, List.mem_filterMap, mem_entryNumbers, triggerAt_eq_some]
    constructor
    · rintro ⟨m, ⟨low, high⟩, rfl, entry⟩
      exact ⟨low, high, entry⟩
    · rintro ⟨low, high, entry⟩
      exact ⟨n, ⟨low, high⟩, rfl, entry⟩
  next same => exact iff_of_false (List.not_mem_nil) fun h => same h.1

theorem triggersAt_ascending (s : State) (l : Line) (prev : PrevFigures) :
    ((s.triggersAt l prev).map fun t => t.1).Pairwise (· < ·) := by
  rw [triggersAt_eq, List.pairwise_map]
  split
  · have ascending : entryNumbers.Pairwise (· < ·) := by decide
    refine ascending.filterMap _ fun m n lt t ht u hu => ?_
    obtain ⟨rfl, -⟩ := (triggerAt_eq_some s l m t.1 t.2.1 t.2.2).mp ht
    obtain ⟨rfl, -⟩ := (triggerAt_eq_some s l n u.1 u.2.1 u.2.2).mp hu
    exact lt
  · exact List.Pairwise.nil

/-! ### Swaps and spans (R88, R89) -/

theorem shownLift_eq {w : Swap} {lift : Option SwapRec} (h : w.lifts.filter (fun r => r.status != .withdrawn) = lift.toList) :
    w.shownLift = lift := by
  unfold Swap.shownLift
  rw [h]
  cases lift with
  | none => rfl
  | some r => simp [Nat.mod_one]

/-- The fields of a boundary's swap: the LIFT shown and the DROP, each with its position. -/
def swapFields (place : SwapRec → Pos) (lift drop : Option SwapRec) : List (Nat × Figure) :=
  [(1, .num (flags [lift.isSome, drop.isSome, lift.map SwapRec.status == some .released, drop.map SwapRec.status == some .released])),
    (1, .num (stationCode (lift.map SwapRec.station))), (6, .place? (lift.map place)),
    (1, .num (stationCode (drop.map SwapRec.station))), (6, .place? (drop.map place))]

theorem swapBytes_eq (s : State) (l : Line) : s.swapBytes l = fieldBytes (swapFields
    (fun r => l.r.p.getD 0 - (s.stationDistance r.station : Int)) l.w.swap.shownLift
    (l.w.swap.drop.filter fun r => r.status != .withdrawn)) := by
  have released : ∀ o : Option SwapRec, (o.map fun r => r.status == .released).getD false = (o.map SwapRec.status == some .released) := by
    intro o
    cases o <;> rfl
  simp [State.swapBytes, swapFields, Line.start, released, le_eq_bytes, optPos_eq_bytes]

@[simp] theorem length_swapBytes (s : State) (l : Line) : (s.swapBytes l).length = 15 := by
  simp [swapBytes_eq, swapFields]

theorem doubleSlit_iff (w : Swap) : w.doubleSlit = true ↔ w.bothDown := by
  unfold Swap.doubleSlit Swap.bothDown
  simp [and_assoc]

theorem spanBytes_bothDown {l : Line} (h : l.w.swap.bothDown) : s.spanBytes l = fieldBytes
    [(1, .num (flags [true, l.w.spanInserted])), (6, .place (l.r.p.getD 0)),
      (6, .place (l.r.p.getD 0 + (s.profile.slitter.dA : Int) - s.profile.slitter.dB))] := by
  rw [State.spanBytes, if_pos ((doubleSlit_iff _).mpr h), State.doubleSlitLength, ← Int.add_sub_assoc, Line.start]
  simp [le_eq_bytes, pos_eq_bytes]

theorem spanBytes_apart {l : Line} (h : ¬ l.w.swap.bothDown) : s.spanBytes l = fieldBytes [(1, .num 0), (6, .absent), (6, .absent)] := by
  rw [State.spanBytes, if_neg (mt (doubleSlit_iff _).mp h)]
  simp [le_eq_bytes, absentField_eq_bytes]

@[simp] theorem length_spanBytes (s : State) (l : Line) : (s.spanBytes l).length = 13 := by
  by_cases h : l.w.swap.bothDown
  · simp [spanBytes_bothDown h]
  · simp [spanBytes_apart h]

/-! ### Boundaries and the whole record (R93) -/

theorem boundaryBytes_eq (s : State) (l : Line) (prev : PrevFigures) : s.boundaryBytes (l, prev) =
    fieldBytes [(6, .place (l.r.p.getD 0)), (1, .num (Stream.all.filterMap (s.targetBytes prev l)).length)] ++
    ((Stream.all.filterMap (s.targetBytes prev l)).flatMap id ++ (counted triggerBytes (s.triggersAt l prev) ++
    (s.swapBytes l ++ s.spanBytes l))) := by
  simp [State.boundaryBytes, Line.start, le_eq_bytes, pos_eq_bytes]

theorem boundary_rule (s : State) (l : Line) (prev : PrevFigures) :
    let targets := [Stream.s1, .s2, .s3, .s4, .s5].filterMap (s.targetBytes prev l)
    let triggers := s.triggersAt l prev
    let bytes := s.boundaryBytes (l, prev)
    let after := 7 + 20 * targets.length
    Lays bytes [(0, 6, .place (l.r.p.getD 0)), (6, 1, .num targets.length), (after, 1, .num triggers.length)] ∧
    (∀ (i : Nat) b, targets[i]? = some b → HoldsAt bytes (7 + 20 * i) b) ∧
    (∀ (i : Nat) t, triggers[i]? = some t → HoldsAt bytes (after + 1 + 8 * i) (triggerBytes t)) ∧
    (triggers.map fun t => t.1).Pairwise (· < ·) ∧
    HoldsAt bytes (after + 1 + 8 * triggers.length) (s.swapBytes l) ∧
    HoldsAt bytes (after + 16 + 8 * triggers.length) (s.spanBytes l) ∧ bytes.length = after + 29 + 8 * triggers.length := by
  intro targets triggers bytes after
  have size : ∀ b ∈ targets, (id b : List Byte).length = 20 := by
    intro b hb
    obtain ⟨x, -, hx⟩ := List.mem_filterMap.mp hb
    exact length_targetBytes hx
  have eq : bytes = fieldBytes [(6, .place (l.r.p.getD 0)), (1, .num targets.length)] ++
    (targets.flatMap id ++ (counted triggerBytes triggers ++ (s.swapBytes l ++ s.spanBytes l))) := boundaryBytes_eq s l prev
  have targetsLength := length_flatMap_const size
  have triggersLength := length_counted fun t (_ : t ∈ triggers) => length_triggerBytes t
  obtain ⟨head, rest⟩ := holdsAt_append.mp (holdsAt_of_eq eq)
  obtain ⟨targetRecords, rest⟩ := holdsAt_append.mp rest
  obtain ⟨triggerRecords, rest⟩ := holdsAt_append.mp rest
  obtain ⟨swap, span⟩ := holdsAt_append.mp rest
  simp only [length_fieldBytes_cons, length_fieldBytes_nil, targetsLength, triggersLength, length_swapBytes]
    at targetRecords triggerRecords swap span
  obtain ⟨count, triggerRecords⟩ := triggerRecords.counted
  refine ⟨(Lays.of_holdsAt head).append count, fun i b hb => targetRecords.flatMap_const size hb,
    fun i t ht => triggerRecords.flatMap_const (fun t _ => length_triggerBytes t) ht, triggersAt_ascending s l prev, ?_, ?_, ?_⟩
  · convert swap using 1
    omega
  · convert span using 1
    omega
  · rw [eq]
    simp only [List.length_append, length_fieldBytes_cons, length_fieldBytes_nil, targetsLength, triggersLength, length_swapBytes,
      length_spanBytes]
    omega

theorem planBytes_eq (s : State) : s.planBytes = fieldBytes [(6, .place s.plan.w0), (1, .num s.plan.tail.isSome.toNat),
    (1, .num (stationCode (s.plan.tail.map PrevFigures.station)))] ++ (counted lineBytes s.lines ++ counted s.boundaryBytes s.boundaries) := by
  simp [State.planBytes, le_eq_bytes, pos_eq_bytes, yes_eq_bytes]

theorem plan_rule (s : State) :
    let places := s.boundaries.map s.boundaryBytes
    Lays s.planBytes [(0, 6, .place s.plan.w0), (6, 1, .num s.plan.tail.isSome.toNat),
      (7, 1, .num (stationCode (s.plan.tail.map PrevFigures.station))), (8, 1, .num s.lines.length),
      (9 + 37 * s.lines.length, 1, .num s.boundaries.length)] ∧
    (∀ (i : Nat) l, s.lines[i]? = some l → HoldsAt s.planBytes (9 + 37 * i) (lineBytes l)) ∧
    ∀ (i : Nat) b, s.boundaries[i]? = some b →
      HoldsAt s.planBytes (10 + 37 * s.lines.length + (places.take i).flatten.length) (s.boundaryBytes b) := by
  intro places
  have linesLength := length_counted fun l (_ : l ∈ s.lines) => length_lineBytes l
  obtain ⟨head, rest⟩ := holdsAt_append.mp (holdsAt_of_eq (planBytes_eq s))
  obtain ⟨lines, boundaries⟩ := holdsAt_append.mp rest
  simp only [length_fieldBytes_cons, length_fieldBytes_nil, linesLength] at lines boundaries
  rw [show 0 + (6 + (1 + (1 + 0))) + (1 + 37 * s.lines.length) = 9 + 37 * s.lines.length by omega] at boundaries
  obtain ⟨lineCount, lines⟩ := lines.counted
  obtain ⟨boundaryCount, boundaries⟩ := boundaries.counted
  refine ⟨((Lays.of_holdsAt head).append lineCount).append boundaryCount,
    fun i l hl => lines.flatMap_const (fun l _ => length_lineBytes l) hl, fun i b hb => ?_⟩
  have place := boundaries.flatMap hb
  rw [List.flatMap_def, List.map_take] at place
  rwa [show 10 + 37 * s.lines.length = 9 + 37 * s.lines.length + 1 by omega]

theorem planRecord_rule : Rule.PlanRecord := by
  refine ⟨fun l => Lays.of_eq (lineBytes_eq l), targets_rule, fun s l prev n point isFired =>
    ⟨Lays.of_eq (triggerBytes_eq _), mem_triggersAt s l prev n point isFired⟩, fun s l lift h => ?_, fun s l => ?_, boundary_rule, plan_rule⟩
  · exact Lays.of_eq (shownLift_eq h ▸ swapBytes_eq s l)
  · exact ⟨fun h => Lays.of_eq (spanBytes_bothDown h), fun h => Lays.of_eq (spanBytes_apart h)⟩

/-! ### The reads (R17, R41, R64, R65, R93, R125, R150, R192) -/

variable {i : Instr}

theorem withFrame_work (s : State) (p : Port) (f : Frame) : (s.withFrame p f).work = s.work := by
  cases p <;> rfl

theorem exec_heard {p : Port} {kind : Nat} {tag : Byte} {load : List Byte} {f : Frame}
    (h : requestFrame i = some ⟨p, kind, tag, load⟩) (quiet : s.work = []) (heard : Heard s p kind)
    (answer : s.answer p tag kind (verdictOf i s) = s.withFrame p f) : exec i s = .next (s.withFrame p f) := by
  have room : s.portFull p = false := decide_eq_false (Nat.not_le.mpr heard.room)
  have act : actOf i s = s.withFrame p f := by
    rw [actOf_request i s h, State.takeRequest, room, if_neg nofun, State.judge, if_pos heard.right, answer]
  have asserted : i ≠ .resetAssert := by rintro rfl; cases h
  have released : ∀ v, i ≠ .resetRelease v := by rintro v rfl; cases h
  have idle : (actOf i s).work = [] := by rw [act, withFrame_work, quiet]
  rw [exec_quiet i s asserted released heard.running idle, act]

/-- A read that its rule answers: the reply joins the out-queue, and nothing else changes. -/
theorem exec_read {p : Port} {kind : Nat} {tag : Byte} {load payload : List Byte}
    (h : requestFrame i = some ⟨p, kind, tag, load⟩) (quiet : s.work = []) (heard : Heard s p kind)
    (v : verdictOf i s = .read payload) : exec i s = .next (s.withFrame p (doneFrame kind tag payload)) :=
  exec_heard h quiet heard (by rw [v]; rfl)

/-- A request that its rule refuses: the refusal joins the out-queue, and nothing else changes. -/
theorem exec_refused {p : Port} {kind : Nat} {tag : Byte} {load : List Byte} (c : RefusalCause)
    (h : requestFrame i = some ⟨p, kind, tag, load⟩) (quiet : s.work = []) (heard : Heard s p kind)
    (v : verdictOf i s = .no c) : exec i s = .next (s.withFrame p (refusedFrame kind tag c.code)) :=
  exec_heard h quiet heard (by rw [v]; rfl)

theorem exec_readBook {p : Port} {tag : Byte} {n : Nat} (quiet : s.work = []) (heard : Heard s p 0x05) :
    exec (.readBook p tag n) s = .next (s.withFrame p
      (if n ≤ 31 then doneFrame 0x05 tag (bookBytes s.book n) else refusedFrame 0x05 tag 7)) := by
  by_cases hn : n ≤ 31
  · rw [if_pos hn]
    exact exec_read rfl quiet heard (if_neg (Nat.not_lt.mpr hn))
  · rw [if_neg hn]
    exact exec_refused .range rfl quiet heard (if_pos (Nat.lt_of_not_le hn))

/-- A section of the map, whose first index is checked for every one of them (log 33). -/
theorem exec_readMap {p : Port} {tag : Byte} {c n : Nat} {payload : List Byte} (quiet : s.work = []) (heard : Heard s p 0x31)
    (section_eq : n ≤ 47 → readMapVerdict c n s = .read payload) : exec (.readMap p tag c n) s = .next (s.withFrame p
      (if n ≤ 47 then doneFrame 0x31 tag payload else refusedFrame 0x31 tag 7)) := by
  by_cases hn : n ≤ 47
  · rw [if_pos hn]
    exact exec_read rfl quiet heard (section_eq hn)
  · rw [if_neg hn]
    exact exec_refused .range rfl quiet heard (if_pos (Nat.lt_of_not_le hn))

theorem readMapVerdict_beyond {c : Nat} (n : Nat) (h : 3 ≤ c) : readMapVerdict c n s = .no .range := by
  unfold readMapVerdict
  split
  · rfl
  · match c, h with
    | c + 3, _ => rfl

theorem findIdx_id {book : List OrderRec} (distinct : (book.map fun r => r.fig.id).Nodup) {k : Nat} {r : OrderRec}
    (h : book[k]? = some r) : (book.findIdx fun v => v.fig.id == r.fig.id) = k := by
  obtain ⟨hk, rfl⟩ := List.getElem?_eq_some_iff.mp h
  refine (List.findIdx_eq hk).mpr ⟨beq_self_eq_true _, fun j hj => beq_false_of_ne fun same => ?_⟩
  have ids := (distinct.getElem_inj_iff (hi := by simpa using Nat.lt_trans hj hk) (hj := by simpa using hk)).mp
    (by simpa using same)
  omega

theorem order?_of_mem (distinct : (s.book.map fun r => r.fig.id).Nodup) {r : OrderRec} (h : r ∈ s.book) :
    s.order? r.fig.id = some r := by
  cases found : s.order? r.fig.id with
  | none => exact absurd (beq_self_eq_true r.fig.id) (List.find?_eq_none.mp found r h)
  | some v =>
    have id : v.fig.id = r.fig.id := eq_of_beq (List.find?_some (p := fun u : OrderRec => u.fig.id == r.fig.id) found)
    exact congrArg some (List.inj_on_of_nodup_map distinct (List.mem_of_find?_eq_some found) h id)

theorem readOrderVerdict_known (distinct : (s.book.map fun r => r.fig.id).Nodup) {k : Nat} {r : OrderRec} (h : s.book[k]? = some r) :
    readOrderVerdict r.fig.id s = .read (orderBytes r k) := by
  unfold readOrderVerdict
  rw [order?_of_mem distinct (List.mem_of_getElem? h), findIdx_id distinct h]

theorem readOrderVerdict_unknown {id : Nat} (h : ∀ r ∈ s.book, r.fig.id ≠ id) : readOrderVerdict id s = .no .unknown := by
  have missing : s.order? id = none := List.find?_eq_none.mpr fun r hr same => h r hr (eq_of_beq same)
  rw [readOrderVerdict, missing]

theorem reads_rule : Rule.Reads := by
  refine ⟨fun p tag s quiet => ⟨fun h => exec_read rfl quiet h rfl, fun h => exec_read rfl quiet h rfl,
    fun h => exec_read rfl quiet h rfl, fun n h => exec_readBook quiet h, fun n h => ⟨?_, ?_, ?_, fun c hc => ?_⟩,
    fun id h => ⟨fun unknown => ?_, ?_⟩, fun n h => ⟨fun unnamed => ?_, fun x named => ?_⟩⟩, fun s p x st r k y m c e change => ?_⟩
  · exact exec_readMap quiet h fun hn => if_neg (Nat.not_lt.mpr hn)
  · exact exec_readMap quiet h fun hn => if_neg (Nat.not_lt.mpr hn)
  · exact exec_readMap quiet h fun hn => if_neg (Nat.not_lt.mpr hn)
  · exact exec_refused .range rfl quiet h (readMapVerdict_beyond n hc)
  · exact exec_refused .unknown rfl quiet h (readOrderVerdict_unknown unknown)
  · rintro r k distinct at_k rfl
    exact exec_read rfl quiet h (readOrderVerdict_known distinct at_k)
  · exact exec_refused .range rfl quiet h (by simp only [verdictOf, readStreamVerdict, unnamed])
  · exact exec_read rfl quiet h (by simp only [verdictOf, readStreamVerdict, named])
  · exact ⟨length_statusBytes s p, length_streamBytes s x, length_orderBytes r k, length_summaryBytes r, length_extentBytes y,
      length_markBytes s m, length_actionBytes c, length_moveBytes e, length_changeBytes change, length_stationBytes⟩

/-- Settles O39: every record is fields of known widths one behind another (`Lays.of_holdsAt`), and every read is one reply
ahead of nothing else (`exec_read`, `exec_refused`). -/
theorem readsReplyFromTheStateAlone : Obligations.ReadsReplyFromTheStateAlone :=
  ⟨reads_rule, codes_rule, orderRecords_rule, mapRecords_rule, actionRecords_rule, streamRecords_rule, stationRecords_rule,
    statusRecord_rule, planRecord_rule⟩

end Sys2Proof.Machine
end

section
/-! PROOF. The main track: the canonical form as a pairwise order, what merging, expiry and closure make of it, and the union of
R22 with the merge of a full track (R20, R22 to R25). -/

namespace Sys2Proof.Machine

variable {s t u : State} {x y z : Extent}

/-! ### The canonical form (R20, R22) -/

/-- An extent lies behind another, web between them: it is closed and ends before the other starts. -/
def Extent.before (x y : Extent) : Prop := ∃ e, x.finish = some e ∧ e < y.start

/-- What an extent of a canonical track meets by itself, but for the web it covers. -/
structure Extent.Sound (x : Extent) : Prop where
  fields : x.wf
  fromZero : 0 ≤ x.start

/-- A canonical track without its limit: each extent sound and with web, and the extents apart in their order. -/
structure Track.Canonical (l : List Extent) : Prop where
  sound : ∀ x ∈ l, x.Sound
  web : ∀ x ∈ l, x.covers = true
  apart : l.Pairwise Extent.before

theorem covers_iff (x : Extent) : x.covers = true ↔ ∀ e, x.finish = some e → x.start < e := by
  unfold Extent.covers beforeEnd
  cases x.finish <;> simp

theorem meets_iff (x y : Extent) : x.meets y = true ↔
    (∀ e, y.finish = some e → x.start ≤ e) ∧ ∀ e, x.finish = some e → y.start ≤ e := by
  unfold Extent.meets notAfterEnd
  cases x.finish <;> cases y.finish <;> simp

/-- Extents that do not meet lie one behind the other. -/
theorem before_of_not_meets (h : x.meets y ≠ true) : y.before x ∨ x.before y := by
  rw [Ne, meets_iff, not_and_or] at h
  rcases h with h | h
  · push Not at h
    exact .inl h
  · push Not at h
    exact .inr h

theorem Extent.before.start_lt (h : x.before y) (k : x.covers = true) : x.start < y.start := by
  obtain ⟨e, he, lt⟩ := h
  exact lt_trans ((covers_iff x).mp k e he) lt

theorem Extent.before.trans (h : x.before y) (k : y.before z) (web : y.covers = true) : x.before z := by
  obtain ⟨e, he, lt⟩ := h
  exact ⟨e, he, lt_trans lt (k.start_lt web)⟩

theorem Track.wf_iff (l : List Extent) : Track.wf l ↔ (∀ x ∈ l, x.covers = true) ∧ l.Pairwise Extent.before := by
  induction l with
  | nil => simp [Track.wf]
  | cons x l ih =>
    cases l with
    | nil => simp [Track.wf]
    | cons y l =>
      rw [Track.wf, ih, List.pairwise_cons (a := x), List.forall_mem_cons (a := x)]
      constructor
      · rintro ⟨web, first, webs, apart⟩
        refine ⟨⟨web, webs⟩, fun w m => ?_, apart⟩
        rcases List.mem_cons.mp m with rfl | m
        · exact first
        · exact Extent.before.trans first (List.rel_of_pairwise_cons apart m) (webs y List.mem_cons_self)
      · rintro ⟨⟨web, webs⟩, behind, apart⟩
        exact ⟨web, behind y List.mem_cons_self, webs, apart⟩

theorem trackCanonical_iff (s : State) : s.trackCanonical ↔ Track.Canonical s.map.track ∧ s.map.track.length ≤ 48 := by
  constructor
  · rintro ⟨ordered, fields, fromZero, room⟩
    obtain ⟨web, apart⟩ := (Track.wf_iff _).mp ordered
    exact ⟨⟨fun x m => ⟨fields x m, fromZero x m⟩, web, apart⟩, room⟩
  · rintro ⟨⟨sound, web, apart⟩, room⟩
    exact ⟨(Track.wf_iff _).mpr ⟨web, apart⟩, fun x m => (sound x m).fields, fun x m => (sound x m).fromZero, room⟩

theorem Track.Canonical.sublist {l m : List Extent} (h : Track.Canonical l) (k : m.Sublist l) : Track.Canonical m :=
  ⟨fun x i => h.sound x (k.subset i), fun x i => h.web x (k.subset i), h.apart.sublist k⟩

theorem Track.Canonical.comparable {l : List Extent} (h : Track.Canonical l) (hx : x ∈ l) (hy : y ∈ l) (ne : x ≠ y) :
    x.before y ∨ y.before x := by
  have symm : Std.Symm fun a b : Extent => a.before b ∨ b.before a := ⟨fun _ _ => Or.symm⟩
  exact (h.apart.imp (S := fun a b : Extent => a.before b ∨ b.before a) .inl).forall hx hy ne

theorem Extent.closed_sound (start finish : Pos) (c : Cause) (seam : Option SeamPart) :
    (Extent.closed start finish c seam).Sound := ⟨⟨rfl, rfl⟩, le_max_right _ _⟩

theorem Extent.opened_sound (start : Pos) (c : Cause) (claim : Claim) : (Extent.opened start c claim).Sound :=
  ⟨⟨⟨_, rfl, le_rfl⟩, List.cons_ne_nil _ _⟩, le_max_right _ _⟩

theorem Extent.Sound.of_open (h : x.Sound) (o : x.finish = none) : (∃ e, x.held = some e ∧ x.start ≤ e) ∧ x.claims ≠ [] := by
  have fields := h.fields
  unfold Extent.wf at fields
  rwa [o] at fields

theorem Extent.Sound.of_closed (h : x.Sound) {e : Pos} (c : x.finish = some e) : x.held = none ∧ x.claims = [] := by
  have fields := h.fields
  unfold Extent.wf at fields
  rwa [c] at fields

/-- No extent reaches less far than it starts. -/
theorem Extent.Sound.start_le_reach (h : x.Sound) (web : x.covers = true) : x.start ≤ x.reach := by
  unfold Extent.reach
  cases c : x.finish with
  | some e => exact ((covers_iff x).mp web e c).le
  | none =>
    obtain ⟨⟨e, held, le⟩, -⟩ := h.of_open c
    rw [held]
    exact le

/-! ### Merging (R22, R23) -/

variable {all : List Extent}

theorem Extent.IsMergeOf.covers (h : z.IsMergeOf all) (web : ∀ y ∈ all, y.covers = true) : z.covers = true := by
  refine (covers_iff z).mpr fun e c => ?_
  obtain ⟨-, y, m, k⟩ := h.finish e c
  exact lt_of_le_of_lt (h.start.1 y m) ((covers_iff y).mp (web y m) e k)

theorem Extent.IsMergeOf.sound (h : z.IsMergeOf all) (k : ∀ y ∈ all, y.Sound) (web : ∀ y ∈ all, y.covers = true) : z.Sound := by
  obtain ⟨least, first, fm, fe⟩ := h.start
  refine ⟨?_, fe ▸ (k first fm).fromZero⟩
  unfold Extent.wf
  cases c : z.finish with
  | some e => exact h.closed (by rw [c]; nofun)
  | none =>
    obtain ⟨e, held, -, y, m, reach⟩ := h.held c
    refine ⟨⟨e, held, reach ▸ le_trans (least y m) ((k y m).start_le_reach (web y m))⟩, ?_⟩
    obtain ⟨w, wm, o⟩ := h.isOpen.mp c
    obtain ⟨claim, cm⟩ := List.exists_mem_of_ne_nil _ ((k w wm).of_open o).2
    exact List.ne_nil_of_mem ((h.claims c claim).mpr ⟨w, wm, cm⟩)

/-- A merge lies behind what every merged extent lies behind. -/
theorem Extent.IsMergeOf.before (h : z.IsMergeOf all) (k : ∀ y ∈ all, y.before x) : z.before x := by
  cases c : z.finish with
  | some e =>
    obtain ⟨-, y, m, f⟩ := h.finish e c
    obtain ⟨e', f', lt⟩ := k y m
    rw [f] at f'
    cases f'
    exact ⟨e, c, lt⟩
  | none =>
    obtain ⟨y, m, o⟩ := h.isOpen.mp c
    obtain ⟨e, f, -⟩ := k y m
    rw [o] at f
    cases f

theorem Extent.IsMergeOf.behind (h : z.IsMergeOf all) (k : ∀ y ∈ all, x.before y) : x.before z := by
  obtain ⟨-, y, m, e⟩ := h.start
  obtain ⟨f, hf, lt⟩ := k y m
  exact ⟨f, hf, e ▸ lt⟩

/-- A merge holds no claim that none of the merged extents held. -/
theorem Extent.IsMergeOf.claim_mem (h : z.IsMergeOf all) {c : Claim} (m : c ∈ z.claims) : ∃ y ∈ all, c ∈ y.claims := by
  cases o : z.finish with
  | none => exact (h.claims o c).mp m
  | some e =>
    rw [(h.closed (by rw [o]; nofun)).2] at m
    cases m

/-- A merge of an extent with others that it meets holds no web but theirs (R22). -/
theorem Extent.IsMergeOf.holds {others : List Extent} (h : z.IsMergeOf (x :: others)) (k : ∀ y ∈ others, x.meets y = true) {q : Pos}
    (hq : z.holds q) : ∃ y ∈ x :: others, y.holds q := by
  obtain ⟨-, first, fm, fe⟩ := h.start
  obtain ⟨last, lm, reaches⟩ : ∃ y ∈ x :: others, ∀ e, y.finish = some e → q ≤ e := by
    cases c : z.finish with
    | none =>
      obtain ⟨y, m, o⟩ := h.isOpen.mp c
      exact ⟨y, m, fun e f => by rw [o] at f; cases f⟩
    | some e =>
      obtain ⟨-, y, m, f⟩ := h.finish e c
      exact ⟨y, m, fun e' f' => by rw [f] at f'; cases f'; exact hq.2 e c⟩
  have started : first.start < q := fe ▸ hq.1
  by_cases behind : q ≤ x.start
  · rcases List.mem_cons.mp fm with rfl | m
    · exact absurd started (not_lt.mpr behind)
    · exact ⟨first, fm, started, fun e f => le_trans behind (((meets_iff x first).mp (k first m)).1 e f)⟩
  · by_cases within : ∀ e, x.finish = some e → q ≤ e
    · exact ⟨x, List.mem_cons_self, not_le.mp behind, within⟩
    · push Not at within
      obtain ⟨e, f, lt⟩ := within
      rcases List.mem_cons.mp lm with rfl | m
      · exact absurd (reaches e f) (not_le.mpr lt)
      · exact ⟨last, lm, lt_of_le_of_lt (((meets_iff x last).mp (k last m)).2 e f) lt, reaches⟩

theorem placeExtent_perm (x : Extent) (l : List Extent) : (placeExtent x l).Perm (x :: l) := by
  induction l with
  | nil => exact .refl _
  | cons y l ih =>
    unfold placeExtent
    split
    · exact .refl _
    · exact (ih.cons y).trans (.swap x y l)

/-- An extent that lies apart from every one of a track, put into its place. -/
theorem placeExtent_apart {l : List Extent} (apart : l.Pairwise Extent.before) (webs : ∀ y ∈ l, y.covers = true)
    (web : z.covers = true) (h : ∀ y ∈ l, y.before z ∨ z.before y) : (placeExtent z l).Pairwise Extent.before := by
  induction l with
  | nil => exact List.pairwise_singleton _ _
  | cons y l ih =>
    obtain ⟨behind, rest⟩ := List.pairwise_cons.mp apart
    have yWeb := webs y List.mem_cons_self
    unfold placeExtent
    split
    · next lt =>
      have first : z.before y := (h y List.mem_cons_self).resolve_left fun k => absurd (k.start_lt yWeb) (not_lt.mpr lt.le)
      refine List.pairwise_cons.mpr ⟨fun w m => ?_, apart⟩
      rcases List.mem_cons.mp m with rfl | m
      · exact first
      · exact first.trans (behind w m) yWeb
    · next ge =>
      have first : y.before z := (h y List.mem_cons_self).resolve_right fun k => ge (k.start_lt web)
      refine List.pairwise_cons.mpr ⟨fun w m => ?_,
        ih rest (fun w m => webs w (List.mem_cons_of_mem _ m)) fun w m => h w (List.mem_cons_of_mem _ m)⟩
      rcases (mem_placeExtent z w l).mp m with rfl | m
      · exact first
      · exact behind w m

/-- An insertion takes a canonical track to one with at most one extent more (R22). -/
theorem mergeInto_canonical {track : List Extent} (h : Track.Canonical track) (sound : x.Sound) (web : x.covers = true) :
    Track.Canonical (mergeInto track x) ∧ (mergeInto track x).length ≤ track.length + 1 := by
  have merge := mergeExtents_isMergeOf x (track.filter fun y => x.meets y)
  have rest := h.sublist (List.filter_sublist (p := fun y => !x.meets y))
  have perm := placeExtent_perm (mergeExtents x (track.filter fun y => x.meets y)) (track.filter fun y => !x.meets y)
  have allSound : ∀ y ∈ x :: track.filter (fun y => x.meets y), y.Sound := fun y m =>
    (List.mem_cons.mp m).elim (fun e => e ▸ sound) fun m => h.sound y (List.mem_filter.mp m).1
  have allWeb : ∀ y ∈ x :: track.filter (fun y => x.meets y), y.covers = true := fun y m =>
    (List.mem_cons.mp m).elim (fun e => e ▸ web) fun m => h.web y (List.mem_filter.mp m).1
  have comparable : ∀ w ∈ track.filter (fun y => !x.meets y),
      w.before (mergeExtents x (track.filter fun y => x.meets y)) ∨
        (mergeExtents x (track.filter fun y => x.meets y)).before w := by
    intro w m
    obtain ⟨wm, off⟩ := List.mem_filter.mp m
    have off : x.meets w ≠ true := by simpa using off
    have order : ∀ y ∈ track.filter (fun y => x.meets y), w.before y ∨ y.before w := by
      intro y n
      obtain ⟨yn, on⟩ := List.mem_filter.mp n
      have ne : w ≠ y := fun e => off (e ▸ on)
      exact h.comparable wm yn ne
    rcases before_of_not_meets off with behind | ahead
    · refine .inl (merge.behind fun y n => (List.mem_cons.mp n).elim (fun e => e ▸ behind) fun n => ?_)
      refine (order y n).resolve_right fun k => ?_
      obtain ⟨e, f, lt⟩ := k.trans behind (h.web w wm)
      exact absurd (((meets_iff x y).mp (List.mem_filter.mp n).2).1 e f) (not_le.mpr lt)
    · refine .inr (merge.before fun y n => (List.mem_cons.mp n).elim (fun e => e ▸ ahead) fun n => ?_)
      refine (order y n).resolve_left fun k => ?_
      obtain ⟨e, f, lt⟩ := ahead.trans k (h.web w wm)
      exact absurd (((meets_iff x y).mp (List.mem_filter.mp n).2).2 e f) (not_le.mpr lt)
  refine ⟨⟨fun y m => ?_, fun y m => ?_, placeExtent_apart rest.apart rest.web (merge.covers allWeb) comparable⟩, ?_⟩
  · rcases (mem_placeExtent _ _ _).mp m with rfl | m
    · exact merge.sound allSound allWeb
    · exact rest.sound y m
  · rcases (mem_placeExtent _ _ _).mp m with rfl | m
    · exact merge.covers allWeb
    · exact rest.web y m
  · have count : (mergeInto track x).length = (track.filter fun y => !x.meets y).length + 1 := perm.length_eq
    rw [count]
    exact Nat.succ_le_succ (List.length_filter_le _ _)

/-! ### The merge of a full track (R23) -/

/-- The gap between two neighbours (R23). -/
def Extent.gapTo (x y : Extent) : Pos := y.start - x.reach

/-- Two extents stand next to each other in a track, behind `before`. -/
def Neighbours (track before : List Extent) (y z : Extent) : Prop := ∃ after, track = before ++ y :: z :: after

theorem neighbours_cons {l b : List Extent} {w : Extent} (h : Neighbours (x :: y :: l) b z w) :
    (b = [] ∧ z = x ∧ w = y) ∨ ∃ c, b = x :: c ∧ Neighbours (y :: l) c z w := by
  obtain ⟨after, e⟩ := h
  cases b with
  | nil =>
    rw [List.nil_append] at e
    injection e with e1 e2
    injection e2 with e2 e3
    exact .inl ⟨rfl, e1.symm, e2.symm⟩
  | cons v c =>
    rw [List.cons_append] at e
    injection e with e1 e2
    exact .inr ⟨c, by rw [e1], after, e2⟩

theorem not_neighbours_singleton {b : List Extent} {w : Extent} : ¬ Neighbours [x] b z w := by
  rintro ⟨after, e⟩
  have count := congrArg List.length e
  simp only [List.length_cons, List.length_nil, List.length_append] at count
  omega

/-- The smallest gap is that of some neighbours, and no neighbours have a smaller one. -/
theorem smallestGap_spec {track : List Extent} {g : Pos} (h : smallestGap track = some g) :
    (∃ b y z, Neighbours track b y z ∧ y.gapTo z = g) ∧ ∀ b y z, Neighbours track b y z → g ≤ y.gapTo z := by
  induction track generalizing g with
  | nil => cases h
  | cons x l ih =>
    cases l with
    | nil => cases h
    | cons y l =>
      have first : Neighbours (x :: y :: l) [] x y := ⟨l, rfl⟩
      cases rest : smallestGap (y :: l) with
      | none =>
        simp only [smallestGap, rest, Option.some.injEq] at h
        refine ⟨⟨[], x, y, first, h⟩, fun b v w n => ?_⟩
        rcases neighbours_cons n with ⟨-, rfl, rfl⟩ | ⟨c, -, n⟩
        · exact h.symm.le
        · cases l with
          | nil => exact absurd n not_neighbours_singleton
          | cons y' l => exact absurd rest (by unfold smallestGap; dsimp only; split <;> nofun)
      | some g' =>
        simp only [smallestGap, rest, Option.some.injEq] at h
        obtain ⟨⟨b, v, w, n, e⟩, least⟩ := ih rest
        refine ⟨?_, fun b v w n => ?_⟩
        · rcases min_choice (y.start - x.reach) g' with k | k
          · exact ⟨[], x, y, first, by rw [← h, k]; rfl⟩
          · obtain ⟨after, split⟩ := n
            exact ⟨x :: b, v, w, ⟨after, by rw [split]; rfl⟩, by rw [← h, k, e]⟩
        · rcases neighbours_cons n with ⟨-, rfl, rfl⟩ | ⟨c, -, n⟩
          · exact h ▸ min_le_left _ _
          · exact le_trans (h ▸ min_le_right _ _) (least c v w n)

theorem smallestGap_isSome {track : List Extent} (h : 2 ≤ track.length) : ∃ g, smallestGap track = some g := by
  match track, h with
  | x :: y :: l, _ =>
    unfold smallestGap
    dsimp only
    split
    · exact ⟨_, rfl⟩
    · exact ⟨_, rfl⟩

/-- The first neighbours with the least gap become one. -/
theorem mergeGap_spec {track : List Extent} {g : Pos} (some_ : ∃ b y z, Neighbours track b y z ∧ y.gapTo z = g)
    (least : ∀ b y z, Neighbours track b y z → g ≤ y.gapTo z) :
    ∃ before y z after, track = before ++ y :: z :: after ∧ mergeGap g track = before ++ mergeExtents y [z] :: after ∧
      y.gapTo z = g ∧ ∀ b v w, Neighbours track b v w → b.length < before.length → g < v.gapTo w := by
  induction track with
  | nil =>
    obtain ⟨b, y, z, ⟨after, e⟩, -⟩ := some_
    cases b <;> cases e
  | cons x l ih =>
    cases l with
    | nil =>
      obtain ⟨b, y, z, n, -⟩ := some_
      exact absurd n not_neighbours_singleton
    | cons y l =>
      by_cases first : x.gapTo y = g
      · exact ⟨[], x, y, l, rfl, if_pos (beq_iff_eq.mpr first), first, fun _ _ _ _ lt => absurd lt (Nat.not_lt_zero _)⟩
      · have later : ∃ b v w, Neighbours (y :: l) b v w ∧ v.gapTo w = g := by
          obtain ⟨b, v, w, n, e⟩ := some_
          rcases neighbours_cons n with ⟨-, rfl, rfl⟩ | ⟨c, -, n⟩
          · exact absurd e first
          · exact ⟨c, v, w, n, e⟩
        have shifted : ∀ b v w, Neighbours (y :: l) b v w → Neighbours (x :: y :: l) (x :: b) v w := by
          rintro b v w ⟨after, e⟩
          exact ⟨after, by rw [e]; rfl⟩
        obtain ⟨before, v, w, after, split, merged, gap, earlier⟩ := ih later fun b v w n => least (x :: b) v w (shifted b v w n)
        refine ⟨x :: before, v, w, after, by rw [split]; rfl, ?_, gap, fun b v' w' n lt => ?_⟩
        · have step : mergeGap g (x :: y :: l) = x :: mergeGap g (y :: l) := if_neg (mt beq_iff_eq.mp first)
          rw [step, merged]
          rfl
        · rcases neighbours_cons n with ⟨-, rfl, rfl⟩ | ⟨c, rfl, m⟩
          · exact lt_of_le_of_ne (least _ _ _ n) (Ne.symm first)
          · exact earlier c v' w' m (Nat.lt_of_succ_lt_succ lt)

/-- A full track is brought back by the merge of the pair of neighbours with the smallest gap, of equal ones the nearest the
knife (R23). -/
theorem mergeSmallest_spec {track : List Extent} (h : 2 ≤ track.length) :
    ∃ before y z after, track = before ++ y :: z :: after ∧ mergeSmallest track = before ++ mergeExtents y [z] :: after ∧
      ∀ b v w, Neighbours track b v w → y.gapTo z ≤ v.gapTo w ∧ (b.length < before.length → y.gapTo z < v.gapTo w) := by
  obtain ⟨g, smallest⟩ := smallestGap_isSome h
  obtain ⟨found, least⟩ := smallestGap_spec smallest
  obtain ⟨before, y, z, after, split, merged, rfl, earlier⟩ := mergeGap_spec found least
  refine ⟨before, y, z, after, split, ?_, fun b v w n => ⟨least b v w n, earlier b v w n⟩⟩
  rw [mergeSmallest, smallest]
  exact merged

theorem mergeSmallest_canonical {track : List Extent} (h : Track.Canonical track) (long : 2 ≤ track.length) :
    Track.Canonical (mergeSmallest track) ∧ (mergeSmallest track).length + 1 = track.length := by
  obtain ⟨before, y, z, after, rfl, merged, -⟩ := mergeSmallest_spec long
  have merge := mergeExtents_isMergeOf y [z]
  have pair : ∀ w ∈ [y, z], w ∈ before ++ y :: z :: after := fun w m => by
    simp only [List.mem_cons, List.not_mem_nil, or_false] at m
    rcases m with rfl | rfl <;> simp
  obtain ⟨apartBefore, apartRest, across⟩ := List.pairwise_append.mp h.apart
  obtain ⟨yAhead, apartRest⟩ := List.pairwise_cons.mp apartRest
  obtain ⟨zAhead, apartAfter⟩ := List.pairwise_cons.mp apartRest
  have members : ∀ w ∈ before ++ mergeExtents y [z] :: after, w = mergeExtents y [z] ∨ w ∈ before ++ y :: z :: after := by
    intro w m
    simp only [List.mem_append, List.mem_cons] at m ⊢
    tauto
  rw [merged]
  refine ⟨⟨fun w m => ?_, fun w m => ?_, ?_⟩, ?_⟩
  · rcases members w m with rfl | m
    · exact merge.sound (fun v n => h.sound v (pair v n)) fun v n => h.web v (pair v n)
    · exact h.sound w m
  · rcases members w m with rfl | m
    · exact merge.covers fun v n => h.web v (pair v n)
    · exact h.web w m
  · refine List.pairwise_append.mpr ⟨apartBefore, List.pairwise_cons.mpr ⟨fun w m => ?_, apartAfter⟩, fun v m w n => ?_⟩
    · refine merge.before fun v n => ?_
      simp only [List.mem_cons, List.not_mem_nil, or_false] at n
      rcases n with rfl | rfl
      · exact yAhead w (List.mem_cons_of_mem _ m)
      · exact zAhead w m
    · rcases List.mem_cons.mp n with rfl | n
      · refine merge.behind fun w k => across v m w ?_
        simp only [List.mem_cons, List.not_mem_nil, or_false] at k ⊢
        exact k.imp_right .inl
      · exact across v m w (by simp [n])
  · simp only [List.length_append, List.length_cons]
    omega

/-! ### Expiry and closure (R24, R25) -/

/-- The extents of a canonical track after a closure, those without web left out, are canonical (R24). -/
theorem closeClaims_canonical {track : List Extent} (h : Track.Canonical track) (c : Claim) (e : Pos) :
    Track.Canonical ((track.map fun x => if x.claims.contains c then x.closeClaim c e else x).filter Extent.covers) := by
  have start : ∀ y : Extent, (if y.claims.contains c then y.closeClaim c e else y).start = y.start := by
    intro y
    unfold Extent.closeClaim
    dsimp only
    repeat' split
    all_goals rfl
  have shut : ∀ y ∈ track, ∀ f, y.finish = some f → (if y.claims.contains c then y.closeClaim c e else y) = y := by
    intro y m f hf
    rw [((h.sound y m).of_closed hf).2]
    rfl
  have sound : ∀ y ∈ track, (if y.claims.contains c then y.closeClaim c e else y).Sound := by
    intro y m
    refine ⟨?_, (start y).symm ▸ (h.sound y m).fromZero⟩
    cases k : y.finish with
    | some f =>
      rw [shut y m f k]
      exact (h.sound y m).fields
    | none =>
      obtain ⟨⟨f, held, le⟩, claims⟩ := (h.sound y m).of_open k
      split
      · unfold Extent.closeClaim
        dsimp only
        split
        · exact ⟨rfl, rfl⟩
        · next some_ =>
          unfold Extent.wf
          simp only [k]
          exact ⟨⟨_, rfl, le_trans (held ▸ le) (le_max_left _ _)⟩, fun none_ => some_ (by rw [none_]; rfl)⟩
      · exact (h.sound y m).fields
  refine ⟨fun y m => ?_, fun y m => (List.mem_filter.mp m).2, List.Pairwise.filter _ (List.pairwise_map.mpr ?_)⟩
  · obtain ⟨x, mx, rfl⟩ := List.mem_map.mp (List.mem_filter.mp m).1
    exact sound x mx
  · refine h.apart.imp_of_mem fun {a b} ma _ k => ?_
    obtain ⟨f, hf, lt⟩ := k
    rw [shut a ma f hf]
    exact ⟨f, hf, (start b).symm ▸ lt⟩

theorem replan_map (s : State) : s.replan.map = s.map := by
  rcases s.replan_eq with e | e <;> rw [e]
  rfl

/-- The main track after an insertion of web (R22, R23). -/
theorem insertExtent_track (s : State) (x : Extent) (web : x.covers = true) : (s.insertExtent x).map.track =
    if 48 < (mergeInto s.map.track x).length then mergeSmallest (mergeInto s.map.track x) else mergeInto s.map.track x := by
  unfold State.insertExtent
  rw [if_pos web]
  have limit : Config.trackMax = 48 := rfl
  dsimp only
  rw [limit]
  split
  · rw [replan_map]
    rfl
  · rw [replan_map]

theorem insertExtent_bare (s : State) {x : Extent} (bare : x.covers ≠ true) : s.insertExtent x = s := if_neg bare

theorem insertExtent_canonical (h : s.trackCanonical) (sound : x.Sound) : (s.insertExtent x).trackCanonical := by
  by_cases web : x.covers = true
  · obtain ⟨canonical, room⟩ := (trackCanonical_iff s).mp h
    obtain ⟨merged, count⟩ := mergeInto_canonical canonical sound web
    rw [trackCanonical_iff, insertExtent_track s x web]
    split
    · next full =>
      obtain ⟨brought, less⟩ := mergeSmallest_canonical merged (by omega)
      exact ⟨brought, by omega⟩
    · next free => exact ⟨merged, by omega⟩
  · rw [insertExtent_bare s web]
    exact h

theorem expireExtents_track (s : State) : s.expireExtents.map.track = s.map.track.filter fun x => !s.expires x := by
  unfold State.expireExtents
  split
  · rw [replan_map]
  · next none_ =>
    refine (List.filter_eq_self.mpr fun x m => ?_).symm
    simpa using fun k => none_ (List.any_eq_true.mpr ⟨x, m, k⟩)

/-! ### What an insertion leaves (R22, R23, R26) -/

theorem holdsTheUnion_rule : Rule.HoldsTheUnion := by
  intro track x q _ _
  constructor
  · rintro ⟨y, m, hq⟩
    rcases (mem_placeExtent _ _ _).mp m with rfl | m
    · have merge := mergeExtents_isMergeOf x (track.filter fun y => x.meets y)
      obtain ⟨w, n, hw⟩ := merge.holds (fun y m => (List.mem_filter.mp m).2) hq
      rcases List.mem_cons.mp n with rfl | n
      · exact .inl hw
      · exact .inr ⟨w, (List.mem_filter.mp n).1, hw⟩
    · exact .inr ⟨y, (List.mem_filter.mp m).1, hq⟩
  · have grows : ∀ y, y = x ∨ y ∈ track → y.holds q → ∃ z ∈ mergeInto track x, z.holds q := fun y m hq => by
      obtain ⟨z, n, g⟩ := mergeInto_grows track x y m
      exact ⟨z, n, g.holds hq⟩
    rintro (hq | ⟨y, m, hq⟩)
    · exact grows x (.inl rfl) hq
    · exact grows y (.inr m) hq

theorem insertionMerges_rule : Rule.InsertionMerges := by
  refine ⟨fun s x e f le => insertExtent_bare s fun web => absurd ((covers_iff x).mp web e f) (not_lt.mpr le), fun track x => ?_⟩
  exact ⟨fun y => x.meets y, _, meets_iff x, mergeExtents_isMergeOf x _, placeExtent_perm _ _⟩

/-- A raised class of a port with its class table has its raw flag set. -/
theorem raise_raw (s : State) (n : Notice) (h : n.number < (s.port n.port).classes.length) :
    ((s.raise n).port n.port).rawOf n.number = true := by
  unfold State.raise
  rw [State.port_setPort]
  exact PortRec.raise_raw _ _ h

theorem replan_ports (s : State) : s.replan.ports = s.ports := by
  rcases s.replan_eq with e | e <;> rw [e]
  rfl

theorem replan_work (s : State) : s.replan.work = s.work ++ if s.part = .tracking then [.recompute] else [] := by
  unfold State.replan State.tracking
  cases s.part <;> simp

/-- An insertion of web is handed to the planner, which recomputes in TRACKING (R26). -/
theorem insertExtent_work (s : State) (x : Extent) : (s.insertExtent x).work =
    s.work ++ if s.part = .tracking ∧ x.covers = true then [.recompute] else [] := by
  by_cases web : x.covers = true
  · unfold State.insertExtent
    rw [if_pos web]
    simp only [web, and_true]
    split <;> exact replan_work _
  · rw [insertExtent_bare s web]
    simp [web]

/-- An insertion that leaves the track its room raises nothing. -/
theorem insertExtent_ports (s : State) (x : Extent) (room : (mergeInto s.map.track x).length ≤ 48) :
    (s.insertExtent x).ports = s.ports := by
  unfold State.insertExtent
  have limit : Config.trackMax = 48 := rfl
  split
  · dsimp only
    rw [limit, if_neg (Nat.not_lt.mpr room), replan_ports]
  · rfl

/-- An insertion that overfills the track raises MAP_MERGED (R23). -/
theorem insertExtent_raises (s : State) (x : Extent) (web : x.covers = true) (full : 48 < (mergeInto s.map.track x).length)
    (classes : (s.port .planning).classes.length = 12) : ((s.insertExtent x).port .planning).rawOf 8 = true := by
  unfold State.insertExtent
  have limit : Config.trackMax = 48 := rfl
  rw [if_pos web]
  dsimp only
  rw [limit, if_pos full]
  unfold State.port
  rw [replan_ports]
  refine raise_raw { s with map := { s.map with track := mergeSmallest (mergeInto s.map.track x) } } .mapMerged ?_
  exact classes ▸ (by decide : 8 < 12)

theorem smallestGapIsMerged_rule : Rule.SmallestGapIsMerged := by
  intro s x web t all gap
  have frame := insertExtent_frame s x
  obtain ⟨lanes, zones⟩ := insertExtent_map s x
  have track : t.map.track = if 48 < all.length then mergeSmallest all else all := insertExtent_track s x web
  have work : t.work = s.work ++ if s.part = .tracking then [.recompute] else [] := by
    simpa only [web, and_true] using insertExtent_work s x
  refine ⟨fun room => ⟨?_, insertExtent_ports s x room⟩, fun full => ⟨insertExtent_raises s x web full, ?_⟩,
    lanes, zones, work, frame.1⟩
  · rw [track, if_neg (Nat.not_lt.mpr room)]
  · obtain ⟨before, y, z, after, split, merged, least⟩ := mergeSmallest_spec (track := all) (by omega)
    refine ⟨before, y, z, after, _, split, by rw [track, if_pos full, merged], mergeExtents_isMergeOf y [z], ?_⟩
    intro b y' z' rest e
    exact least b y' z' ⟨rest, e⟩

/-- Settles O13: the merge of the extents met is `mergeExtents`, and the merge of a full track `mergeSmallest_spec`. -/
theorem insertionHoldsTheUnion : Obligations.InsertionHoldsTheUnion :=
  ⟨holdsTheUnion_rule, insertionMerges_rule, smallestGapIsMerged_rule⟩

end Sys2Proof.Machine
end

section
/-! PROOF. The bounds of the collections: the relation that every operation keeps, the updates, the web map and the planner
(R20, R22, R29, R44, R68, R156). -/

namespace Sys2Proof.Machine

variable {s t u : State}

/-! ### The bounds -/

/-- A main track that is canonical and within its limit (R22, R23). -/
def Track.Within (l : List Extent) : Prop := Track.Canonical l ∧ l.length ≤ 48

/-- A book of distinct ids within its limit (R44). -/
def BookFits (b : List OrderRec) : Prop := (b.map fun r => r.fig.id).Nodup ∧ b.length ≤ 32

theorem Track.within_nil : Track.Within [] := ⟨⟨nofun, nofun, .nil⟩, Nat.zero_le 48⟩

/-- Between two states every bound of the collections is kept. -/
structure BoundsKept (s t : State) : Prop where
  track : Track.Within s.map.track → Track.Within t.map.track
  marks : ∀ l, (s.lane l).marks.length ≤ 8 → (t.lane l).marks.length ≤ 8
  book : BookFits s.book → BookFits t.book
  window : s.plan.window.length ≤ 6 → t.plan.window.length ≤ 6
  released : s.dry.released.length ≤ 16 → t.dry.released.length ≤ 16

theorem BoundsKept.refl (s : State) : BoundsKept s s := ⟨id, fun _ => id, id, id, id⟩

theorem BoundsKept.trans (h : BoundsKept s t) (k : BoundsKept t u) : BoundsKept s u :=
  ⟨k.track ∘ h.track, fun l => k.marks l ∘ h.marks l, k.book ∘ h.book, k.window ∘ h.window, k.released ∘ h.released⟩

theorem BoundsKept.canonical (h : BoundsKept s t) (k : s.trackCanonical) : t.trackCanonical :=
  (trackCanonical_iff t).mpr (h.track ((trackCanonical_iff s).mp k))

theorem BoundsKept.capacity (h : BoundsKept s t) (k : s.withinCapacity) : t.withinCapacity where
  marks l := h.marks l (k.marks l)
  book := (h.book ⟨k.ids, k.book⟩).2
  ids := (h.book ⟨k.ids, k.book⟩).1
  window := h.window k.window
  released := h.released k.released

theorem BookFits.of_figures {b c : List OrderRec} (h : BookFits b) (e : c.map OrderRec.fig = b.map OrderRec.fig) : BookFits c := by
  have ids : (c.map fun r => r.fig.id) = b.map fun r => r.fig.id := by
    simpa [List.map_map, Function.comp_def] using congrArg (List.map OrderFigures.id) e
  have count : c.length = b.length := by simpa using congrArg List.length e
  exact ⟨ids ▸ h.1, count ▸ h.2⟩

theorem BookFits.map {b : List OrderRec} (h : BookFits b) {f : OrderRec → OrderRec} (e : ∀ r, (f r).fig.id = r.fig.id) :
    BookFits (b.map f) := by
  refine ⟨?_, (List.length_map (as := b) f).symm ▸ h.2⟩
  rw [List.map_map]
  exact (List.map_congr_left (g := fun r : OrderRec => r.fig.id) fun r _ => e r) ▸ h.1

/-! ### Updates -/

theorem BoundsKept.setChannel (h : BoundsKept s t) (c : Channel) (r : ChannelRec) : BoundsKept s (t.setChannel c r) :=
  ⟨h.track, h.marks, h.book, h.window, h.released⟩
theorem BoundsKept.withLmu (h : BoundsKept s t) (l : Lmu) : BoundsKept s { t with lmu := l } :=
  ⟨h.track, h.marks, h.book, h.window, h.released⟩
theorem BoundsKept.withPart (h : BoundsKept s t) (p : PartState) : BoundsKept s { t with part := p } :=
  ⟨h.track, h.marks, h.book, h.window, h.released⟩
theorem BoundsKept.withProfile (h : BoundsKept s t) (p : Profile) : BoundsKept s { t with profile := p } :=
  ⟨h.track, h.marks, h.book, h.window, h.released⟩
theorem BoundsKept.withSlitter (h : BoundsKept s t) (v : SlitterUnit) : BoundsKept s { t with slitter := v } :=
  ⟨h.track, h.marks, h.book, h.window, h.released⟩
theorem BoundsKept.withWork (h : BoundsKept s t) (w : List Task) : BoundsKept s { t with work := w } :=
  ⟨h.track, h.marks, h.book, h.window, h.released⟩
theorem BoundsKept.push (h : BoundsKept s t) (ts : List Task) : BoundsKept s (t.push ts) := h.withWork _
theorem BoundsKept.setStream (h : BoundsKept s t) (x : Stream) (r : StreamRec) : BoundsKept s (t.setStream x r) :=
  ⟨h.track, h.marks, h.book, h.window, h.released⟩
theorem BoundsKept.setSlot (h : BoundsKept s t) (x : Stream) (v : Option Slot) : BoundsKept s (t.setSlot x v) := h.setStream _ _
theorem BoundsKept.setArm (h : BoundsKept s t) (x : Stream) (arm : Arm) (r : ArmRec) : BoundsKept s (t.setArm x arm r) :=
  h.setStream _ _
theorem BoundsKept.setLink (h : BoundsKept s t) (l : StandLink) : BoundsKept s (t.setLink l) :=
  ⟨h.track, h.marks, h.book, h.window, h.released⟩
theorem BoundsKept.setStation (h : BoundsKept s t) (x : Station) (r : StationRec) : BoundsKept s (t.setStation x r) :=
  h.withSlitter _
theorem BoundsKept.modifyTool (h : BoundsKept s t) (st : Station) (k : ToolKind) (n : Nat) (f : Tool → Tool) :
    BoundsKept s (t.modifyTool st k n f) := h.setStation _ _
theorem BoundsKept.dropMoves (h : BoundsKept s t) (p : MoveEntry → Bool) : BoundsKept s (t.dropMoves p) := h.withSlitter _
theorem BoundsKept.setPort (h : BoundsKept s t) (p : Port) (r : PortRec) : BoundsKept s (t.setPort p r) :=
  ⟨h.track, h.marks, h.book, h.window, h.released⟩
theorem BoundsKept.raise (h : BoundsKept s t) (n : Notice) : BoundsKept s (t.raise n) := h.setPort _ _
theorem BoundsKept.reply (h : BoundsKept s t) (p : Port) (f : Frame) : BoundsKept s (t.reply p f) := h.setPort _ _
theorem BoundsKept.attempt (h : BoundsKept s t) (p : Port) : BoundsKept s (t.attempt p) := h.setPort _ _

theorem BoundsKept.raiseIf (h : BoundsKept s t) (b : Bool) (n : Notice) : BoundsKept s (t.raiseIf b n) := by
  rcases t.raiseIf_eq b n with e | e <;> rw [e]
  · exact h
  · exact h.raise n

theorem BoundsKept.replan (h : BoundsKept s t) : BoundsKept s t.replan := by
  rcases t.replan_eq with e | e <;> rw [e]
  · exact h
  · exact h.push _

theorem BoundsKept.withTrack (h : BoundsKept s t) {l : List Extent} (k : Track.Within t.map.track → Track.Within l) :
    BoundsKept s { t with map := { t.map with track := l } } :=
  ⟨k ∘ h.track, h.marks, h.book, h.window, h.released⟩

theorem BoundsKept.withMarkers (h : BoundsKept s t) (l : List Bool) :
    BoundsKept s { t with map := { t.map with zoneTaken := l } } :=
  ⟨h.track, h.marks, h.book, h.window, h.released⟩

/-- A lane record that holds no more marks than the bound allows; unless said otherwise, the same marks. -/
theorem BoundsKept.setLane (h : BoundsKept s t) (l : Lane) {r : LaneRec}
    (k : (t.lane l).marks.length ≤ 8 → r.marks.length ≤ 8 := by exact id) : BoundsKept s (t.setLane l r) := by
  refine ⟨h.track, fun j b => ?_, h.book, h.window, h.released⟩
  have given := h.marks j b
  unfold State.lane State.setLane at *
  rw [PerLane.get_set]
  split
  · next e => exact k (e ▸ given)
  · exact given

theorem BoundsKept.setMarks (h : BoundsKept s t) (l : Lane) {ms : List LaneMark} (k : ms.length ≤ (t.lane l).marks.length) :
    BoundsKept s (t.setMarks l ms) := h.setLane l k.trans

theorem BoundsKept.withBook (h : BoundsKept s t) {b : List OrderRec} (k : BookFits t.book → BookFits b) :
    BoundsKept s { t with book := b } := ⟨h.track, h.marks, k ∘ h.book, h.window, h.released⟩

theorem BoundsKept.modifyOrder (h : BoundsKept s t) (id : Nat) {f : OrderRec → OrderRec}
    (e : ∀ r, (f r).fig.id = r.fig.id := by exact fun _ => rfl) :
    BoundsKept s (t.modifyOrder id f) := by
  refine h.withBook fun k => k.map fun r => ?_
  split
  · exact e r
  · rfl

theorem BoundsKept.withPlan (h : BoundsKept s t) {p : Planner}
    (k : t.plan.window.length ≤ 6 → p.window.length ≤ 6 := by exact id) : BoundsKept s { t with plan := p } :=
  ⟨h.track, h.marks, h.book, k ∘ h.window, h.released⟩

theorem BoundsKept.modifyWindow (h : BoundsKept s t) (id : Nat) (f : WindowOrder → WindowOrder) :
    BoundsKept s (t.modifyWindow id f) := h.withPlan fun k => (List.length_map _).symm ▸ k

theorem BoundsKept.withDry (h : BoundsKept s t) {d : DryList}
    (k : t.dry.released.length ≤ 16 → d.released.length ≤ 16 := by exact id) : BoundsKept s { t with dry := d } :=
  ⟨h.track, h.marks, h.book, h.window, k ∘ h.released⟩

theorem BoundsKept.foldl {α : Type} (f : State → α → State) (hf : ∀ {u} (a : α), BoundsKept s u → BoundsKept s (f u a))
    (l : List α) (h : BoundsKept s t) : BoundsKept s (l.foldl f t) := by
  induction l generalizing t with
  | nil => exact h
  | cons a as ih => exact ih (hf a h)

/-! ### The map (R22 to R40) -/

theorem MapAlone.book (h : MapAlone s t) : t.book = s.book := by
  unfold MapAlone at h
  rw [← h]
theorem MapAlone.plan (h : MapAlone s t) : t.plan = s.plan := by
  unfold MapAlone at h
  rw [← h]
theorem MapAlone.dry (h : MapAlone s t) : t.dry = s.dry := by
  unfold MapAlone at h
  rw [← h]

theorem insertExtent_plan (s : State) (x : Extent) : (s.insertExtent x).plan = s.plan := MapAlone.plan (insertExtent_frame s x).1

theorem BoundsKept.insertExtent (h : BoundsKept s t) {x : Extent} (sound : x.Sound) : BoundsKept s (t.insertExtent x) := by
  have alone : MapAlone t (t.insertExtent x) := (insertExtent_frame t x).1
  have lanes : (t.insertExtent x).map.lanes = t.map.lanes := (insertExtent_map t x).1
  refine ⟨fun k => ?_, fun l k => ?_, alone.book ▸ h.book, alone.plan ▸ h.window, alone.dry ▸ h.released⟩
  · exact (trackCanonical_iff _).mp (insertExtent_canonical ((trackCanonical_iff t).mpr (h.track k)) sound)
  · unfold State.lane
    rw [lanes]
    exact h.marks l k

theorem BoundsKept.expireExtents (h : BoundsKept s t) : BoundsKept s t.expireExtents := by
  unfold State.expireExtents
  split
  · exact (h.withTrack fun k => ⟨k.1.sublist List.filter_sublist, (List.length_filter_le _ _).trans k.2⟩).replan
  · exact h

theorem BoundsKept.closeClaim (h : BoundsKept s t) (c : Claim) (e : Pos) : BoundsKept s (t.closeClaim c e) := by
  unfold State.closeClaim
  split
  · refine (h.withTrack fun k => ⟨closeClaims_canonical k.1 c e, (List.length_filter_le _ _).trans ?_⟩).replan.expireExtents
    exact (List.length_map _).symm ▸ k.2
  · exact h

theorem BoundsKept.setOffset (h : BoundsKept s t) (l : Lane) (k : Int) : BoundsKept s (t.setOffset l k) := by
  unfold State.setOffset
  split
  · exact h
  · exact (h.setLane l).push _

theorem BoundsKept.correctOffset (h : BoundsKept s t) (l : Lane) (k : Int) : BoundsKept s (t.correctOffset l k) := by
  unfold State.correctOffset
  split
  · exact (h.push _).replan
  · exact h.setOffset l k

theorem BoundsKept.setUnsynced (h : BoundsKept s t) (l : Lane) : BoundsKept s (t.setUnsynced l) :=
  (h.setLane l).raiseIf _ _

theorem BoundsKept.clearUnsynced (h : BoundsKept s t) (l : Lane) : BoundsKept s (t.clearUnsynced l) := h.setLane l

theorem BoundsKept.spillMark (h : BoundsKept s t) (l : Lane) : BoundsKept s (t.spillMark l) := by
  unfold State.spillMark
  split
  · exact h
  · split
    · exact (h.setMarks l (List.length_filter_le _ _)).insertExtent (Extent.closed_sound _ _ _ _)
    · exact h

/-- The oldest of some marks is one of them. -/
theorem oldestMark_mem {ms : List LaneMark} {o : LaneMark} (h : oldestMark ms = some o) : o ∈ ms := by
  induction ms generalizing o with
  | nil => cases h
  | cons m ms ih =>
    unfold oldestMark at h
    cases hp : oldestMark ms with
    | none =>
      simp only [hp, Option.some.injEq] at h
      exact h ▸ List.mem_cons_self
    | some p =>
      simp only [hp, Option.some.injEq] at h
      split at h
      · exact h ▸ List.mem_cons_of_mem _ (ih hp)
      · exact h ▸ List.mem_cons_self

theorem oldestMark_isSome {ms : List LaneMark} (h : ms ≠ []) : ∃ o, oldestMark ms = some o := by
  cases ms with
  | nil => exact absurd rfl h
  | cons m ms =>
    unfold oldestMark
    split
    · exact ⟨_, rfl⟩
    · exact ⟨_, rfl⟩

theorem insertExtent_lane (s : State) (x : Extent) (l : Lane) : (s.insertExtent x).lane l = s.lane l := by
  unfold State.lane
  rw [(insertExtent_map s x).1]

/-- Behind a spill a lane track has room for a mark (R29). -/
theorem spillMark_room (l : Lane) (h : (t.lane l).marks.length ≤ 8) : ((t.spillMark l).lane l).marks.length < 8 := by
  have limit : Config.marksMax = 8 := rfl
  unfold State.spillMark
  rw [limit]
  split
  · next free => exact free
  · next full =>
    have some_ : (t.lane l).marks ≠ [] := by
      intro none_
      rw [none_] at full
      exact full (by decide)
    obtain ⟨o, ho⟩ := oldestMark_isSome some_
    simp only [ho]
    rw [insertExtent_lane, State.setMarks, State.lane_setLane]
    refine lt_of_lt_of_le ?_ h
    exact List.length_filter_lt_length_iff_exists.mpr ⟨o, oldestMark_mem ho, by simp⟩

theorem length_placeMark (m : LaneMark) (ms : List LaneMark) : (placeMark m ms).length = ms.length + 1 := by
  induction ms with
  | nil => rfl
  | cons y ms ih =>
    unfold placeMark
    split
    · rfl
    · rw [List.length_cons, ih, List.length_cons]

theorem BoundsKept.enterMark (h : BoundsKept s t) (l : Lane) (x : Stream) (arm : Arm) (n : Nat) (f v : Bool) :
    BoundsKept s (t.enterMark l x arm n f v) := by
  have entered : BoundsKept t (t.enterMark l x arm n f v) := by
    refine BoundsKept.replan (BoundsKept.push ?_ _)
    have spilt := (BoundsKept.refl t).spillMark l
    refine ⟨spilt.track, fun j k => ?_, spilt.book, spilt.window, spilt.released⟩
    by_cases e : j = l
    · subst e
      rw [State.lane_setLane, length_placeMark]
      exact spillMark_room j k
    · have other := spilt.marks j k
      unfold State.lane State.setLane at *
      rwa [PerLane.get_set_other _ _ _ _ e]
  exact h.trans entered

theorem BoundsKept.windowTest (h : BoundsKept s t) (l : Lane) : BoundsKept s (t.windowTest l) := by
  unfold State.windowTest
  dsimp only
  split
  · exact h
  · exact BoundsKept.foldl _ (fun _ k => (k.insertExtent (Extent.closed_sound _ _ _ _)).raise _) _
      (h.setMarks l (List.length_filter_le _ _)).replan

theorem BoundsKept.recogniserTest (h : BoundsKept s t) (l : Lane) : BoundsKept s (t.recogniserTest l) := by
  unfold State.recogniserTest
  dsimp only
  split
  · exact (h.setLane l).push _
  · exact h.setLane l

theorem BoundsKept.confirmSeam (h : BoundsKept s t) (l : Lane) (q : Pos) (m : LaneMark) :
    BoundsKept s (t.confirmSeam l q m) := by
  unfold State.confirmSeam
  exact (((h.setMarks l (List.length_filter_le _ _)).insertExtent (Extent.closed_sound _ _ _ _)).clearUnsynced l).correctOffset _ _

theorem BoundsKept.matchSeam (h : BoundsKept s t) (l : Lane) (q : Pos) : BoundsKept s (t.matchSeam l q) := by
  unfold State.matchSeam
  split
  · exact h.confirmSeam _ _ _
  · exact (h.insertExtent (Extent.closed_sound _ _ _ _)).raise _

theorem BoundsKept.takeZone (h : BoundsKept s t) (n : Nat) : BoundsKept s (t.takeZone n) := by
  unfold State.takeZone
  split
  · dsimp only
    split
    · exact ((h.withMarkers _).insertExtent (Extent.closed_sound _ _ _ _)).raise _
    · exact h.withMarkers _
  · exact h

theorem BoundsKept.takeDueZones (h : BoundsKept s t) : BoundsKept s t.takeDueZones := by
  unfold State.takeDueZones
  refine BoundsKept.foldl _ (fun n k => ?_) _ h
  split
  · exact k.takeZone _
  · exact k

theorem BoundsKept.openBreak (h : BoundsKept s t) (x : Stream) : BoundsKept s (t.openBreak x) := by
  unfold State.openBreak
  split
  · exact (h.insertExtent (Extent.opened_sound _ _ _)).setUnsynced _
  · exact h.insertExtent (Extent.opened_sound _ _ _)

/-! ### The planner (R68 to R92) -/

theorem BoundsKept.writeLines (h : BoundsKept s t) (ls : List Line) (k : LinesOf t ls) : BoundsKept s (t.writeLines ls) := by
  have figures := ((Untouched.refl t).writeLines ls k).figures
  exact ⟨h.track, h.marks, fun b => (h.book b).of_figures (figures (h.book b).1),
    fun b => (List.length_map _).symm ▸ h.window b, h.released⟩

theorem BoundsKept.followW0 (h : BoundsKept s t) : BoundsKept s t.followW0 := by
  unfold State.followW0
  split
  · exact h.withPlan
  · exact h

theorem BoundsKept.refreshSlot (h : BoundsKept s t) (x : Stream) : BoundsKept s (t.refreshSlot x) := by
  unfold State.refreshSlot
  dsimp only
  repeat' split
  · exact h
  · exact h.setSlot _ _
  · exact h.setSlot _ _
  · exact h

theorem BoundsKept.refreshSlots (h : BoundsKept s t) : BoundsKept s t.refreshSlots :=
  BoundsKept.foldl _ (fun _ k => k.refreshSlot _) _ h

theorem BoundsKept.shiftPlan (h : BoundsKept s t) : BoundsKept s t.shiftPlan :=
  (h.writeLines _ ((linesOf_lines t).shiftLines _)).followW0.refreshSlots

theorem BoundsKept.insertSpan (h : BoundsKept s t) (l : Line) : BoundsKept s (t.insertSpan l) := by
  unfold State.insertSpan
  split
  · exact (h.modifyWindow _ _).insertExtent (Extent.closed_sound _ _ _ _)
  · exact h

theorem BoundsKept.pinOne (h : BoundsKept s t) (id : Nat) (m : Bool) : BoundsKept s (t.pinOne id m) := by
  unfold State.pinOne
  split
  · exact h
  · next l hl =>
    split
    · exact h
    · have pinned := ((h.writeLines _ (LinesOf.pinned (List.mem_of_find?_eq_some hl) m)).shiftPlan.raise .pinned).replan
      dsimp only
      split
      · exact pinned.insertSpan _
      · exact pinned

theorem BoundsKept.pinEnd (h : BoundsKept s t) (id : Nat) (m : Bool) : BoundsKept s (t.pinEnd id m) := by
  unfold State.pinEnd
  split
  · exact BoundsKept.foldl _ (fun _ k => k.pinOne _ _) _ h
  · exact h

theorem BoundsKept.pinStart (h : BoundsKept s t) (id : Nat) : BoundsKept s (t.pinStart id) := by
  unfold State.pinStart
  split
  · exact h.pinEnd _ _
  · exact h

theorem BoundsKept.insertPinnedSpans (h : BoundsKept s t) : BoundsKept s t.insertPinnedSpans := by
  unfold State.insertPinnedSpans
  refine BoundsKept.foldl _ (fun _ k => ?_) _ h
  split
  · exact k.insertSpan _
  · exact k

theorem BoundsKept.spendTarget (h : BoundsKept s t) (id : Nat) (x : Stream) : BoundsKept s (t.spendTarget id x) :=
  h.modifyWindow _ _

theorem BoundsKept.offerFrom (x : Stream) (ls : List (Line × PrevFigures)) (h : BoundsKept s t) :
    BoundsKept s (State.offerFrom x ls t) := by
  induction ls generalizing t with
  | nil => exact h
  | cons l ls ih =>
    unfold State.offerFrom
    dsimp only
    repeat' split
    · exact ih (h.spendTarget _ _)
    · exact h.setSlot _ _
    · exact ih h

theorem BoundsKept.offerTargets (h : BoundsKept s t) (x : Stream) : BoundsKept s (t.offerTargets x) := by
  unfold State.offerTargets
  split
  · exact BoundsKept.offerFrom _ _ h
  · exact h

theorem BoundsKept.withdrawTarget (h : BoundsKept s t) (x : Stream) : BoundsKept s (t.withdrawTarget x) := by
  unfold State.withdrawTarget
  repeat' split
  · exact h
  · exact h
  · exact (h.setSlot _ _).push _
  · exact h
  · exact h

theorem BoundsKept.fireTrigger (h : BoundsKept s t) : BoundsKept s t.fireTrigger := by
  unfold State.fireTrigger
  split
  · exact h
  · exact ((((h.modifyWindow _ _).withPlan).raise _).pinStart _).push _

theorem BoundsKept.block (h : BoundsKept s t) (r : OrderRec) (b : Blocked) (st : Option Station) :
    BoundsKept s (t.block r b st) := (h.modifyOrder _).raiseIf _ _

theorem BoundsKept.startCutting (h : BoundsKept s t) (id : Nat) : BoundsKept s (t.startCutting id) := by
  unfold State.startCutting
  repeat' split
  · exact (h.modifyOrder _).raise _
  · exact h
  · exact h

theorem BoundsKept.cutting (h : BoundsKept s t) : BoundsKept s t.cutting :=
  BoundsKept.foldl _ (fun _ k => k.startCutting _) _ h

theorem BoundsKept.gapDecision (h : BoundsKept s t) (prev : PrevFigures) (r : OrderRec) :
    BoundsKept s (t.gapDecision prev r).1 := by
  unfold State.gapDecision
  dsimp only
  split
  · exact h
  · dsimp only
    split
    · exact h.pinEnd _ _
    · exact h

theorem BoundsKept.entryGap (h : BoundsKept s t) (r : OrderRec) (prev : Option PrevFigures) :
    BoundsKept s (t.entryGap r prev).1 := by
  cases prev with
  | none => exact h
  | some p => exact h.gapDecision p r

/-- An order joins a window that has room (R68). -/
theorem BoundsKept.joinWindow (h : BoundsKept s t) (id : Nat) (prev : Option PrevFigures) (st : Station) (n : Nat)
    (room : t.plan.window.length < 6) : BoundsKept s (t.joinWindow id prev st n) := by
  unfold State.joinWindow
  extract_lets gap w modified
  have kept : BoundsKept s modified := h.modifyOrder _
  refine ⟨kept.track, kept.marks, kept.book, fun _ => ?_, kept.released⟩
  rw [List.length_append, List.length_singleton]
  exact room

theorem BoundsKept.countEntered (h : BoundsKept s t) (id : Nat) (b : Bool) : BoundsKept s (t.countEntered id b) := by
  unfold State.countEntered
  have counted := h.writeLines _ (((linesOf_lines t).filter fun l => l.w.id == id).map
    (t.countLine none (t.spansUpTo id t.lines)) fun l => countLine_same _ _ _ _)
  exact (((counted.followW0.raiseIf _ _).raise _).startCutting _).replan

/-! The pin that a gap decision may need leaves the window as long as it was. -/

theorem length_window_writeLines (s : State) (ls : List Line) :
    (s.writeLines ls).plan.window.length = s.plan.window.length := List.length_map _

theorem window_followW0 (s : State) : s.followW0.plan.window = s.plan.window := by
  unfold State.followW0
  split <;> rfl

theorem plan_refreshSlot (s : State) (x : Stream) : (s.refreshSlot x).plan = s.plan := by
  unfold State.refreshSlot
  dsimp only
  repeat' split
  all_goals rfl

theorem plan_refreshSlots (s : State) : s.refreshSlots.plan = s.plan := by
  simp only [State.refreshSlots, Stream.all, List.foldl_cons, List.foldl_nil, plan_refreshSlot]

theorem replan_plan (s : State) : s.replan.plan = s.plan := by
  rcases s.replan_eq with e | e <;> rw [e]
  rfl

theorem length_window_insertSpan (s : State) (l : Line) : (s.insertSpan l).plan.window.length = s.plan.window.length := by
  unfold State.insertSpan
  split
  · next a b _ =>
    rw [insertExtent_plan]
    exact List.length_map _
  · rfl

theorem length_window_pinOne (s : State) (id : Nat) (m : Bool) : (s.pinOne id m).plan.window.length = s.plan.window.length := by
  unfold State.pinOne
  split
  · rfl
  · split
    · rfl
    · extract_lets pinned
      have kept : pinned.plan.window.length = s.plan.window.length := by
        dsimp only [pinned]
        rw [replan_plan, State.raise_plan, State.shiftPlan, plan_refreshSlots, window_followW0, length_window_writeLines,
          length_window_writeLines]
      split
      · rw [length_window_insertSpan, kept]
      · exact kept

theorem length_window_foldl_pinOne (id : Nat) (m : Bool) (ids : List Nat) (s : State) :
    (ids.foldl (fun s k => s.pinOne k (m || k != id)) s).plan.window.length = s.plan.window.length := by
  induction ids generalizing s with
  | nil => rfl
  | cons k ids ih => rw [List.foldl_cons, ih, length_window_pinOne]

theorem length_window_pinEnd (s : State) (id : Nat) (m : Bool) : (s.pinEnd id m).plan.window.length = s.plan.window.length := by
  unfold State.pinEnd
  split
  · exact length_window_foldl_pinOne _ _ _ _
  · rfl

theorem length_window_entryGap (s : State) (r : OrderRec) (prev : Option PrevFigures) :
    (s.entryGap r prev).1.plan.window.length = s.plan.window.length := by
  cases prev with
  | none => rfl
  | some p =>
    change (s.gapDecision p r).1.plan.window.length = _
    unfold State.gapDecision
    dsimp only
    split
    · rfl
    · dsimp only
      split
      · exact length_window_pinEnd _ _ _
      · rfl

theorem BoundsKept.takeOrder (h : BoundsKept s t) (r : OrderRec) (prev : Option PrevFigures) (st : Station)
    (room : t.plan.window.length < 6) : BoundsKept s (t.takeOrder r prev st) := by
  unfold State.takeOrder
  extract_lets id taken gap
  have named : BoundsKept s taken := (h.modifyOrder _).raiseIf _ _
  have same : taken.plan = t.plan := by
    dsimp only [taken, State.watchQueued]
    rcases State.raiseIf_eq (t.modifyOrder id fun r => { r with phase := .planned, blocked := .none, station := some st })
      (t.queuedCount == 1 && _) .bookEmpty with e | e <;> rw [e] <;> rfl
  refine BoundsKept.countEntered ((named.entryGap r prev).joinWindow _ _ _ _ ?_) _ _
  rw [length_window_entryGap, same]
  exact room

theorem BoundsKept.fillOne (h : BoundsKept s t) : BoundsKept s t.fillOne := by
  unfold State.fillOne
  split
  · next room =>
    dsimp only
    repeat' split
    · exact h
    · exact h.block _ _ _
    · exact h.block _ _ _
    · exact h.takeOrder _ _ _ room
  · exact h

theorem BoundsKept.setTargets (h : BoundsKept s t) : BoundsKept s t.setTargets :=
  BoundsKept.foldl _ (fun _ k => k.offerTargets _) _ (BoundsKept.foldl _ (fun _ k => k.withdrawTarget _) _ h.refreshSlots)

theorem BoundsKept.setSwaps (h : BoundsKept s t) : BoundsKept s t.setSwaps :=
  h.writeLines _ ((linesOf_lines t).replanLines t none)

theorem BoundsKept.recompute (h : BoundsKept s t) : BoundsKept s t.recompute := by
  unfold State.recompute
  split
  · have counted := (h.writeLines _ ((linesOf_lines t).countLines t none [])).followW0
    exact counted.setTargets.setSwaps.insertPinnedSpans.fillOne.push _
  · exact h

end Sys2Proof.Machine
end

section
/-! PROOF. The bounds of the collections: the acts of every block (R20, R22, R29, R44, R68, R156). -/

namespace Sys2Proof.Machine

variable {s t u : State}

/-! ### The splice sequencer (R93 to R126) -/

theorem BoundsKept.commitSlot (h : BoundsKept s t) (x : Stream) (v : Slot) (arm : Arm) : BoundsKept s (t.commitSlot x v arm) :=
  (((h.setArm x arm _).setSlot _ _).raise _).raiseIf _ _

theorem BoundsKept.pinTargetStart (h : BoundsKept s t) (v : Slot) : BoundsKept s ((v.target?.map t.pinStart).getD t) := by
  cases v.target? with
  | none => exact h
  | some id => exact h.pinStart id

theorem BoundsKept.commitTest (h : BoundsKept s t) (x : Stream) : BoundsKept s (t.commitTest x) := by
  unfold State.commitTest
  dsimp only
  repeat' split
  · exact h
  · exact (h.pinTargetStart _).commitSlot _ _ _
  · exact ((h.pinTargetStart _).setSlot _ _).raiseIf _ _
  · exact h

theorem BoundsKept.deferredTest (h : BoundsKept s t) (x : Stream) : BoundsKept s (t.deferredTest x) := by
  unfold State.deferredTest
  repeat' split
  all_goals first | exact h | exact h.commitSlot _ _ _

theorem BoundsKept.wrongGradeTest (h : BoundsKept s t) (x : Stream) : BoundsKept s (t.wrongGradeTest x) := by
  unfold State.wrongGradeTest
  repeat' split
  · exact h
  · exact (h.setSlot _ _).insertExtent (Extent.opened_sound _ _ _)
  · exact h

theorem BoundsKept.fireSplice (h : BoundsKept s t) (x : Stream) (v : Slot) : BoundsKept s (t.fireSplice x v) := by
  unfold State.fireSplice
  extract_lets v' record fired seam closed
  have slotFired : BoundsKept s fired := h.setStream _ _
  have claimClosed : BoundsKept s closed := by
    dsimp only [closed]
    split
    · exact slotFired.closeClaim _ _
    · exact slotFired
  split
  · exact claimClosed.insertExtent (Extent.closed_sound _ _ _ _)
  · exact claimClosed

theorem BoundsKept.fireTest (h : BoundsKept s t) (x : Stream) : BoundsKept s (t.fireTest x) := by
  unfold State.fireTest
  repeat' split
  all_goals first | exact h | exact h.fireSplice _ _

theorem BoundsKept.insertFault (h : BoundsKept s t) (x : Stream) (v : Slot) : BoundsKept s (t.insertFault x v) :=
  h.insertExtent (Extent.closed_sound _ _ _ _)

theorem BoundsKept.faultSplice (h : BoundsKept s t) (x : Stream) (v : Slot) : BoundsKept s (t.faultSplice x v) :=
  ((h.setSlot _ _).setArm _ _ _).insertFault _ _

theorem BoundsKept.doneWindowTest (h : BoundsKept s t) (x : Stream) : BoundsKept s (t.doneWindowTest x) := by
  unfold State.doneWindowTest
  split
  · exact h
  · next v _ =>
    split
    · refine BoundsKept.raise ?_ _
      cases v.target? with
      | none => exact h.faultSplice x v
      | some id => exact (h.faultSplice x v).spendTarget id x
    · exact h

theorem BoundsKept.runoutConflict (h : BoundsKept s t) (x : Stream) (v : Slot) (arm : Arm) (f : Pos) :
    BoundsKept s (t.runoutConflict x v arm f) := by
  unfold State.runoutConflict
  dsimp only
  split
  · exact ((h.setSlot _ _).raise _).push _
  · exact ((h.setSlot _ _).raise _).push _

theorem BoundsKept.runoutTest (h : BoundsKept s t) (x : Stream) : BoundsKept s (t.runoutTest x) := by
  unfold State.runoutTest
  dsimp only
  repeat' split
  all_goals first | exact h | exact (h.setSlot _ _).push _ | exact h.runoutConflict _ _ _ _

theorem BoundsKept.slotFreeAct (h : BoundsKept s t) (x : Stream) : BoundsKept s (t.slotFreeAct x) := (h.offerTargets x).push _

/-! ### The slitter station unit (R127 to R152) -/

theorem BoundsKept.joinMoves (h : BoundsKept s t) (ms : List MoveEntry) : BoundsKept s (t.joinMoves ms) :=
  (h.withSlitter _).raiseIf _ _

theorem BoundsKept.loseMoves (h : BoundsKept s t) (st : Station) : BoundsKept s (t.loseMoves st) :=
  (h.setStation _ _).dropMoves _

theorem BoundsKept.assignLayout (h : BoundsKept s t) (st : Station) (l : Layout) (b : Bool) :
    BoundsKept s (t.assignLayout st l b) := ((h.setStation _ _).dropMoves _).joinMoves _

theorem BoundsKept.failStation (h : BoundsKept s t) (st : Station) : BoundsKept s (t.failStation st) :=
  ((h.loseMoves st).setStation _ _).raise _

theorem BoundsKept.lapseSwap (h : BoundsKept s t) (st : Station) (l : LateSwap) : BoundsKept s (t.lapseSwap st l) :=
  (((h.closeClaim _ _).modifyWindow _ _).setStation _ _).replan

theorem BoundsKept.resolveSwap (h : BoundsKept s t) (st : Station) (l : LateSwap) (x : Pos) :
    BoundsKept s (t.resolveSwap st l x) := by
  unfold State.resolveSwap
  extract_lets pair named closed inserted
  have claimClosed : BoundsKept s closed := (h.modifyWindow _ _).closeClaim _ _
  have spanInserted : BoundsKept s inserted := by
    dsimp only [inserted]
    split
    · exact claimClosed.insertExtent (Extent.closed_sound _ _ _ _)
    · exact claimClosed
  exact (spanInserted.setStation _ _).replan

theorem BoundsKept.settleSwap (h : BoundsKept s t) (st : Station) : BoundsKept s (t.settleSwap st) := by
  unfold State.settleSwap
  repeat' split
  all_goals first | exact h | exact h.resolveSwap _ _ _ | exact h.lapseSwap _ _

theorem BoundsKept.lapseTest (h : BoundsKept s t) (st : Station) : BoundsKept s (t.lapseTest st) := by
  unfold State.lapseTest
  repeat' split
  all_goals first | exact h | exact h.lapseSwap _ _

theorem BoundsKept.takeLateSwap (h : BoundsKept s t) (st : Station) (id : Nat) (b : Bool) :
    BoundsKept s (t.takeLateSwap st id b) := by
  unfold State.takeLateSwap
  extract_lets lapsed pinned
  have earlierLapsed : BoundsKept s lapsed := by
    dsimp only [lapsed]
    split
    · exact h.lapseSwap _ _
    · exact h
  have startPinned : BoundsKept s pinned := earlierLapsed.pinStart _
  split
  · exact ((((startPinned.modifyWindow _ _).insertExtent (Extent.opened_sound _ _ _)).setStation _ _).raise _).replan
  · exact startPinned

theorem BoundsKept.becomeReady (h : BoundsKept s t) (st : Station) : BoundsKept s (t.becomeReady st) :=
  ((h.setStation _ _).raise _).settleSwap st

theorem BoundsKept.startSetup (h : BoundsKept s t) (st : Station) (d : Demand) : BoundsKept s (t.startSetup st d) := by
  unfold State.startSetup
  extract_lets r taken named begun assigned
  have setupBegun : BoundsKept s begun := ((h.setStation _ _).modifyWindow _ _).dropMoves _
  repeat' split
  · exact (setupBegun.assignLayout _ _ _).setStation _ _
  · exact (setupBegun.assignLayout _ _ _).becomeReady _
  · exact setupBegun.failStation _

theorem BoundsKept.setupForDemand (h : BoundsKept s t) (st : Station) : BoundsKept s (t.setupForDemand st) := by
  unfold State.setupForDemand
  split
  · exact h.startSetup _ _
  · exact h

theorem BoundsKept.demandChanged (h : BoundsKept s t) (st : Station) (d : Option Demand) :
    BoundsKept s (t.demandChanged st d) := by
  unfold State.demandChanged
  dsimp only
  repeat' split
  all_goals first
    | exact h
    | exact h.startSetup _ _
    | exact (h.loseMoves _).setStation _ _
    | exact (h.setStation _ _).modifyWindow _ _
    | exact (((h.setStation _ _).modifyWindow _ _).raise _).settleSwap _
    | exact h.setStation _ _

theorem BoundsKept.setDemand (h : BoundsKept s t) (st : Station) : BoundsKept s (t.setDemand st) := by
  unfold State.setDemand
  dsimp only
  repeat' split
  all_goals first | exact h | exact (h.setStation _ _).demandChanged _ _

theorem BoundsKept.dropStation (h : BoundsKept s t) (st : Station) : BoundsKept s (t.dropStation st) := by
  unfold State.dropStation
  dsimp only
  split
  · exact (h.setStation _ _).push _
  · exact (((h.loseMoves _).insertExtent (Extent.opened_sound _ _ _)).setStation _ _).push _

theorem BoundsKept.liftStation (h : BoundsKept s t) (st : Station) : BoundsKept s (t.liftStation st) := by
  unfold State.liftStation
  dsimp only
  split
  · exact ((h.setStation _ _).closeClaim _ _).setupForDemand _
  · exact h

/-! ### The dry action list (R153 to R172) -/

/-- A record joins a released set that has room (R156). -/
theorem BoundsKept.joinReleased (h : BoundsKept s t) (r : ActionRec) (room : t.dry.released.length < 16) :
    BoundsKept s (t.joinReleased r) := by
  refine BoundsKept.raiseIf (h.withDry fun _ => ?_) _ _
  rw [List.length_append, List.length_singleton]
  exact room

/-- A record is released only into a set that has room (R156). -/
theorem room_of_mayRelease {p : PendingRec} (h : t.mayRelease p = true) : t.dry.released.length < 16 := by
  unfold State.mayRelease at h
  simp only [Bool.and_eq_true, decide_eq_true_eq] at h
  exact h.2

theorem BoundsKept.passCut (h : BoundsKept s t) (p : PendingRec) : BoundsKept s (t.passCut p) := by
  unfold State.passCut
  split
  · exact h.modifyWindow _ _
  · exact h.modifyWindow _ _
  · exact h.withDry
  · exact h
  · exact h
  · exact h

theorem BoundsKept.releaseCut (h : BoundsKept s t) (p : PendingRec) (room : t.dry.released.length < 16) :
    BoundsKept s (t.releaseCut p) := by
  unfold State.releaseCut
  extract_lets act q joined dry passed counted
  have cut : BoundsKept s passed := (h.joinReleased act room).withDry
  have count : BoundsKept s counted := by
    dsimp only [counted]
    split
    · exact cut.modifyWindow _ _
    · exact cut
  exact (count.passCut p).replan.push _

theorem BoundsKept.releaseMove (h : BoundsKept s t) (p : PendingRec) (room : t.dry.released.length < 16) :
    BoundsKept s (t.releaseMove p) := by
  unfold State.releaseMove
  exact (((h.joinReleased _ room).withDry).modifyWindow _ _).push _

theorem BoundsKept.gateMove (h : BoundsKept s t) (p : PendingRec) (room : t.dry.released.length < 16) :
    BoundsKept s (t.gateMove p) := by
  unfold State.gateMove
  repeat' split
  · exact h.releaseMove _ room
  · exact (h.takeLateSwap _ _ _).push _
  · exact h.releaseMove _ room

theorem BoundsKept.releaseTest (h : BoundsKept s t) : BoundsKept s t.releaseTest := by
  unfold State.releaseTest
  split
  · exact h
  · split
    · next may =>
      have room := room_of_mayRelease may
      repeat' split
      · exact (h.pinEnd _ _).push _
      · exact h.releaseCut _ room
      · exact (h.pinStart _).push _
      · exact h.gateMove _ room
      · exact (h.pinStart _).push _
      · exact h.gateMove _ room
    · exact h

theorem BoundsKept.dropReleased (h : BoundsKept s t) (q : Nat) : BoundsKept s (t.dropReleased q) :=
  h.withDry (List.length_filter_le _ _).trans

theorem BoundsKept.countOrder (h : BoundsKept s t) (id : Nat) (f : OrderCounts → OrderCounts) :
    BoundsKept s (t.countOrder id f) := by
  unfold State.countOrder
  split
  · exact h.modifyOrder _
  · exact h

theorem BoundsKept.moveStation (h : BoundsKept s t) (r : ActionRec) : BoundsKept s (t.moveStation r) := by
  unfold State.moveStation
  split
  · exact h.dropStation _
  · exact h.liftStation _
  · exact h

theorem BoundsKept.execute (h : BoundsKept s t) (r : ActionRec) (m : Nat) : BoundsKept s (t.execute r m) := by
  unfold State.execute
  dsimp only
  split
  · exact (((h.dropReleased _).raiseIf _ _).countOrder _ _).push _
  · exact ((h.dropReleased _).moveStation _).push _

theorem BoundsKept.declare (h : BoundsKept s t) : BoundsKept s t.declare := by
  unfold State.declare
  split
  · exact h
  · dsimp only
    refine BoundsKept.push (BoundsKept.raise ?_ _) _
    split
    · exact (h.dropReleased _).countOrder _ _
    · exact (h.dropReleased _).moveStation _

theorem BoundsKept.dropCut (h : BoundsKept s t) (p : PendingRec) : BoundsKept s (t.dropCut p) := by
  unfold State.dropCut
  extract_lets passed skippedCut merged
  have skipped : BoundsKept s skippedCut := by
    dsimp only [skippedCut]
    split
    · exact ((h.passCut p).countOrder _ _).modifyWindow _ _
    · exact h.passCut p
  exact (skipped.withDry).replan.push _

theorem BoundsKept.overrunLift (h : BoundsKept s t) (p : PendingRec) (st : Station) : BoundsKept s (t.overrunLift p st) := by
  unfold State.overrunLift
  extract_lets strays dry marked named
  have overran : BoundsKept s named := (h.withDry).modifyWindow _ _
  split
  · exact overran.insertExtent (Extent.opened_sound _ _ _)
  · exact overran

theorem BoundsKept.overrunRec (h : BoundsKept s t) (p : PendingRec) : BoundsKept s (t.overrunRec p) := by
  unfold State.overrunRec
  split
  · exact h.overrunLift _ _
  · exact (h.takeLateSwap _ _ _).settleSwap _
  · split
    · exact (h.pinEnd _ _).dropCut _
    · exact h.dropCut _

theorem BoundsKept.overrun (h : BoundsKept s t) : BoundsKept s t.overrun := by
  unfold State.overrun
  split
  · exact h
  · exact ((h.overrunRec _).raise _).push _

theorem BoundsKept.departTarget (h : BoundsKept s t) (id : Nat) (x : Stream) : BoundsKept s (t.departTarget id x) := by
  unfold State.departTarget
  repeat' split
  all_goals first | exact h | exact h.setSlot _ _

theorem BoundsKept.leaveHead (h : BoundsKept s t) : BoundsKept s t.leaveHead := by
  unfold State.leaveHead
  split
  · next rest _ window =>
    extract_lets lapsed mark src figures old plan strays dry left
    have swapsLapsed : BoundsKept t lapsed := by
      refine BoundsKept.foldl _ (fun st k => ?_) _ (.refl t)
      repeat' split
      · exact k.lapseSwap _ _
      · exact k
      · exact k
    have headLeft : BoundsKept t left := by
      refine ⟨swapsLapsed.track, swapsLapsed.marks, swapsLapsed.book, fun k => ?_, swapsLapsed.released⟩
      rw [window, List.length_cons] at k
      dsimp only [left, plan]
      cases rest with
      | nil => exact Nat.zero_le _
      | cons w ws => exact (Nat.le_succ _).trans k
    exact h.trans ((BoundsKept.foldl _ (fun _ k => k.departTarget _ _) _ headLeft).replan.push _)
  · exact h

theorem BoundsKept.closeTest (h : BoundsKept s t) (id : Nat) : BoundsKept s (t.closeTest id) := by
  unfold State.closeTest
  repeat' split
  · exact (((h.modifyOrder _).raise _).raiseIf _ _).leaveHead
  all_goals first | exact h | exact h.leaveHead

theorem BoundsKept.untake (h : BoundsKept s t) : BoundsKept s t.untake := by
  unfold State.untake
  exact BoundsKept.raiseIf (h.withDry fun k => (List.length_map _).symm ▸ k) _ _

/-! ### Acts -/

/-- One act keeps the bounds. -/
theorem perform_keepsBounds (k : Task) (t : State) : BoundsKept t (perform k t) := by
  have h := BoundsKept.refl t
  cases k with
  | recognise => exact (h.recogniserTest .one).recogniserTest .two
  | matchSeam l q => exact h.matchSeam l q
  | windowTest l => exact h.windowTest l
  | expiry => exact h.expireExtents
  | cutting => exact h.cutting
  | recompute => exact h.recompute
  | triggers => exact h.fireTrigger
  | doneWindow x => exact h.doneWindowTest x
  | commitTest x => exact h.commitTest x
  | wrongGrade x => exact h.wrongGradeTest x
  | fireTest x => exact h.fireTest x
  | runout x => exact h.runoutTest x
  | deferred x => exact h.deferredTest x
  | slotFree x => exact h.slotFreeAct x
  | demand st => exact h.setDemand st
  | lapse st => exact h.lapseTest st
  | declare => exact h.declare
  | release => exact h.releaseTest
  | overrun => exact h.overrun
  | close id => exact h.closeTest id

theorem settle_keepsBounds (n : Nat) (t : State) : BoundsKept t (settle n t) := by
  induction n generalizing t with
  | zero => exact .refl t
  | succ n ih =>
    unfold settle
    split
    · exact .refl t
    · next k rest _ =>
      exact (((BoundsKept.refl t).withWork []).trans (perform_keepsBounds k _)).withWork _ |>.trans (ih _)

theorem BoundsKept.settled (h : BoundsKept s t) : BoundsKept s t.settled :=
  (h.withWork _).trans (settle_keepsBounds _ _)

end Sys2Proof.Machine
end

section
/-! PROOF. The bounds of the collections: every command and every tick keeps them (O14, O59). -/

namespace Sys2Proof.Machine

variable {s t u : State}

/-! ### The reel stands and the stand link (05) -/

theorem BoundsKept.tryLoad (h : BoundsKept s t) (x : Stream) (arm : Arm) : BoundsKept s (t.tryLoad x arm) := by
  unfold State.tryLoad
  dsimp only
  split
  · exact h.setArm _ _ _
  · exact h

theorem BoundsKept.breakWeb (h : BoundsKept s t) (x : Stream) (left : Option Arm) : BoundsKept s (t.breakWeb x left) := by
  unfold State.breakWeb
  extract_lets closed freed stopArm stopped
  have slotDealtWith : BoundsKept s closed := by
    dsimp only [closed]
    repeat' split
    · exact h.insertFault _ _
    · exact h.closeClaim _ _
    · exact h
    · exact h
  have armStopped : ∀ {v} arm, BoundsKept s v → BoundsKept s (stopArm v arm) := by
    intro v arm k
    dsimp only [stopArm]
    repeat' split
    all_goals exact k.setArm _ _ _
  exact ((armStopped .b (armStopped .a (slotDealtWith.setSlot x none))).setStream _ _ |>.openBreak x).push _

theorem BoundsKept.abortSplice (h : BoundsKept s t) (x : Stream) : BoundsKept s (t.abortSplice x) := by
  unfold State.abortSplice
  repeat' split
  · exact h
  · exact (h.setSlot _ _).push _
  · exact h.setSlot _ _

theorem BoundsKept.reelLeaves (h : BoundsKept s t) (x : Stream) (arm : Arm) (b : Bool) :
    BoundsKept s (t.reelLeaves x arm b) := by
  unfold State.reelLeaves
  dsimp only
  repeat' split
  · exact h
  · exact h.setArm _ _ _
  · exact h.breakWeb _ _
  · exact (h.setArm _ _ _).abortSplice _
  · exact h.setArm _ _ _
  · exact h.breakWeb _ _
  · exact h.setArm _ _ _
  · exact h

theorem BoundsKept.armEvents (h : BoundsKept s t) (x : Stream) (arm : Arm) (old : ArmRec) :
    BoundsKept s (t.armEvents x arm old) := by
  unfold State.armEvents
  extract_lets r presentCleared latchedCleared left loaded pressed record ready
  have reelLeft : BoundsKept s left := by
    dsimp only [left]
    split
    · exact h.reelLeaves _ _ _
    · exact h
  have madeReady : BoundsKept s ready := by
    dsimp only [ready]
    split
    · exact ((reelLeft.tryLoad x arm).setArm _ _ _).push _
    · exact reelLeft.tryLoad x arm
  split
  · exact madeReady.push _
  · exact madeReady

theorem BoundsKept.clearFault (h : BoundsKept s t) (x : Stream) : BoundsKept s (t.clearFault x) := by
  unfold State.clearFault
  split
  · exact (h.setStream _ _).push _
  · exact h

theorem BoundsKept.takeRead (h : BoundsKept s t) (x : Stream) (v : StandLevels) : BoundsKept s (t.takeRead x v) :=
  (((h.clearFault x).setStream _ _).armEvents _ _ _).armEvents _ _ _

theorem BoundsKept.setFault (h : BoundsKept s t) (x : Stream) : BoundsKept s (t.setFault x) := (h.setStream _ _).raiseIf _ _

theorem BoundsKept.scanTo (h : BoundsKept s t) (x : Option Stream) : BoundsKept s (t.scanTo x) := by
  cases x with
  | none => exact h.setLink _
  | some y => exact (h.setLink _).setStream _ _

theorem BoundsKept.readMade (h : BoundsKept s t) (x : Stream) : BoundsKept s (t.readMade x) := by
  unfold State.readMade
  dsimp only
  split
  · exact (h.setStream _ _).scanTo _
  · exact h.setStream _ _

theorem BoundsKept.poll (h : BoundsKept s t) : BoundsKept s t.poll :=
  BoundsKept.foldl _ (fun _ k => k.setStream _ _) _ (h.setLink _)

theorem BoundsKept.setInterrupt (h : BoundsKept s t) (b : Bool) : BoundsKept s (t.setInterrupt b) := by
  unfold State.setInterrupt
  dsimp only
  repeat' split
  · exact h
  · exact (h.setLink _).scanTo _
  · exact h.setLink _

theorem BoundsKept.linkStart (h : BoundsKept s t) : BoundsKept s t.linkStart := by
  unfold State.linkStart
  split
  · exact (h.setStream _ _).setLink _
  · exact h

theorem BoundsKept.standRead (h : BoundsKept s t) (v : StandLevels) : BoundsKept s (t.standRead v) := by
  unfold State.standRead
  repeat' split
  · exact h
  · exact ((h.setLink _).readMade _).takeRead _ _
  · exact h

theorem BoundsKept.standWrite (h : BoundsKept s t) : BoundsKept s t.standWrite := by
  unfold State.standWrite
  repeat' split
  · exact ((h.setLink _).setStream _ _).clearFault _
  · exact h
  · exact h

theorem BoundsKept.abandon (h : BoundsKept s t) (v : Transaction) : BoundsKept s (t.abandon v) := by
  unfold State.abandon
  dsimp only
  split
  · exact ((h.setLink _).setStream _ _).setFault _
  · exact ((h.setLink _).readMade _).setFault _

theorem BoundsKept.attemptFailed (h : BoundsKept s t) : BoundsKept s t.attemptFailed := by
  unfold State.attemptFailed
  repeat' split
  · exact h.setLink _
  · exact h.abandon _
  · exact h

theorem BoundsKept.delayReached (h : BoundsKept s t) (x : Stream) (arm : Arm) : BoundsKept s (t.delayReached x arm) := by
  unfold State.delayReached
  dsimp only
  repeat' split
  · exact (h.setStream _ _).push _
  · exact h
  · exact h

theorem BoundsKept.completeSplice (h : BoundsKept s t) (x : Stream) (v : Slot) : BoundsKept s (t.completeSplice x v) := by
  unfold State.completeSplice
  extract_lets arm stopped running grade record freed spent stretch marked
  have oldStopped : BoundsKept s stopped := by
    dsimp only [stopped]
    repeat' split
    · exact h
    · exact h.setArm _ _ _
    · exact h
  have slotFreed : BoundsKept s freed := (oldStopped.setArm _ _ _).setStream _ _
  have targetSpent : BoundsKept s spent := by
    dsimp only [spent]
    cases v.target? with
    | none => exact slotFreed
    | some id => exact slotFreed.modifyWindow _ _
  have seamMarked : BoundsKept s marked := by
    dsimp only [marked]
    split
    · exact targetSpent.enterMark _ _ _ _ _ _
    · exact targetSpent.insertExtent (Extent.closed_sound _ _ _ _)
  exact (seamMarked.raise _).push _

theorem BoundsKept.donePulse (h : BoundsKept s t) (x : Stream) : BoundsKept s (t.donePulse x) := by
  unfold State.donePulse State.doneAct
  repeat' split
  · exact (h.setStream _ _).completeSplice _ _
  · exact (h.setStream _ _).raise _
  · exact (h.setStream _ _).raise _

/-! ### The requests of the wet end (02, 05) -/

theorem BoundsKept.restoreWeb (h : BoundsKept s t) (x : Stream) (arm : Arm) (n : Nat) :
    BoundsKept s (t.restoreWeb x arm n) :=
  (((h.closeClaim _ _ : BoundsKept s (t.closeBreak x)).setArm _ _ _).setStream _ _).push _

theorem BoundsKept.recoverStream (h : BoundsKept s t) (x : Stream) (arm : Arm) : BoundsKept s (t.recoverStream x arm) := by
  unfold State.recoverStream
  extract_lets wasRunning ran other stopped grade record named fault freed offered
  have armRuns : BoundsKept s ran := by
    dsimp only [ran]
    split
    · exact h
    · exact h.setArm _ _ _
  have otherStops : BoundsKept s stopped := by
    dsimp only [stopped]
    repeat' split
    · exact armRuns.setArm _ _ _
    · exact armRuns.setArm _ _ _
    · exact armRuns
  have faultFreed : BoundsKept s freed := by
    dsimp only [freed]
    split
    · exact (otherStops.setStream _ _).setSlot _ _
    · exact otherStops.setStream _ _
  have slotOffered : BoundsKept s offered := by
    dsimp only [offered]
    split
    · exact faultFreed.push _
    · exact faultFreed
  split
  · exact slotOffered
  · exact slotOffered.push _

/-! ### The requests of the planning port (03, 04, 09) -/

theorem BoundsKept.dropTargets (h : BoundsKept s t) (ids : List Nat) (x : Stream) : BoundsKept s (t.dropTargets ids x) := by
  unfold State.dropTargets
  repeat' split
  · exact (h.setSlot _ _).push _
  · exact h
  · exact h

theorem BoundsKept.cancelQueued (h : BoundsKept s t) (id : Nat) : BoundsKept s (t.cancelQueued id) :=
  ((h.modifyOrder _).raiseIf _ _).replan

theorem BoundsKept.cancelAfterStart (h : BoundsKept s t) (id : Nat) : BoundsKept s (t.cancelAfterStart id) :=
  ((h.modifyOrder _).pinEnd _ _).replan.push _

theorem BoundsKept.cancelUnpinned (h : BoundsKept s t) (id : Nat) : BoundsKept s (t.cancelUnpinned id) := by
  unfold State.cancelUnpinned
  extract_lets line after ids dissolved plan left cancelled
  clear_value line after
  have boundaryDissolved : BoundsKept s dissolved := by
    dsimp only [dissolved]
    split
    · exact (h.modifyOrder _).modifyWindow _ _
    · exact h
  have orderLeft : BoundsKept s left := boundaryDissolved.withPlan (List.length_filter_le _ _).trans
  have replanned : BoundsKept s cancelled.setSwaps.shiftPlan := (orderLeft.modifyOrder _).setSwaps.shiftPlan
  exact (BoundsKept.foldl _ (fun _ k => k.dropTargets _ _) _ replanned).replan

theorem BoundsKept.releaseLine (h : BoundsKept s t) : BoundsKept s t.releaseLine :=
  ⟨h.track, h.marks, h.book, h.window, h.released⟩

theorem BoundsKept.clearSlot (h : BoundsKept s t) (x : Stream) : BoundsKept s (t.clearSlot x) := by
  unfold State.clearSlot
  dsimp only
  split
  · exact (h.setArm _ _ _).setSlot _ _
  · exact h.setSlot _ _

theorem BoundsKept.clearDry (h : BoundsKept s t) : BoundsKept s t.clearDry := by
  refine BoundsKept.expireExtents (h.withDry fun _ => ?_)
  exact Nat.zero_le _

theorem BoundsKept.clearPlan (h : BoundsKept s t) : BoundsKept s t.clearPlan := by
  have ids : ∀ r : OrderRec, r.lineCleared.fig.id = r.fig.id := by
    intro r
    unfold OrderRec.lineCleared
    repeat' split
    all_goals rfl
  exact (h.withBook fun k => k.map ids).withPlan fun _ => Nat.zero_le 6

theorem BoundsKept.clearMap (h : BoundsKept s t) : BoundsKept s t.clearMap := by
  have trackCleared : BoundsKept s { t with map := { t.map with track := [] } } := h.withTrack fun _ => Track.within_nil
  exact (((trackCleared.setMarks .one (Nat.zero_le _)).setMarks .two (Nat.zero_le _)).setUnsynced _).setUnsynced _

theorem BoundsKept.clearLine (h : BoundsKept s t) : BoundsKept s t.clearLine := by
  have planCleared := ((h.withPart .setup).raise .partState).clearDry.clearPlan
  exact ((BoundsKept.foldl State.clearSlot (fun _ k => k.clearSlot _) Stream.all planCleared).withSlitter _).clearMap

/-! ### The requests of the dry end (06, 07) and of every port (08) -/

theorem BoundsKept.reassignHeld (h : BoundsKept s t) (st : Station) : BoundsKept s (t.reassignHeld st) := by
  unfold State.reassignHeld
  dsimp only
  repeat' split
  · exact h
  · exact (h.assignLayout _ _ _).setStation _ _
  · exact (h.assignLayout _ _ _).becomeReady _
  · exact h.assignLayout _ _ _
  · exact h.failStation _

theorem BoundsKept.retireTool (h : BoundsKept s t) (st : Station) (k : ToolKind) (n : Nat) :
    BoundsKept s (t.retireTool st k n) := (h.modifyTool _ _ _ _).dropMoves _

theorem BoundsKept.placeTool (h : BoundsKept s t) (st : Station) (k : ToolKind) (n m : Nat) (v : Tool) :
    BoundsKept s (t.placeTool st k n m v) := by
  unfold State.placeTool
  dsimp only
  repeat' split
  · exact ((h.modifyTool _ _ _ _).dropMoves _).becomeReady _
  · exact (h.modifyTool _ _ _ _).dropMoves _
  · exact ((h.modifyTool _ _ _ _).dropMoves _).joinMoves _
  · exact ((((h.modifyTool _ _ _ _).retireTool _ _ _).raise _).reassignHeld _).replan

theorem BoundsKept.takeToolOut (h : BoundsKept s t) (st : Station) (k : ToolKind) (n : Nat) (v : Tool) :
    BoundsKept s (t.takeToolOut st k n v) := by
  unfold State.takeToolOut
  extract_lets r retired served
  have out : BoundsKept s retired := (h.retireTool _ _ _).modifyTool _ _ _ _
  refine BoundsKept.replan ?_
  dsimp only [served]
  repeat' split
  · exact out
  · exact out
  · exact out.reassignHeld _
  · exact out.setupForDemand _
  · exact out.reassignHeld _
  · exact out
  · exact out.insertExtent (Extent.opened_sound _ _ _)
  · exact out

theorem BoundsKept.takeToolIn (h : BoundsKept s t) (st : Station) (k : ToolKind) (n : Nat) :
    BoundsKept s (t.takeToolIn st k n) := by
  unfold State.takeToolIn
  extract_lets returned record served
  have back : BoundsKept s returned := h.modifyTool _ _ _ _
  refine BoundsKept.replan ?_
  dsimp only [served]
  repeat' split
  · exact back.setupForDemand _
  · exact back.setStation _ _
  · exact back

theorem BoundsKept.untakeAll (h : BoundsKept s t) (p : Port) : BoundsKept s (t.untakeAll p) := by
  cases p with
  | dry => exact (h.withSlitter _).untake
  | planning => exact h
  | wet => exact h

theorem BoundsKept.readdress (h : BoundsKept s t) (x : Stream) : BoundsKept s (t.readdress x) := by
  unfold State.readdress
  extract_lets link record dropped freed
  have linkFreed : BoundsKept s freed := by
    dsimp only [freed]
    split
    · exact (h.setStream _ _).setLink _
    · exact h.setStream _ _
  repeat' split
  · exact h.scanTo _
  · exact h
  · exact linkFreed.scanTo _
  · exact linkFreed

theorem BoundsKept.removeOrder (h : BoundsKept s t) (id : Nat) : BoundsKept s (t.removeOrder id) :=
  h.withBook fun k => ⟨k.1.sublist (List.filter_sublist.map _), (List.length_filter_le _ _).trans k.2⟩

/-- A record joins a book that has room for it and no record of its id (R44). -/
theorem BoundsKept.appendOrder (h : BoundsKept s t) {f : OrderFigures} (room : t.book.length < 32)
    (fresh : t.order? f.id = none) : BoundsKept s (t.appendOrder f) := by
  refine BoundsKept.replan (h.withBook fun k => ⟨?_, ?_⟩)
  · rw [List.map_append, List.map_singleton]
    refine k.1.append (List.nodup_singleton _) ?_
    rw [List.disjoint_singleton]
    rintro held
    obtain ⟨r, hr, same⟩ := List.mem_map.mp held
    exact absurd (List.find?_eq_none.mp fresh r hr) (by simp [same])
  · rw [List.length_append, List.length_singleton]
    exact room

/-! ### Requests -/

theorem Verdict.Does.keepsBounds {f : State → State} (h : ∀ s, BoundsKept s (f s)) : (Verdict.ok f).Does BoundsKept := .done .refl h

theorem Verdict.Does.onlyReads (payload : List Byte) : (Verdict.read payload).Does BoundsKept := .done .refl .refl

theorem amendOrderVerdict_keepsBounds (x : RawAmend) (s : State) : (amendOrderVerdict x s).Does BoundsKept := by
  unfold amendOrderVerdict
  repeat' split
  · exact .no _
  · exact .no _
  · exact .no _
  · exact .no _
  · exact .keepsBounds fun s => ((BoundsKept.refl s).modifyOrder _).replan

theorem cancelOrderVerdict_keepsBounds (id : Nat) (s : State) : (cancelOrderVerdict id s).Does BoundsKept := by
  unfold cancelOrderVerdict
  repeat' split
  · exact .no _
  · exact .no _
  · exact .no _
  · exact .keepsBounds fun s => (BoundsKept.refl s).cancelQueued _
  · refine .keepsBounds fun s => ?_
    split
    · exact (BoundsKept.refl s).cancelAfterStart _
    · exact (BoundsKept.refl s).cancelUnpinned _
  · exact .keepsBounds fun s => (BoundsKept.refl s).cancelAfterStart _

theorem discardOrderVerdict_keepsBounds (id : Nat) (s : State) : (discardOrderVerdict id s).Does BoundsKept := by
  unfold discardOrderVerdict
  repeat' split
  · exact .no _
  · exact .keepsBounds fun s => (BoundsKept.refl s).removeOrder _
  · exact .no _

theorem readBookVerdict_keepsBounds (n : Nat) (s : State) : (readBookVerdict n s).Does BoundsKept := by
  unfold readBookVerdict
  split
  · exact .no _
  · exact .onlyReads _

theorem releaseLineVerdict_keepsBounds (s : State) : (releaseLineVerdict s).Does BoundsKept := by
  unfold releaseLineVerdict
  repeat' split
  · exact .no _
  · exact .refuse _ _
  · exact .keepsBounds fun s => (BoundsKept.refl s).releaseLine

theorem clearLineVerdict_keepsBounds (s : State) : (clearLineVerdict s).Does BoundsKept := by
  unfold clearLineVerdict
  split
  · exact .keepsBounds fun s => (BoundsKept.refl s).clearLine
  · exact .no _

theorem declareReelVerdict_keepsBounds (x arm g n : Nat) (s : State) : (declareReelVerdict x arm g n s).Does BoundsKept := by
  unfold declareReelVerdict
  repeat' split
  · exact .keepsBounds fun s => ((BoundsKept.refl s).setArm _ _ _).tryLoad _ _
  · exact .no _
  · exact .no _
  · exact .no _

theorem withdrawReelVerdict_keepsBounds (x arm : Nat) (s : State) : (withdrawReelVerdict x arm s).Does BoundsKept := by
  unfold withdrawReelVerdict
  repeat' split
  · exact .keepsBounds fun s => (BoundsKept.refl s).setArm _ _ _
  · exact .no _
  · exact .no _

theorem manualSpliceVerdict_keepsBounds (x : Nat) (s : State) : (manualSpliceVerdict x s).Does BoundsKept := by
  unfold manualSpliceVerdict
  repeat' split
  · exact .no _
  · exact .no _
  · exact .no _
  · exact .keepsBounds fun s => (BoundsKept.refl s).commitSlot _ _ _
  · exact .no _

theorem webBreakVerdict_keepsBounds (x : Nat) (s : State) : (webBreakVerdict x s).Does BoundsKept := by
  unfold webBreakVerdict
  repeat' split
  · exact .no _
  · exact .no _
  · exact .keepsBounds fun s => (BoundsKept.refl s).breakWeb _ _

theorem webRestoredVerdict_keepsBounds (x arm n : Nat) (s : State) : (webRestoredVerdict x arm n s).Does BoundsKept := by
  unfold webRestoredVerdict
  repeat' split
  · exact .keepsBounds fun s => (BoundsKept.refl s).restoreWeb _ _ _
  · exact .no _
  · exact .no _
  · exact .no _

theorem streamRecoverVerdict_keepsBounds (x arm : Nat) (s : State) : (streamRecoverVerdict x arm s).Does BoundsKept := by
  unfold streamRecoverVerdict
  repeat' split
  · exact .no _
  · exact .no _
  · exact .keepsBounds fun s => (BoundsKept.refl s).recoverStream _ _
  · exact .no _
  · exact .no _

theorem laneSyncVerdict_keepsBounds (l : Nat) (k : Int) (s : State) : (laneSyncVerdict l k s).Does BoundsKept := by
  unfold laneSyncVerdict
  repeat' split
  · exact .keepsBounds fun s => ((BoundsKept.refl s).clearUnsynced _).setOffset _ _
  · exact .no _
  · exact .no _

theorem actionDoneVerdict_keepsBounds (q m : Nat) (s : State) : (actionDoneVerdict q m s).Does BoundsKept := by
  unfold actionDoneVerdict
  repeat' split
  · exact .no _
  · exact .keepsBounds fun s => (BoundsKept.refl s).execute _ _
  · exact .no _
  · exact .no _

theorem qualityRejectVerdict_keepsBounds (x y : Nat) (s : State) : (qualityRejectVerdict x y s).Does BoundsKept := by
  unfold qualityRejectVerdict
  dsimp only
  split
  · exact .no _
  · exact .done .refl fun s => (BoundsKept.refl s).insertExtent (Extent.closed_sound _ _ _ _)

theorem toolPlacedVerdict_keepsBounds (st k n m : Nat) (s : State) : (toolPlacedVerdict st k n m s).Does BoundsKept := by
  unfold toolPlacedVerdict
  repeat' split
  · exact .keepsBounds fun s => (BoundsKept.refl s).placeTool _ _ _ _ _
  · exact .no _
  · exact .no _
  · exact .no _

theorem toolOutVerdict_keepsBounds (st k n : Nat) (s : State) : (toolOutVerdict st k n s).Does BoundsKept := by
  unfold toolOutVerdict
  repeat' split
  · exact .no _
  · exact .keepsBounds fun s => (BoundsKept.refl s).takeToolOut _ _ _ _
  · exact .no _

theorem toolInVerdict_keepsBounds (st k n : Nat) (s : State) : (toolInVerdict st k n s).Does BoundsKept := by
  unfold toolInVerdict
  repeat' split
  · exact .keepsBounds fun s => (BoundsKept.refl s).takeToolIn _ _ _
  · exact .no _
  · exact .no _

theorem readMapVerdict_keepsBounds (c n : Nat) (s : State) : (readMapVerdict c n s).Does BoundsKept := by
  unfold readMapVerdict
  repeat' split
  · exact .no _
  · exact .onlyReads _
  · exact .onlyReads _
  · exact .onlyReads _
  · exact .no _

theorem readOrderVerdict_keepsBounds (id : Nat) (s : State) : (readOrderVerdict id s).Does BoundsKept := by
  unfold readOrderVerdict
  split
  · exact .onlyReads _
  · exact .no _

theorem readStreamVerdict_keepsBounds (x : Nat) (s : State) : (readStreamVerdict x s).Does BoundsKept := by
  unfold readStreamVerdict
  split
  · exact .onlyReads _
  · exact .no _

theorem setNoticeEnablesVerdict_keepsBounds (p : Port) (c : BitVec 16) (s : State) : (setNoticeEnablesVerdict p c s).Does BoundsKept := by
  unfold setNoticeEnablesVerdict
  split
  · exact .no _
  · exact .keepsBounds fun s => ((BoundsKept.refl s).setPort _ _).attempt _

theorem clearNoticesVerdict_keepsBounds (p : Port) (c : BitVec 16) (s : State) : (clearNoticesVerdict p c s).Does BoundsKept := by
  unfold clearNoticesVerdict
  split
  · exact .no _
  · exact .done (fun s => (BoundsKept.refl s).setPort _ _) fun s => (BoundsKept.refl s).attempt _

/-- A profile section leaves the collections alone but for the acts of a new lane offset (R196). -/
theorem sectionEffect_keepsBounds {load : SectionLoad} {f : State → State} (h : sectionEffect load = some f) (s : State) :
    BoundsKept s (f s) := by
  have profileTaken : ∀ v, BoundsKept s { s with profile := v } := (BoundsKept.refl s).withProfile
  unfold sectionEffect at h
  split at h
  · split at h
    · cases h
      exact (profileTaken _).readdress _
    · cases h
  · split at h
    · cases h
      exact ((profileTaken _).setUnsynced _).setOffset _ _
    · cases h
  · obtain ⟨v, -, rfl⟩ := Option.map_eq_some_iff.mp h
    exact profileTaken _
  · obtain ⟨v, -, rfl⟩ := Option.map_eq_some_iff.mp h
    exact profileTaken _
  · split at h
    · obtain ⟨v, -, rfl⟩ := Option.map_eq_some_iff.mp h
      exact profileTaken _
    · cases h
  · cases h

theorem loadVerdict_keepsBounds (load : SectionLoad) (s : State) : (loadVerdict load s).Does BoundsKept := by
  unfold loadVerdict
  split
  · exact .no _
  · split
    · next f h => exact .keepsBounds (sectionEffect_keepsBounds h)
    · exact .no _

/-- Every request but Add Order keeps the bounds from whatever state its change is made on. -/
theorem verdictOf_keepsBounds (i : Instr) (h : ∀ p tag o, i ≠ .addOrder p tag o) (s : State) :
    (verdictOf i s).Does BoundsKept := by
  cases i with
  | addOrder p tag o => exact absurd rfl (h p tag o)
  | loadProfileSection _ _ load => exact loadVerdict_keepsBounds load s
  | amendOrder _ _ x => exact amendOrderVerdict_keepsBounds x s
  | cancelOrder _ _ id => exact cancelOrderVerdict_keepsBounds id s
  | discardOrder _ _ id => exact discardOrderVerdict_keepsBounds id s
  | readBook _ _ n => exact readBookVerdict_keepsBounds n s
  | readPlan _ _ => exact .onlyReads _
  | releaseLine _ _ => exact releaseLineVerdict_keepsBounds s
  | clearLine _ _ => exact clearLineVerdict_keepsBounds s
  | declareReel _ _ x arm g n => exact declareReelVerdict_keepsBounds x arm g n s
  | withdrawReel _ _ x arm => exact withdrawReelVerdict_keepsBounds x arm s
  | manualSplice _ _ x => exact manualSpliceVerdict_keepsBounds x s
  | webBreak _ _ x => exact webBreakVerdict_keepsBounds x s
  | webRestored _ _ x arm n => exact webRestoredVerdict_keepsBounds x arm n s
  | streamRecover _ _ x arm => exact streamRecoverVerdict_keepsBounds x arm s
  | laneSync _ _ l k => exact laneSyncVerdict_keepsBounds l k s
  | readStationChanges _ _ => exact .done .refl fun s => (BoundsKept.refl s).withPlan
  | takeActions _ _ => exact .done .refl fun s => (BoundsKept.refl s).withDry fun k => (List.length_map _).symm ▸ k
  | actionDone _ _ q m => exact actionDoneVerdict_keepsBounds q m s
  | qualityReject _ _ x y => exact qualityRejectVerdict_keepsBounds x y s
  | takeToolMoves _ _ => exact .done .refl fun s => (BoundsKept.refl s).withSlitter _
  | toolPlaced _ _ st k n m => exact toolPlacedVerdict_keepsBounds st k n m s
  | toolOut _ _ st k n => exact toolOutVerdict_keepsBounds st k n s
  | toolIn _ _ st k n => exact toolInVerdict_keepsBounds st k n s
  | readStatus _ _ => exact .onlyReads _
  | readMap _ _ c n => exact readMapVerdict_keepsBounds c n s
  | readOrder _ _ id => exact readOrderVerdict_keepsBounds id s
  | readStream _ _ x => exact readStreamVerdict_keepsBounds x s
  | readStations _ _ => exact .onlyReads _
  | setNoticeEnables p _ c => exact setNoticeEnablesVerdict_keepsBounds p c s
  | clearNotices p _ c => exact clearNoticesVerdict_keepsBounds p c s
  | pauseNotices p _ => exact .keepsBounds fun s => (BoundsKept.refl s).setPort _ _
  | resumeNotices p _ => exact .keepsBounds fun s => ((BoundsKept.refl s).setPort _ _).attempt _
  | restartPort p _ =>
    exact .done (fun s => (BoundsKept.refl s).setPort _ _) fun s => ((BoundsKept.refl s).untakeAll p).attempt _
  | _ => exact .no _

/-- Add Order appends its record behind the reply only where the book has room and no record of its id (R47). -/
theorem addOrder_keepsBounds (s : State) (p : Port) (tag : Byte) (kind : Nat) (o : RawOrder) :
    BoundsKept s (s.takeRequest p tag kind (addOrderVerdict o s)) := by
  have h := BoundsKept.refl s
  rcases takeRequest_cases s p tag kind (addOrderVerdict o s) with ⟨-, e⟩ | ⟨-, -, e⟩ | ⟨-, -, _, _, -, e⟩ | ⟨-, -, _, _, _, k, e⟩
  · rw [e]
    exact h.raise _
  · rw [e]
    exact h.reply _ _
  · rw [e]
    exact h.reply _ _
  · rw [e]
    unfold addOrderVerdict at k
    repeat' split at k
    all_goals cases k
    next full known _ _ =>
      have fresh : s.order? o.id = none := by simpa using known
      exact (h.reply _ _).appendOrder (Nat.lt_of_not_le full) fresh

theorem BoundsKept.takeRequest (i : Instr) (s : State) (p : Port) (tag : Byte) (kind : Nat) :
    BoundsKept s (s.takeRequest p tag kind (verdictOf i s)) := by
  by_cases h : ∃ p tag o, i = .addOrder p tag o
  · obtain ⟨_, _, o, rfl⟩ := h
    exact addOrder_keepsBounds s p tag kind o
  · exact State.takeRequest_does BoundsKept.trans ((BoundsKept.refl s).raise _) (fun u _ => (BoundsKept.refl u).reply _ _)
      (verdictOf_keepsBounds i (fun p tag o e => h ⟨p, tag, o, e⟩) s)

theorem BoundsKept.takeReceived (s : State) (p : Port) (bytes : List Byte) : BoundsKept s (s.takeReceived p bytes) := by
  unfold State.takeReceived
  split
  · exact .refl s
  · split
    · exact (BoundsKept.refl s).raise _
    · exact (BoundsKept.refl s).reply _ _
  · exact .takeRequest _ _ _ _ _

/-! ### Commands and ticks -/

theorem BoundsKept.selectStart (h : BoundsKept s t) (p : Port) : BoundsKept s (t.selectStart p) := by
  unfold State.selectStart
  split
  · exact h.setPort _ _
  · exact h

theorem BoundsKept.clockByte (h : BoundsKept s t) (p : Port) (b : Byte) : BoundsKept s (t.clockByte p b) := by
  unfold State.clockByte
  dsimp only
  split
  · exact h
  · exact h.setPort _ _

theorem BoundsKept.selectEnd (h : BoundsKept s t) (p : Port) : BoundsKept s (t.selectEnd p) := by
  unfold State.selectEnd
  split
  · exact h
  · split
    · exact h.setPort _ _
    · exact ((h.setPort _ _).trans (.takeReceived _ p _)).settled.attempt p

theorem BoundsKept.updateChannel (h : BoundsKept s t) (c : Channel) (r : ChannelRec) : BoundsKept s (t.updateChannel c r) :=
  (h.setChannel c r).raiseIf _ _

theorem BoundsKept.seamInput (h : BoundsKept s t) (l : Lane) (b : Bool) : BoundsKept s (t.seamInput l b) := by
  unfold State.seamInput
  dsimp only
  split
  · exact h
  · exact (h.setLane l).recogniserTest l

/-- Every command's own change keeps the bounds. -/
theorem actOf_keepsBounds (i : Instr) (s : State) : BoundsKept s (actOf i s) := by
  have h := BoundsKept.refl s
  cases i with
  | forwardPulse c => exact (h.updateChannel c _).push _
  | reversePulse c => exact h.updateChannel c _
  | bothLevelsChange c => exact h.setChannel c _
  | tenMsUpdate => exact h.withLmu _
  | entryIntoAStop =>
    dsimp only [actOf]
    split
    · exact ((h.withLmu _).withMarkers _).takeDueZones
    · exact h
  | takeStopZone n =>
    dsimp only [actOf]
    split
    · exact (h.withLmu _ : BoundsKept s (s.reachTolerance n)).takeZone n
    · exact h
  | seamInputChange l b => exact h.seamInput l b
  | standPoll => exact h.poll
  | standInterruptChange b => exact h.setInterrupt b
  | standTransactionStart => exact h.linkStart
  | standRead v => exact h.standRead v
  | standWrite => exact h.standWrite
  | standAttemptFailed => exact h.attemptFailed
  | driveGoodDelay x arm => exact h.delayReached x arm
  | firePulseEnd x => exact h.setStream x _
  | donePulse x => exact h.donePulse x
  | selectStart p => exact h.selectStart p
  | selectEnd p => exact h.selectEnd p
  | byteClocked p b => exact h.clockByte p b
  | resetAssert => exact h
  | resetRelease v => exact h
  | _ =>
    rw [actOf_request _ s rfl]
    exact .takeRequest _ _ _ _ _

/-- The reset state holds empty collections. -/
theorem BoundsKept.reset (s : State) : BoundsKept s State.reset where
  track _ := Track.within_nil
  marks l _ := by cases l <;> exact Nat.zero_le 8
  book _ := ⟨List.nodup_nil, Nat.zero_le 32⟩
  window _ := Nat.zero_le 6
  released _ := Nat.zero_le 16

theorem exec_keepsBounds (i : Instr) (s : State) (e : exec i s = .next t) : BoundsKept s t := by
  by_cases a : i = .resetAssert
  · subst a
    cases e
    have r := BoundsKept.reset s
    exact ⟨r.track, r.marks, r.book, r.window, r.released⟩
  by_cases r : ∃ v, i = .resetRelease v
  · obtain ⟨v, rfl⟩ := r
    cases e
    split
    · exact ⟨id, fun l k => by cases l <;> exact k, id, id, id⟩
    · exact .refl s
  rw [exec_eq_event i s a fun v k => r ⟨v, k⟩, event_next] at e
  cases e
  split
  · exact .refl s
  · exact (actOf_keepsBounds i s).settled

theorem tick_keepsBounds (s : State) : BoundsKept s s.tick := by
  unfold State.tick
  split
  · exact .refl s
  · exact ⟨id, fun _ => id, id, id, id⟩

/-- A step is a tick or the front command of the queue, and each keeps the bounds. -/
theorem step_keepsBounds (e : step s = .next t) : BoundsKept s t := by
  unfold step at e
  split at e
  · next c rest _ =>
    have front : BoundsKept s { s with pending := rest } := ⟨id, fun _ => id, id, id, id⟩
    exact front.trans (exec_keepsBounds c _ e)
  · cases e
    exact tick_keepsBounds s

/-- Settles O14: every operation of the machine that touches the main track inserts a sound extent, closes a claim or filters,
and each of the three keeps the track canonical. -/
theorem mainTrackStaysCanonical : Obligations.MainTrackStaysCanonical :=
  fun _ _ canonical e => (step_keepsBounds e).canonical canonical

/-- Settles O59: a collection grows only where its limit has been looked at. -/
theorem collectionsStayWithinCapacity : Obligations.CollectionsStayWithinCapacity :=
  fun _ _ within e => (step_keepsBounds e).capacity within

end Sys2Proof.Machine
end

section
/-! PROOF. An accepted request, and the stop zones (R37, R38, R179): what a request that is carried out answers, and O10. -/

namespace Sys2Proof.Machine

variable {s t u : State} {i : Instr}

/-! ### Requests that are carried out -/

/-- A request that is heard and that its rule carries out: its change is made around the reply, and the acts follow. -/
theorem exec_done {p : Port} {kind : Nat} {tag : Byte} {load payload : List Byte} {before after : State → State}
    (h : requestFrame i = some ⟨p, kind, tag, load⟩) (heard : Heard s p kind)
    (v : verdictOf i s = .done payload before after) :
    exec i s = .next (after ((before s).withFrame p (doneFrame kind tag payload))).settled := by
  have room : s.portFull p = false := decide_eq_false (Nat.not_le.mpr heard.room)
  have act : actOf i s = after ((before s).withFrame p (doneFrame kind tag payload)) := by
    rw [actOf_request i s h, State.takeRequest, room, if_neg nofun, State.judge, if_pos heard.right, v]
    rfl
  have asserted : i ≠ .resetAssert := by rintro rfl; cases h
  have released : ∀ v, i ≠ .resetRelease v := by rintro v rfl; cases h
  rw [exec_settles i s asserted released heard.running, act]

/-- A request that is carried out wholly behind its reply. -/
theorem exec_ok {p : Port} {kind : Nat} {tag : Byte} {load : List Byte} {f : State → State}
    (h : requestFrame i = some ⟨p, kind, tag, load⟩) (heard : Heard s p kind) (v : verdictOf i s = .ok f) :
    exec i s = .next (f (s.withFrame p (doneFrame kind tag []))).settled := exec_done h heard v

/-- What joins the out-queue behind a reply is notices (R186). -/
theorem joinedBy_of_untouched {p : Port} {f : Frame} (h : ∀ q, PortGrows ((s.withFrame p f).port q) (t.port q)) :
    JoinedBy s t p f := by
  obtain ⟨l, notices, queue, -⟩ := (h p).queue
  refine ⟨l, notices, ?_⟩
  rw [queue]
  unfold State.withFrame
  rw [State.port_setPort, List.append_assoc]
  rfl

/-! ### Stop zones (R38) -/

theorem zoneFree_iff {n : Nat} {e : EntryProfile} {taken : Bool} (entry : nth1 s.profile.entries n = some e)
    (marker : nth1 s.map.zoneTaken n = some taken) : s.zoneFree n = (e.enable && !taken) := by
  unfold State.zoneFree
  rw [entry, marker]

/-- A zone that covers web lies, with cause STOP, in one extent of the track. -/
theorem takeZone_extent {n : Nat} {e : EntryProfile} (entry : nth1 s.profile.entries n = some e) (web : e.dNear < e.dFar) :
    ∃ x ∈ (s.takeZone n).map.track, Cause.stop ∈ x.causes ∧
      ∀ q : Pos, (s.mainCount : Int) + e.dNear < q → q ≤ (s.mainCount : Int) + e.dFar → x.holds q := by
  rw [takeZone_web entry web]
  have start : (s.stopZone e).start = (s.mainCount : Int) + e.dNear :=
    max_eq_left (Int.add_nonneg (Int.natCast_nonneg _) (Int.natCast_nonneg _))
  have covers : (s.stopZone e).covers = true := by
    refine (covers_iff _).mpr fun f hf => ?_
    cases hf
    rw [start]
    exact Int.add_lt_add_left (Int.ofNat_lt.mpr web) _
  obtain ⟨x, mem, grown⟩ := insertExtent_grows (s.markZone n) (s.stopZone e) _ (.inr ⟨rfl, covers⟩)
  refine ⟨x, mem, grown.causes _ (List.mem_singleton.mpr rfl), fun q near far => grown.holds ⟨start ▸ near, fun f hf => ?_⟩⟩
  cases hf
  exact far

theorem exec_takeStopZone {n : Nat} (running : s.resetAsserted = false) : exec (.takeStopZone n) s =
    .next (if s.lmu.stopped && s.zoneFree n then (s.reachTolerance n).takeZone n else s).settled :=
  exec_settles _ s nofun nofun running

/-- Settles O10. -/
theorem stopZoneIsTaken : Obligations.StopZoneIsTaken := by
  intro n e taken s running entry marker
  have free := zoneFree_iff entry marker
  refine ⟨fun idle quiet => ?_, fun stopped enabled clear => ?_⟩
  · have none_ : (s.lmu.stopped && s.zoneFree n) = false := by
      rw [free]
      rcases idle with h | h | h <;> simp [h]
    rw [exec_takeStopZone running, none_, if_neg nofun, settled_nil s quiet]
  · have due : (s.lmu.stopped && s.zoneFree n) = true := by simp [free, stopped, enabled, clear]
    have entry' : nth1 (s.reachTolerance n).profile.entries n = some e := entry
    obtain ⟨frame, lanes, markers⟩ := takeZone_frame entry'
    refine ⟨(s.reachTolerance n).takeZone n, ?_, ?_, markers, lanes, fun web classes => ?_, fun bare => ?_, ?_⟩
    · rw [exec_takeStopZone running, due, if_pos rfl]
    · rw [((Untouched.refl _).takeZone n).lmu]
      unfold State.reachTolerance
      rw [entry]
      rfl
    · exact ⟨(takeZone_covers entry' web).2 classes, takeZone_extent entry' web⟩
    · rw [takeZone_bare entry' bare]
      exact ⟨rfl, rfl, rfl⟩
    · unfold MapAlone at frame
      exact congrArg (fun u : State => { u with lmu := s.lmu }) frame

end Sys2Proof.Machine
end

section
/-! PROOF. Lanes (R27, R28): the updates of a lane's record, and what setting a lane offset makes due. -/

namespace Sys2Proof.Machine

variable {s t u : State}

/-! ### The record of a lane -/

theorem PerLane.set_get {α : Type} (p : PerLane α) (i : Lane) : p.set i (p.get i) = p := by
  cases i <;> rfl

theorem PerLane.set_set {α : Type} (p : PerLane α) (i : Lane) (v w : α) : (p.set i v).set i w = p.set i w := by
  cases i <;> rfl

theorem setLane_setLane (s : State) (l : Lane) (r v : LaneRec) : (s.setLane l r).setLane l v = s.setLane l v := by
  unfold State.setLane
  simp only [PerLane.set_set]

theorem setLane_self (s : State) (l : Lane) : s.setLane l (s.lane l) = s := by
  unfold State.setLane State.lane
  rw [PerLane.set_get]

/-! ### Lane offsets (R27) -/

/-- A lane offset that is held already makes nothing due. -/
theorem setOffset_same {l : Lane} {k : Int} (h : k = (s.lane l).offset) : s.setOffset l k = s := if_pos h

theorem setOffset_new {l : Lane} {k : Int} (h : k ≠ (s.lane l).offset) :
    s.setOffset l k = (s.setLane l { s.lane l with offset := k }).push (s.offsetActs l) := if_neg h

theorem offsetActs_setup (h : s.part = .setup) (l : Lane) : s.offsetActs l = [.windowTest l] :=
  if_neg (by simp [State.tracking, h])

theorem offsetActs_tracking (h : s.part = .tracking) (l : Lane) : s.offsetActs l = [Task.windowTest l, Task.recompute] ++
    l.streams.flatMap fun x => [Task.wrongGrade x, Task.commitTest x, Task.fireTest x] :=
  if_pos (by simp [State.tracking, h])

/-- What a lane offset set leaves in the lanes: the offset is the one given, and UNSYNCED stays as it is. -/
theorem setOffset_lanes (s : State) (l : Lane) (k : Int) :
    (s.setOffset l k).map = { s.map with lanes := s.map.lanes.set l { s.lane l with offset := k } } := by
  by_cases h : k = (s.lane l).offset
  · rw [setOffset_same h, h]
    exact congrArg State.map (setLane_self s l).symm
  · rw [setOffset_new h]
    rfl

theorem setOffset_mapAlone (s : State) (l : Lane) (k : Int) : MapAlone s (s.setOffset l k) := by
  by_cases h : k = (s.lane l).offset
  · rw [setOffset_same h]
    exact .refl s
  · rw [setOffset_new h]
    rfl

theorem setOffset_work {l : Lane} {k : Int} (h : k ≠ (s.lane l).offset) :
    (s.setOffset l k).work = s.work ++ s.offsetActs l := by
  rw [setOffset_new h]
  rfl

/-! ### Lane Sync (R28) -/

/-- A lane offset given by the wet end, and UNSYNCED cleared: the map it leaves. -/
theorem syncLane_map (s : State) (l : Lane) (k : Int) :
    (s.syncLane l k).map = { s.map with lanes := s.map.lanes.set l { s.lane l with offset := k, unsynced := false } } := by
  unfold State.syncLane
  rw [setOffset_lanes]
  unfold State.clearUnsynced
  rw [State.lane_setLane]
  unfold State.setLane
  simp only [PerLane.set_set]

theorem syncLane_work_same {l : Lane} {k : Int} (h : k = (s.lane l).offset) : (s.syncLane l k).work = s.work := by
  unfold State.syncLane
  rw [setOffset_same (by unfold State.clearUnsynced; rw [State.lane_setLane]; exact h)]
  rfl

theorem syncLane_work_new {l : Lane} {k : Int} (h : k ≠ (s.lane l).offset) :
    (s.syncLane l k).work = s.work ++ s.offsetActs l := by
  unfold State.syncLane
  rw [setOffset_work (by unfold State.clearUnsynced; rw [State.lane_setLane]; exact h)]
  rfl

/-- Lane Sync changes the map and makes acts due, and nothing else. -/
theorem syncLane_frame (s : State) (l : Lane) (k : Int) :
    s.syncLane l k = { s with map := (s.syncLane l k).map, work := (s.syncLane l k).work } := by
  by_cases h : k = ((s.clearUnsynced l).lane l).offset
  · unfold State.syncLane
    rw [setOffset_same h]
    rfl
  · unfold State.syncLane
    rw [setOffset_new h]
    rfl

theorem laneSyncVerdict_refuses {code : Nat} {k : Int} (h : Lane.ofCode? code = none ∨ 2 ^ 40 - 1 < k.natAbs) (s : State) :
    laneSyncVerdict code k s = .no .range := by
  unfold laneSyncVerdict
  split
  · next l known =>
    refine if_neg fun le => ?_
    rcases h with none_ | far
    · rw [none_] at known
      cases known
    · exact absurd far (Nat.not_lt.mpr le)
  · rfl

theorem laneSyncVerdict_ok {code : Nat} {k : Int} {l : Lane} (known : Lane.ofCode? code = some l) (range : k.natAbs ≤ 2 ^ 40 - 1)
    (s : State) : laneSyncVerdict code k s = .ok fun s => s.syncLane l k := by
  unfold laneSyncVerdict
  rw [known]
  exact if_pos range

/-- Settles O15. -/
theorem laneSyncSetsTheOffset : Obligations.LaneSyncSetsTheOffset := by
  intro p tag code k s heard
  refine ⟨fun l known range => ?_, fun bad quiet => exec_refused .range rfl quiet heard (laneSyncVerdict_refuses bad s)⟩
  let r := s.withFrame p (doneFrame 0x16 tag [])
  refine ⟨r.syncLane l k,
    exec_ok (i := .laneSync p tag code k) rfl heard (laneSyncVerdict_ok known range s), syncLane_frame r l k, syncLane_map r l k,
    fun same => syncLane_work_same same, fun new setup => ?_, fun new tracking => ?_⟩
  · rw [syncLane_work_new (s := r) new, offsetActs_setup (s := r) setup]
    rfl
  · rw [syncLane_work_new (s := r) new, offsetActs_tracking (s := r) tracking, ← List.append_assoc]
    rfl

end Sys2Proof.Machine
end

section
/-! PROOF. Seam recognisers (R32 to R34): what a test of a recogniser leaves, and what a change of its level does. -/

namespace Sys2Proof.Machine

/-! ### The test, state by state -/

section
variable {r : Recogniser} {p : LaneProfile} {c i n : Nat}

theorem Recogniser.guardTest_idle (h : r.level = true ∨ r.i0 = none) : r.guardTest p c = r := by
  unfold Recogniser.guardTest
  rcases h with h | h
  · cases r.i0 <;> simp [h]
  · rw [h]

theorem Recogniser.guardTest_quiet (level : r.level = false) (start : r.i0 = some i) :
    r.guardTest p c = { r with state := if p.preQuiet ≤ c - i then .armed else r.state } := by
  unfold Recogniser.guardTest
  rw [start]
  dsimp only
  by_cases h : p.preQuiet ≤ c - i
  · rw [if_pos h, if_pos (by simp [level, h])]
  · rw [if_neg h, if_neg (by simp [h]), ← start]

theorem Recogniser.test_guard (h : r.state = .guard) : r.test p c = (r.guardTest p c, none) := by
  unfold Recogniser.test
  rw [h]

theorem Recogniser.test_armed (h : r.state = .armed) : r.test p c = (r, none) := by
  unfold Recogniser.test
  rw [h]

theorem Recogniser.test_active_tape (h : r.state = .active) (level : r.level = true) (tape : r.p0 = some n) :
    r.test p c = (if p.minActive ≤ c - n then { r with state := .trailing } else r, none) := by
  unfold Recogniser.test
  rw [h, level, tape]
  rfl

/-- A recogniser that leaves a candidate is back on guard, and armed where the web has been quiet for long. -/
def Recogniser.back (r : Recogniser) (p : LaneProfile) (quiet : Nat) : Recogniser :=
  { r with p0 := none, state := if p.preQuiet ≤ quiet then .armed else .guard }

theorem Recogniser.guardTest_back (level : r.level = false) (start : r.i0 = some i) :
    ({ r with state := .guard, p0 := none } : Recogniser).guardTest p c = r.back p (c - i) :=
  Recogniser.guardTest_quiet level start

theorem Recogniser.test_active_quiet (h : r.state = .active) (level : r.level = false) (start : r.i0 = some i) :
    r.test p c = (if p.maxGap < c - i then r.back p (c - i) else r, none) := by
  rw [← Recogniser.guardTest_back (p := p) (c := c) level start]
  unfold Recogniser.test
  rw [h]
  simp only [level, start, Option.getD_some, Bool.false_eq_true, if_false]
  split <;> rfl

theorem Recogniser.test_trailing_tape (h : r.state = .trailing) (level : r.level = true) : r.test p c = (r, none) := by
  unfold Recogniser.test
  rw [h]
  simp [level]

theorem Recogniser.test_trailing_quiet (h : r.state = .trailing) (level : r.level = false) (start : r.i0 = some i) :
    r.test p c = if p.postQuiet ≤ c - i then (r.back p (c - i), r.p0) else (r, none) := by
  rw [← Recogniser.guardTest_back (p := p) (c := c) level start]
  unfold Recogniser.test
  rw [h]
  simp only [level, start, Option.getD_some, Bool.not_false, Bool.true_and, decide_eq_true_eq]

theorem Recogniser.change_rise (h : r.state ≠ .armed) : r.change true c = { r with level := true, i0 := none } := by
  unfold Recogniser.change
  cases e : r.state with
  | armed => exact absurd e h
  | guard => rfl
  | active => rfl
  | trailing => rfl

theorem Recogniser.change_rise_armed (h : r.state = .armed) :
    r.change true c = { level := true, i0 := none, p0 := some c, state := .active } := by
  unfold Recogniser.change
  rw [h]
  rfl

theorem Recogniser.change_fall : r.change false c = { r with level := false, i0 := some c } := rfl

/-! A change of the level and the test made at once (R32). -/

theorem Recogniser.rise_guard (h : r.state = .guard) :
    (r.change true c).test p c = ({ r with level := true, i0 := none }, none) := by
  have state : ({ r with level := true, i0 := none } : Recogniser).state = .guard := h
  rw [Recogniser.change_rise (by simp [h]), Recogniser.test_guard state, Recogniser.guardTest_idle (.inl rfl)]

theorem Recogniser.rise_armed (h : r.state = .armed) : (r.change true c).test p c =
    ({ level := true, i0 := none, p0 := some c, state := if p.minActive = 0 then .trailing else .active }, none) := by
  rw [Recogniser.change_rise_armed h, Recogniser.test_active_tape rfl rfl rfl]
  by_cases k : p.minActive = 0
  · rw [if_pos k, if_pos (by omega)]
  · rw [if_neg k, if_neg (by omega)]

theorem Recogniser.rise_active (h : r.state = .active) (tape : r.p0 = some n) : (r.change true c).test p c =
    ({ r with level := true, i0 := none, state := if p.minActive ≤ c - n then .trailing else .active }, none) := by
  have state : ({ r with level := true, i0 := none } : Recogniser).state = .active := h
  rw [Recogniser.change_rise (by simp [h]), Recogniser.test_active_tape state rfl tape]
  split
  · rfl
  · rw [← h]

theorem Recogniser.rise_trailing (h : r.state = .trailing) :
    (r.change true c).test p c = ({ r with level := true, i0 := none }, none) := by
  have state : ({ r with level := true, i0 := none } : Recogniser).state = .trailing := h
  rw [Recogniser.change_rise (by simp [h]), Recogniser.test_trailing_tape state rfl]

theorem Recogniser.fall_guard (h : r.state = .guard) : (r.change false c).test p c =
    ({ r with level := false, i0 := some c, state := if p.preQuiet = 0 then .armed else .guard }, none) := by
  have state : ({ r with level := false, i0 := some c } : Recogniser).state = .guard := h
  rw [Recogniser.change_fall, Recogniser.test_guard state, Recogniser.guardTest_quiet rfl rfl]
  simp only [Nat.sub_self, Nat.le_zero, h]

theorem Recogniser.fall_armed (h : r.state = .armed) :
    (r.change false c).test p c = ({ r with level := false, i0 := some c }, none) := by
  have state : ({ r with level := false, i0 := some c } : Recogniser).state = .armed := h
  rw [Recogniser.change_fall, Recogniser.test_armed state]

theorem Recogniser.fall_active (h : r.state = .active) :
    (r.change false c).test p c = ({ r with level := false, i0 := some c }, none) := by
  have state : ({ r with level := false, i0 := some c } : Recogniser).state = .active := h
  rw [Recogniser.change_fall, Recogniser.test_active_quiet state rfl rfl, if_neg (by omega)]

theorem Recogniser.fall_trailing (h : r.state = .trailing) (post : p.postQuiet ≠ 0) :
    (r.change false c).test p c = ({ r with level := false, i0 := some c }, none) := by
  have state : ({ r with level := false, i0 := some c } : Recogniser).state = .trailing := h
  rw [Recogniser.change_fall, Recogniser.test_trailing_quiet state rfl rfl, if_neg (by omega)]

theorem Recogniser.fall_trailing_recognised (h : r.state = .trailing) (post : p.postQuiet = 0) (tape : r.p0 = some n) :
    (r.change false c).test p c =
      ({ level := false, i0 := some c, p0 := none, state := if p.preQuiet = 0 then .armed else .guard }, some n) := by
  have state : ({ r with level := false, i0 := some c } : Recogniser).state = .trailing := h
  rw [Recogniser.change_fall, Recogniser.test_trailing_quiet state rfl rfl, if_pos (by omega), Recogniser.back]
  simp only [Nat.sub_self, Nat.le_zero, tape]

end

variable {s t u : State} {l : Lane}

/-! ### A lane's recogniser -/

/-- The state with a lane's recogniser replaced. -/
def State.setRecogniser (s : State) (l : Lane) (v : Recogniser) : State := s.setLane l { s.lane l with recogniser := v }

theorem setRecogniser_self (s : State) (l : Lane) : s.setRecogniser l (s.lane l).recogniser = s := setLane_self s l

theorem setRecogniser_setRecogniser (s : State) (l : Lane) (v w : Recogniser) :
    (s.setRecogniser l v).setRecogniser l w = s.setRecogniser l w := by
  unfold State.setRecogniser
  rw [setLane_setLane, State.lane_setLane]

/-- A test that recognises no seam leaves what it makes of the recogniser. -/
theorem recogniserTest_moves {v : Recogniser} (h : (s.lane l).recogniser.test (s.laneProfile l) s.mainCount = (v, none)) :
    s.recogniserTest l = s.setRecogniser l v := by
  unfold State.recogniserTest
  rw [h]
  rfl

/-- A test that recognises a seam makes its match due, at the start of its tape plus D_det. -/
theorem recogniserTest_recognises {v : Recogniser} {n : Nat}
    (h : (s.lane l).recogniser.test (s.laneProfile l) s.mainCount = (v, some n)) :
    s.recogniserTest l = (s.setRecogniser l v).push [.matchSeam l ((n : Int) + (s.laneProfile l).dDet)] := by
  unfold State.recogniserTest
  rw [h]
  rfl

theorem recogniserTest_keeps
    (h : (s.lane l).recogniser.test (s.laneProfile l) s.mainCount = ((s.lane l).recogniser, none)) : s.recogniserTest l = s := by
  rw [recogniserTest_moves h, setRecogniser_self]

theorem recogniserTest_ite {v : Recogniser} {c : Prop} [Decidable c]
    (h : (s.lane l).recogniser.test (s.laneProfile l) s.mainCount = (if c then v else (s.lane l).recogniser, none)) :
    s.recogniserTest l = if c then s.setRecogniser l v else s := by
  rw [recogniserTest_moves h]
  split
  · rfl
  · exact setRecogniser_self s l

/-- The recogniser's test, by its state (R32 to R34). -/
theorem recogniserTest_byState : Rule.RecogniserTest := by
  intro l s
  refine ⟨fun state idle => ?_, fun i state level start => ?_, fun state => ?_, fun n state level tape => ?_,
    fun i state level start => ?_, fun state level => ?_, fun i n state level start tape => ?_⟩
  · exact recogniserTest_keeps (by rw [Recogniser.test_guard state, Recogniser.guardTest_idle idle])
  · refine recogniserTest_ite ?_
    rw [Recogniser.test_guard state, Recogniser.guardTest_quiet level start]
    split
    · rfl
    · rfl
  · exact recogniserTest_keeps (Recogniser.test_armed state)
  · exact recogniserTest_ite (Recogniser.test_active_tape state level tape)
  · exact recogniserTest_ite (Recogniser.test_active_quiet state level start)
  · exact recogniserTest_keeps (Recogniser.test_trailing_tape state level)
  · have test := Recogniser.test_trailing_quiet (p := s.laneProfile l) (c := s.mainCount) state level start
    dsimp only
    split
    · next long =>
      rw [if_pos long, tape] at test
      exact recogniserTest_recognises test
    · next short =>
      rw [if_neg short] at test
      exact recogniserTest_keeps test

/-! ### A change of the level (R32) -/

theorem seamInput_held {b : Bool} (h : b = (s.lane l).recogniser.level) : s.seamInput l b = s := if_pos h

/-- A change of the level that recognises no seam. -/
theorem seamInput_moves {b : Bool} {v : Recogniser} (new : b ≠ (s.lane l).recogniser.level)
    (h : ((s.lane l).recogniser.change b s.mainCount).test (s.laneProfile l) s.mainCount = (v, none)) :
    s.seamInput l b = s.setRecogniser l v := by
  have changed : s.seamInput l b = (s.setRecogniser l ((s.lane l).recogniser.change b s.mainCount)).recogniserTest l := if_neg new
  rw [changed, recogniserTest_moves, setRecogniser_setRecogniser]
  unfold State.setRecogniser
  rw [State.lane_setLane]
  exact h

/-- A change of the level that recognises a seam, which is matched next. -/
theorem seamInput_recognises {b : Bool} {v : Recogniser} {n : Nat} (new : b ≠ (s.lane l).recogniser.level)
    (h : ((s.lane l).recogniser.change b s.mainCount).test (s.laneProfile l) s.mainCount = (v, some n)) :
    s.seamInput l b = (s.setRecogniser l v).push [.matchSeam l ((n : Int) + (s.laneProfile l).dDet)] := by
  have changed : s.seamInput l b = (s.setRecogniser l ((s.lane l).recogniser.change b s.mainCount)).recogniserTest l := if_neg new
  rw [changed, recogniserTest_recognises, setRecogniser_setRecogniser]
  · rfl
  · unfold State.setRecogniser
    rw [State.lane_setLane]
    exact h

theorem exec_seamInput {b : Bool} (running : s.resetAsserted = false) :
    exec (.seamInputChange l b) s = .next (s.seamInput l b).settled := exec_settles _ s nofun nofun running

/-- A change of the level, by the state of the recogniser (R32 to R34). -/
theorem seamInput_byState : Rule.SeamInput := by
  intro l b s running
  have moves {v : Recogniser} (new : b ≠ (s.lane l).recogniser.level)
      (h : ((s.lane l).recogniser.change b s.mainCount).test (s.laneProfile l) s.mainCount = (v, none)) :
      exec (.seamInputChange l b) s = .next (s.setRecogniser l v).settled := by
    rw [exec_seamInput running, seamInput_moves new h]
  refine ⟨fun held quiet => ?_, fun rises low => ?_, fun falls high => ?_⟩
  · rw [exec_seamInput running, seamInput_held held, settled_nil s quiet]
  · subst rises
    have new : true ≠ (s.lane l).recogniser.level := by simp [low]
    exact ⟨fun state => moves new (Recogniser.rise_guard state), fun state => moves new (Recogniser.rise_armed state),
      fun state n tape => moves new (Recogniser.rise_active state tape),
      fun state => moves new (Recogniser.rise_trailing state)⟩
  · subst falls
    have new : false ≠ (s.lane l).recogniser.level := by simp [high]
    refine ⟨fun state => moves new (Recogniser.fall_guard state), fun state => moves new (Recogniser.fall_armed state),
      fun state => moves new (Recogniser.fall_active state), fun state post => moves new (Recogniser.fall_trailing state post),
      fun state post n tape => ?_⟩
    rw [exec_seamInput running, seamInput_recognises new (Recogniser.fall_trailing_recognised state post tape)]
    rfl

end Sys2Proof.Machine
end

section
/-! PROOF. Lane marks that leave their track (R29 to R36): the window test, the match of a recognised seam, and O16. -/

namespace Sys2Proof.Machine

variable {s t u : State} {l : Lane}

theorem MapAlone.part (h : MapAlone s t) : t.part = s.part := by
  unfold MapAlone at h
  rw [← h]

/-! ### Insertion into an empty track -/

/-- A closed extent alone is its own merge. -/
theorem mergeInto_nil_closed (a b : Pos) (v : Option SeamPart) :
    mergeInto [] (.closed a b .seam v) = [.closed a b .seam v] := rfl

theorem insertExtent_empty {x : Extent} (empty : s.map.track = []) (web : x.covers = true) (alone : mergeInto [] x = [x]) :
    (s.insertExtent x).map.track = [x] := by
  rw [insertExtent_track s x web, empty, alone]
  rfl

/-- A seam's extent starts at position 0 at the earliest (R30). -/
theorem seamStart_eq (s : State) (p : Pos) (x : Stream) (f w : Bool) :
    max (s.seamExtent p x f w).1 0 = (s.seamExtent p x f w).1 := max_eq_left (le_max_left 0 _)

/-- The extent of a mark moved to the main track, with its place written out (R30). -/
theorem seamOf_eq (s : State) (m : LaneMark) (q : Pos) (c : Confirmation) :
    let place := s.seamExtent q m.stream m.fast m.unsynced
    s.seamOf m q c = { start := place.1, finish := some place.2, held := none, causes := [.seam], claims := []
                       seam := some ⟨m.stream, m.arm, c, m.fast, m.unsynced⟩ } := by
  unfold State.seamOf Extent.closed
  dsimp only
  rw [seamStart_eq]

/-- A seam that covers web stands alone in a track that was empty. -/
theorem insertSeam_empty {m : LaneMark} {q : Pos} {c : Confirmation} (empty : t.map.track = [])
    (web : (s.seamExtent q m.stream m.fast m.unsynced).1 < (s.seamExtent q m.stream m.fast m.unsynced).2) :
    (t.insertExtent (s.seamOf m q c)).map.track = [s.seamOf m q c] := by
  refine insertExtent_empty empty ((covers_iff _).mpr fun f hf => ?_) (mergeInto_nil_closed _ _ _)
  rw [seamOf_eq] at hf ⊢
  cases hf
  exact web

theorem insertSeam_covers (t s : State) (m : LaneMark) (q : Pos) (c : Confirmation) :
    (t.insertExtent (s.seamOf m q c)).covers .seam (s.seamExtent q m.stream m.fast m.unsynced).1
      (s.seamExtent q m.stream m.fast m.unsynced).2 := insertExtent_closed_covers _ _ _ _ _

/-! ### The window test (R31) -/

/-- One late mark moved to the main track as UNCONFIRMED, at the place that `s` predicts for it. -/
def State.unconfirm (s t : State) (m : LaneMark) : State :=
  (t.insertExtent (s.seamOf m (s.predicted m) .unconfirmed)).raise .seamUnconfirmed

/-- The marks of a lane that are late (R31). -/
def State.lateMarks (s : State) (l : Lane) : List LaneMark := (s.lane l).marks.filter fun m => s.windowEnd l m < s.knife

/-- The state with a lane's late marks taken out of its track, and the change handed on. -/
def State.withoutLate (s : State) (l : Lane) : State :=
  (s.setMarks l ((s.lane l).marks.filter fun m => !(s.windowEnd l m < s.knife))).replan

theorem windowTest_none (h : s.lateMarks l = []) : s.windowTest l = s := by
  unfold State.windowTest
  exact if_pos (List.isEmpty_iff.mpr h)

theorem windowTest_some (h : s.lateMarks l ≠ []) : s.windowTest l = (s.lateMarks l).foldl s.unconfirm (s.withoutLate l) := by
  unfold State.windowTest
  exact if_neg (mt List.isEmpty_iff.mp h)

theorem unconfirm_covers {c : Cause} {a b : Pos} (h : t.covers c a b) (m : LaneMark) : (s.unconfirm t m).covers c a b :=
  insertExtent_covers t _ c a b h

theorem unconfirmAll_covers (s t : State) (ms : List LaneMark) {c : Cause} {a b : Pos} (h : t.covers c a b) :
    (ms.foldl s.unconfirm t).covers c a b := by
  induction ms generalizing t with
  | nil => exact h
  | cons m ms ih => exact ih _ (unconfirm_covers h m)

theorem unconfirmAll_places (s t : State) (ms : List LaneMark) (m : LaneMark) (h : m ∈ ms) :
    (ms.foldl s.unconfirm t).covers .seam (s.seamExtent (s.predicted m) m.stream m.fast m.unsynced).1
      (s.seamExtent (s.predicted m) m.stream m.fast m.unsynced).2 := by
  induction ms generalizing t with
  | nil => cases h
  | cons n ms ih =>
    rcases List.mem_cons.mp h with rfl | h
    · exact unconfirmAll_covers s _ ms (insertSeam_covers t s m (s.predicted m) .unconfirmed)
    · exact ih _ h

theorem unconfirmAll_frame (s t : State) (ms : List LaneMark) :
    MapAlone t (ms.foldl s.unconfirm t) ∧ (ms.foldl s.unconfirm t).map.lanes = t.map.lanes := by
  induction ms generalizing t with
  | nil => exact ⟨.refl t, rfl⟩
  | cons m ms ih =>
    obtain ⟨frame, lanes⟩ := ih (s.unconfirm t m)
    exact ⟨(insertExtent_raise_mapAlone t _ _).trans frame, lanes.trans (insertExtent_map t _).1⟩

theorem unconfirmAll_untouched (s t : State) (ms : List LaneMark) : Untouched t (ms.foldl s.unconfirm t) :=
  Untouched.foldl _ (fun _ k => (k.insertExtent _).raise _) ms (.refl t)

/-- Moving marks to the main track leaves the acts that are due. -/
theorem unconfirmAll_work (s t : State) (ms : List LaneMark) {a : Task} (h : a ∈ t.work) : a ∈ (ms.foldl s.unconfirm t).work := by
  induction ms generalizing t with
  | nil => exact h
  | cons m ms ih =>
    refine ih (s.unconfirm t m) ?_
    change a ∈ (t.insertExtent _).work
    rw [insertExtent_work]
    exact List.mem_append_left _ h

theorem unconfirm_raises (s t : State) (m : LaneMark) (classes : (t.port .wet).classes.length = 13) :
    ((s.unconfirm t m).port .wet).rawOf 7 = true := by
  refine raise_raw _ .seamUnconfirmed ?_
  change 7 < ((t.insertExtent _).port .wet).classes.length
  rw [(((Untouched.refl t).insertExtent _).ports .wet).classCount, classes]
  decide

theorem unconfirmAll_raises (s t : State) (ms : List LaneMark) (some_ : ms ≠ []) (classes : (t.port .wet).classes.length = 13) :
    ((ms.foldl s.unconfirm t).port .wet).rawOf 7 = true := by
  cases ms with
  | nil => exact absurd rfl some_
  | cons m ms =>
    exact ((unconfirmAll_untouched s (s.unconfirm t m) ms).ports .wet).raw 7 (unconfirm_raises s t m classes)

theorem withoutLate_lanes (s : State) (l : Lane) : (s.withoutLate l).map.lanes =
    s.map.lanes.set l { s.lane l with marks := (s.lane l).marks.filter fun m => !decide (s.windowEnd l m < s.knife) } := by
  unfold State.withoutLate
  rw [replan_map]
  rfl

theorem withoutLate_frame (s : State) (l : Lane) : MapAlone s (s.withoutLate l) := by
  unfold State.withoutLate
  rcases State.replan_eq (s := s.setMarks l ((s.lane l).marks.filter fun m => !(s.windowEnd l m < s.knife))) with e | e <;>
    rw [e] <;> rfl

/-- The window test of a lane (R31). -/
theorem windowTest_moves : Rule.WindowTest := by
  intro l s marks late place t
  have isLate : ∀ m, m ∈ s.lateMarks l ↔ m ∈ marks ∧ late m := fun m => by
    unfold State.lateMarks
    rw [List.mem_filter, decide_eq_true_eq]
    rfl
  refine ⟨fun none_ => windowTest_none (List.filter_eq_nil_iff.mpr fun m mem => mt of_decide_eq_true (none_ m mem)), ?_,
    fun m only lateM empty web => ?_⟩
  · rintro ⟨m, mem, lateM⟩
    have some_ : s.lateMarks l ≠ [] := List.ne_nil_of_mem ((isLate m).mpr ⟨mem, lateM⟩)
    have moved : t = (s.lateMarks l).foldl s.unconfirm (s.withoutLate l) := windowTest_some some_
    obtain ⟨frame, lanes⟩ := unconfirmAll_frame s (s.withoutLate l) (s.lateMarks l)
    rw [withoutLate_lanes] at lanes
    rw [moved]
    refine ⟨?_, fun k other => ?_, fun n memN lateN => ?_, fun classes => ?_, fun tracking => ?_, ?_⟩
    · unfold State.lane
      rw [lanes, PerLane.get_set_same]
      rfl
    · unfold State.lane
      rw [lanes, PerLane.get_set_other _ _ _ _ other]
    · exact unconfirmAll_places s _ _ n ((isLate n).mpr ⟨memN, lateN⟩)
    · refine unconfirmAll_raises s _ _ some_ ?_
      unfold State.withoutLate State.port
      rw [replan_ports]
      exact classes
    · refine unconfirmAll_work s _ _ ?_
      unfold State.withoutLate
      rw [replan_work, if_pos (show (s.setMarks l _).part = .tracking from tracking)]
      exact List.mem_append_right _ (List.mem_singleton.mpr rfl)
    · exact (withoutLate_frame s l).trans frame
  · have one : s.lateMarks l = [m] := by
      unfold State.lateMarks
      rw [show (s.lane l).marks = [m] from only]
      exact List.filter_cons_of_pos (decide_eq_true lateM)
    have moved : t = s.unconfirm (s.withoutLate l) m := by
      have := windowTest_some (s := s) (l := l) (one ▸ List.cons_ne_nil m [])
      rwa [one] at this
    rw [moved]
    change ((s.withoutLate l).insertExtent _).map.track = _
    rw [insertSeam_empty ?_ web, seamOf_eq]
    unfold State.withoutLate
    rw [replan_map]
    exact empty

/-! ### The match of a recognised seam (R35, R36) -/

/-- The nearest of some marks: no other is nearer, and of equally near ones it is the older. -/
def State.NearestMark (s : State) (q : Pos) (m : LaneMark) (ms : List LaneMark) : Prop :=
  ∀ n ∈ ms, n = m ∨ (s.predicted m - q).natAbs < (s.predicted n - q).natAbs ∨
    ((s.predicted m - q).natAbs = (s.predicted n - q).natAbs ∧ m.age < n.age)

theorem nearer_left {q : Pos} {m n : LaneMark} (h : s.NearestMark q m [n]) : s.nearer q m n = m := by
  unfold State.nearer
  dsimp only
  rcases h n List.mem_cons_self with rfl | near | ⟨equal, older⟩
  · simp
  · rw [if_pos near]
  · rw [equal, if_neg (lt_irrefl _), if_neg (lt_irrefl _), if_pos older.le]

theorem nearer_right {q : Pos} {m n : LaneMark} (h : s.NearestMark q m [n]) : s.nearer q n m = m := by
  unfold State.nearer
  dsimp only
  rcases h n List.mem_cons_self with rfl | near | ⟨equal, older⟩
  · simp
  · rw [if_neg near.not_gt, if_pos near]
  · rw [equal, if_neg (lt_irrefl _), if_neg (lt_irrefl _), if_neg (Nat.not_le.mpr older)]

/-- The nearest of some marks is the one the examination keeps, wherever it stands among them. -/
theorem foldl_nearer {q : Pos} {m x : LaneMark} {ms : List LaneMark} (mem : m ∈ x :: ms) (nearest : s.NearestMark q m (x :: ms)) :
    ms.foldl (s.nearer q) x = m := by
  induction ms generalizing x with
  | nil => exact (List.mem_singleton.mp mem).symm
  | cons y ms ih =>
    have first : s.NearestMark q m [x] := fun n hn => nearest n (List.mem_cons.mpr (.inl (List.mem_singleton.mp hn)))
    have second : s.NearestMark q m [y] := fun n hn =>
      nearest n (List.mem_cons_of_mem _ (List.mem_cons.mpr (.inl (List.mem_singleton.mp hn))))
    have rest : ∀ n ∈ ms, n ∈ x :: y :: ms := fun n hn => List.mem_cons_of_mem _ (List.mem_cons_of_mem _ hn)
    have kept : s.nearer q x y = x ∨ s.nearer q x y = y := by
      unfold State.nearer
      dsimp only
      repeat' split
      all_goals simp
    refine ih ?_ fun n hn => ?_
    · rcases List.mem_cons.mp mem with rfl | mem
      · rw [nearer_left second]
        exact List.mem_cons_self
      · rcases List.mem_cons.mp mem with rfl | mem
        · rw [nearer_right first]
          exact List.mem_cons_self
        · exact List.mem_cons_of_mem _ mem
    · rcases List.mem_cons.mp hn with rfl | hn
      · rcases kept with e | e <;> rw [e]
        · exact nearest x List.mem_cons_self
        · exact nearest y (List.mem_cons_of_mem _ List.mem_cons_self)
      · exact nearest n (rest n hn)

/-- The marks of a lane within W_confirm of a position (R35). -/
def State.marksNear (s : State) (l : Lane) (q : Pos) : List LaneMark :=
  (s.lane l).marks.filter fun m => (s.predicted m - q).natAbs ≤ (s.laneProfile l).wConfirm

theorem mem_marksNear {q : Pos} {m : LaneMark} :
    m ∈ s.marksNear l q ↔ m ∈ (s.lane l).marks ∧ (s.predicted m - q).natAbs ≤ (s.laneProfile l).wConfirm := by
  unfold State.marksNear
  rw [List.mem_filter, decide_eq_true_eq]

theorem matchSeam_unexpected {q : Pos} (h : s.marksNear l q = []) : s.matchSeam l q = s.unexpectedSeam l q := by
  have none_ : s.matchedMark l q = none := by
    unfold State.matchedMark
    rw [show (s.lane l).marks.filter _ = [] from h]
  unfold State.matchSeam
  rw [none_]

theorem matchSeam_confirms {q : Pos} {m : LaneMark} (mem : m ∈ s.marksNear l q) (nearest : s.NearestMark q m (s.marksNear l q)) :
    s.matchSeam l q = s.confirmSeam l q m := by
  have found : s.matchedMark l q = some m := by
    cases e : s.marksNear l q with
    | nil => rw [e] at mem; cases mem
    | cons x ms =>
      unfold State.matchedMark
      rw [show (s.lane l).marks.filter _ = x :: ms from e]
      rw [e] at mem nearest
      exact congrArg some (foldl_nearer mem nearest)
  unfold State.matchSeam
  rw [found]

theorem unexpectedSeam_facts (s : State) (l : Lane) (q : Pos) :
    let liner := s.streamProfile l.liner
    (s.unexpectedSeam l q).map.lanes = s.map.lanes ∧
    (s.unexpectedSeam l q).covers .unexpectedSeam (q - liner.seamLead) (q + liner.seamTrail) ∧
    ((s.port .wet).classes.length = 13 → ((s.unexpectedSeam l q).port .wet).rawOf 6 = true) ∧
    MapAlone s (s.unexpectedSeam l q) := by
  refine ⟨(insertExtent_map s _).1, insertExtent_closed_covers s .unexpectedSeam _ _ none, fun classes => ?_,
    insertExtent_raise_mapAlone s _ _⟩
  refine raise_raw _ .seamUnexpected ?_
  change 6 < ((s.insertExtent _).port .wet).classes.length
  rw [(((Untouched.refl s).insertExtent _).ports .wet).classCount, classes]
  decide

/-! ### The offset corrected (R35) -/

theorem correctOffset_map (s : State) (l : Lane) (k : Int) :
    (s.correctOffset l k).map = { s.map with lanes := s.map.lanes.set l { s.lane l with offset := k } } := by
  unfold State.correctOffset
  split
  · next h =>
    rw [replan_map, h]
    exact congrArg State.map (setLane_self s l).symm
  · exact setOffset_lanes s l k

theorem replan_mapAlone (s : State) : MapAlone s s.replan := by
  rcases s.replan_eq with e | e <;> rw [e] <;> rfl

theorem correctOffset_mapAlone (s : State) (l : Lane) (k : Int) : MapAlone s (s.correctOffset l k) := by
  unfold State.correctOffset
  split
  · exact MapAlone.trans (t := s.push [.windowTest l]) rfl (replan_mapAlone _)
  · exact setOffset_mapAlone s l k

theorem correctOffset_work_setup (h : s.part = .setup) (l : Lane) (k : Int) :
    (s.correctOffset l k).work = s.work ++ [.windowTest l] := by
  unfold State.correctOffset
  split
  · rw [replan_work, if_neg (show ¬ (s.push [.windowTest l]).part = .tracking by rw [show (s.push _).part = s.part from rfl, h]; decide)]
    exact List.append_nil _
  · next new => rw [setOffset_work new, offsetActs_setup h]

/-- The tests of R109 that a changed lane offset makes due. -/
def laneGradeTests (l : Lane) : List Task := l.streams.flatMap fun x => [.wrongGrade x, .commitTest x, .fireTest x]

theorem correctOffset_work_tracking (h : s.part = .tracking) (l : Lane) (k : Int) : (s.correctOffset l k).work =
    s.work ++ [.windowTest l] ++ .recompute :: if k = (s.lane l).offset then [] else laneGradeTests l := by
  unfold State.correctOffset
  split
  · rw [replan_work, if_pos (show (s.push [.windowTest l]).part = .tracking from h)]
    rfl
  · next new =>
    rw [setOffset_work new, offsetActs_tracking h]
    simp only [List.append_assoc]
    rfl

/-! ### A seam confirmed (R35) -/

/-- The state with a mark moved to the main track, CONFIRMED at `q`, and UNSYNCED cleared. -/
def State.confirmed (s : State) (l : Lane) (q : Pos) (m : LaneMark) : State :=
  ((s.setMarks l ((s.lane l).marks.filter fun n => n.age != m.age)).insertExtent (s.seamOf m q .confirmed)).clearUnsynced l

theorem confirmSeam_eq (s : State) (l : Lane) (q : Pos) (m : LaneMark) :
    s.confirmSeam l q m = (s.confirmed l q m).correctOffset l
      (limitOffset ((s.lane l).offset + limitCorrection (q - s.predicted m) (s.laneProfile l).maxCorrection)) := rfl

theorem confirmed_mapAlone (s : State) (l : Lane) (q : Pos) (m : LaneMark) : MapAlone s (s.confirmed l q m) := by
  have removed : MapAlone s (s.setMarks l ((s.lane l).marks.filter fun n => n.age != m.age)) := rfl
  exact (removed.trans (insertExtent_frame _ _).1).trans rfl

theorem confirmed_lanes (s : State) (l : Lane) (q : Pos) (m : LaneMark) : (s.confirmed l q m).map.lanes =
    s.map.lanes.set l { s.lane l with marks := (s.lane l).marks.filter fun n => n.age != m.age, unsynced := false } := by
  let removed := s.setMarks l ((s.lane l).marks.filter fun n => n.age != m.age)
  have record : removed.lane l = { s.lane l with marks := (s.lane l).marks.filter fun n => n.age != m.age } :=
    State.lane_setLane _ _ _
  change (removed.insertExtent (s.seamOf m q .confirmed)).map.lanes.set l
    { (removed.insertExtent (s.seamOf m q .confirmed)).lane l with unsynced := false } = _
  rw [insertExtent_lane, (insertExtent_map _ _).1, record]
  exact PerLane.set_set _ _ _ _

theorem confirmed_work (s : State) (l : Lane) (q : Pos) (m : LaneMark) : (s.confirmed l q m).work =
    s.work ++ if s.part = .tracking ∧ (s.seamOf m q .confirmed).covers = true then [.recompute] else [] :=
  insertExtent_work _ _

theorem confirmSeam_track (s : State) (l : Lane) (q : Pos) (m : LaneMark) : (s.confirmSeam l q m).map.track =
    ((s.setMarks l ((s.lane l).marks.filter fun n => n.age != m.age)).insertExtent (s.seamOf m q .confirmed)).map.track := by
  rw [confirmSeam_eq, correctOffset_map]
  rfl

theorem confirmSeam_lanes (s : State) (l : Lane) (q : Pos) (m : LaneMark) : (s.confirmSeam l q m).map.lanes =
    s.map.lanes.set l { s.lane l with
      marks := (s.lane l).marks.filter fun n => n.age != m.age
      offset := limitOffset ((s.lane l).offset + limitCorrection (q - s.predicted m) (s.laneProfile l).maxCorrection)
      unsynced := false } := by
  rw [confirmSeam_eq, correctOffset_map]
  unfold State.lane
  rw [confirmed_lanes, PerLane.get_set_same]
  exact PerLane.set_set _ _ _ _

theorem confirmSeam_mapAlone (s : State) (l : Lane) (q : Pos) (m : LaneMark) : MapAlone s (s.confirmSeam l q m) := by
  rw [confirmSeam_eq]
  exact (confirmed_mapAlone s l q m).trans (correctOffset_mapAlone _ l _)

theorem confirmed_part (s : State) (l : Lane) (q : Pos) (m : LaneMark) : (s.confirmed l q m).part = s.part :=
  MapAlone.part (confirmed_mapAlone s l q m)

theorem confirmed_offset (s : State) (l : Lane) (q : Pos) (m : LaneMark) :
    ((s.confirmed l q m).lane l).offset = (s.lane l).offset := by
  unfold State.lane
  rw [confirmed_lanes, PerLane.get_set_same]
  rfl

theorem confirmSeam_work_setup (quiet : s.work = []) (setup : s.part = .setup) (l : Lane) (q : Pos) (m : LaneMark) :
    (s.confirmSeam l q m).work = [.windowTest l] := by
  rw [confirmSeam_eq, correctOffset_work_setup (by rw [confirmed_part, setup]), confirmed_work, quiet,
    if_neg (by simp [setup])]
  rfl

theorem recompute_not_mem_laneGradeTests (l : Lane) : Task.recompute ∉ laneGradeTests l := by
  cases l <;> decide

theorem confirmSeam_work_tracking (quiet : s.work = []) (tracking : s.part = .tracking) (l : Lane) (q : Pos) (m : LaneMark) :
    let k := limitOffset ((s.lane l).offset + limitCorrection (q - s.predicted m) (s.laneProfile l).maxCorrection)
    lastRecompute (s.confirmSeam l q m).work =
      [Task.windowTest l, Task.recompute] ++ if k = (s.lane l).offset then [] else laneGradeTests l := by
  intro k
  rw [confirmSeam_eq, correctOffset_work_tracking (by rw [confirmed_part, tracking]), confirmed_offset, lastRecompute_append]
  · have before : ((s.confirmed l q m).work ++ [Task.windowTest l]).filter (fun a => a != .recompute) = [Task.windowTest l] := by
      rw [confirmed_work, quiet]
      split
      · cases l <;> decide
      · cases l <;> decide
    rw [before]
    rfl
  · split
    · exact List.not_mem_nil
    · exact recompute_not_mem_laneGradeTests l

/-- The lane offset behind a correction, with its limits written out (R27, R35). -/
theorem correctedOffset_eq (offset e : Int) (most : Nat) : limitOffset (offset + limitCorrection e most) =
    max (-(2 ^ 40 - 1)) (min (2 ^ 40 - 1) (offset + max (-(most : Int)) (min most e))) := by
  have limit : (Config.counterMax : Int) = 2 ^ 40 - 1 := rfl
  unfold limitOffset limitCorrection
  rw [limit, min_comm e, min_comm (offset + _)]

/-- A recognised seam, unexpected or confirmed (R35, R36). -/
theorem matchSeam_matches : Rule.SeamMatch := by
  intro l q s marks liner away t
  refine ⟨fun far => ?_, fun m mem close best => ?_⟩
  · have unexpected : t = s.unexpectedSeam l q :=
      matchSeam_unexpected (List.filter_eq_nil_iff.mpr fun m mem => by simpa using far m mem)
    rw [unexpected]
    cases l <;> exact unexpectedSeam_facts s _ q
  · have confirms : t = s.confirmSeam l q m :=
      matchSeam_confirms (mem_marksNear.mpr ⟨mem, close⟩) fun n hn => best n (mem_marksNear.mp hn).1 (mem_marksNear.mp hn).2
    rw [confirms]
    refine ⟨?_, fun k other => ?_, ?_, fun empty web => ?_, fun quiet => ⟨fun setup => ?_, fun tracking => ?_⟩, ?_⟩
    · unfold State.lane
      rw [confirmSeam_lanes, PerLane.get_set_same, correctedOffset_eq]
      rfl
    · unfold State.lane
      rw [confirmSeam_lanes, PerLane.get_set_other _ _ _ _ other]
    · unfold State.covers
      rw [confirmSeam_track]
      exact insertSeam_covers _ s m q .confirmed
    · have alone := insertSeam_empty (t := s.setMarks l ((s.lane l).marks.filter fun n => n.age != m.age)) (s := s) (m := m)
        (q := q) (c := .confirmed) empty web
      rw [confirmSeam_track, alone, seamOf_eq]
    · exact confirmSeam_work_setup quiet setup l q m
    · rw [confirmSeam_work_tracking quiet tracking l q m, correctedOffset_eq]
      rfl
    · exact confirmSeam_mapAlone s l q m

/-- Settles O16. -/
theorem seamInputMovesTheRecogniser : Obligations.SeamInputMovesTheRecogniser :=
  ⟨seamInput_byState, recogniserTest_byState, windowTest_moves, matchSeam_matches⟩

end Sys2Proof.Machine
end

section
/-! PROOF. Grade targets in a slot (R81 to R84, R107, R108): their figures set anew, their withdrawal and their offer. -/

namespace Sys2Proof.Machine

variable {s t u : State} {x : Stream} {v : Slot}

/-! ### The figures of a target (R81, R83, R107) -/

/-- The order whose boundary a GRADE slot holds, while it has not departed. -/
theorem target?_eq_some {id : Nat} : v.target? = some id ↔ v.kind = .grade ∧ v.departed = false ∧ v.boundary = some id := by
  unfold Slot.target?
  cases v.kind <;> cases v.departed <;> simp

theorem windowOrder?_id {id : Nat} {w : WindowOrder} (h : s.windowOrder? id = some w) : w.id = id := by
  simpa using List.find?_some h

/-- B is the start of the order after the boundary while the window holds that order. -/
theorem boundaryOf_window {id : Nat} {r : OrderRec} {b : Pos} (kind : v.kind = .grade) (held : v.departed = false)
    (boundary : v.boundary = some id) (window : (s.windowOrder? id).isSome = true) (order : s.order? id = some r)
    (start : r.p = some b) : s.boundaryOf v = b := by
  obtain ⟨w, hw⟩ := Option.isSome_iff_exists.mp window
  unfold State.boundaryOf
  rw [target?_eq_some.mpr ⟨kind, held, boundary⟩, Option.bind_some, hw, Option.bind_some, windowOrder?_id hw, order,
    Option.bind_some, start]
  rfl

/-- B stays where it stood once the window no longer holds the order. -/
theorem boundaryOf_kept (gone : v.departed = true ∨ v.boundary = none ∨ ∃ id, v.boundary = some id ∧ s.windowOrder? id = none) :
    s.boundaryOf v = v.boundaryPos := by
  have none_ : v.target?.bind s.windowOrder? = none := by
    cases e : v.target? with
    | none => rfl
    | some id =>
      obtain ⟨-, held, boundary⟩ := target?_eq_some.mp e
      rcases gone with h | h | ⟨k, h, out⟩
      · rw [h] at held
        cases held
      · rw [h] at boundary
        cases boundary
      · rw [h] at boundary
        cases boundary
        exact out
  unfold State.boundaryOf
  rw [none_]
  rfl

theorem refreshSlot_none (h : (s.stream x).slot = none) : s.refreshSlot x = s := by
  unfold State.refreshSlot
  rw [h]

theorem refreshSlot_other (h : (s.stream x).slot = some v) (k : v.kind ≠ .grade ∨ v.state = .fault) : s.refreshSlot x = s := by
  unfold State.refreshSlot
  rw [h]
  refine if_neg ?_
  rcases k with k | k <;> simp [k]

theorem refreshSlot_grade (h : (s.stream x).slot = some v) (kind : v.kind = .grade) (state : v.state ≠ .fault) :
    s.refreshSlot x = s.setSlot x (some (if v.reaimed = true then { v with boundaryPos := s.boundaryOf v }
      else { v with
        boundaryPos := s.boundaryOf v, firePoint := s.targetFire x (s.boundaryOf v)
        commitPoint := s.targetFire x (s.boundaryOf v) - (s.streamProfile x).commitLead })) := by
  unfold State.refreshSlot
  rw [h]
  dsimp only
  rw [if_pos (by simp [kind, state])]
  split
  · rfl
  · rfl

/-- The figures of a GRADE slot set anew (R83, R107). -/
theorem refreshSlot_figures : Rule.TargetFigures := by
  intro x s
  refine ⟨refreshSlot_none, fun v slot => ⟨refreshSlot_other slot, fun b kind state place => ?_⟩⟩
  have at_ : s.boundaryOf v = b := by
    rcases place with ⟨id, r, boundary, held, window, order, start⟩ | ⟨rfl, gone⟩
    · exact boundaryOf_window kind held boundary window order start
    · exact boundaryOf_kept gone
  rw [refreshSlot_grade slot kind state, at_]
  rfl

/-! ### Withdrawal (R84) -/

theorem map_filterMap_sublist {α β γ : Type} (f : α → Option β) (g : β → γ) (h : α → γ)
    (same : ∀ a b, f a = some b → g b = h a) (l : List α) : ((l.filterMap f).map g).Sublist (l.map h) := by
  induction l with
  | nil => exact List.Sublist.refl _
  | cons a l ih =>
    cases e : f a with
    | none =>
      rw [List.filterMap_cons_none e, List.map_cons]
      exact ih.cons _
    | some b =>
      rw [List.filterMap_cons_some e, List.map_cons, List.map_cons, same a b e]
      exact ih.cons_cons _

theorem map_withPrev (k : Option Line) (ls : List Line) : (withPrev k ls).map Prod.fst = ls := by
  induction ls generalizing k with
  | nil => rfl
  | cons l ls ih => rw [withPrev, List.map_cons, ih]

/-- Boundaries of a window of distinct ids are of distinct orders. -/
theorem boundaries_distinct (h : (s.plan.window.map fun w => w.id).Nodup) : (s.boundaries.map fun b => b.1.w.id).Nodup := by
  have lines : (s.lines.map fun l => l.w.id).Sublist (s.plan.window.map fun w => w.id) := by
    refine map_filterMap_sublist _ _ _ (fun w l e => ?_) _
    obtain ⟨r, -, rfl⟩ := Option.map_eq_some_iff.mp e
    rfl
  have bounds : (s.boundaries.map fun b => b.1.w.id).Sublist ((withPrev none s.lines).map fun b => b.1.w.id) := by
    refine map_filterMap_sublist _ _ _ (fun a b e => ?_) _
    obtain ⟨p, -, rfl⟩ := Option.map_eq_some_iff.mp e
    rfl
  have all : (withPrev none s.lines).map (fun b => b.1.w.id) = s.lines.map fun l => l.w.id := by
    exact (List.map_map (g := fun l : Line => l.w.id) (f := Prod.fst)).symm.trans (congrArg _ (map_withPrev none s.lines))
  exact h.sublist ((all ▸ bounds).trans lines)

theorem gradeChanges_iff {prev : PrevFigures} {l : Line} :
    s.gradeChanges prev l x = true ↔ (s.streamProfile x).active = true ∧ prev.grades.get x ≠ l.r.fig.grades.get x := by
  simp [State.gradeChanges]

theorem withdrawTarget_none (h : (s.stream x).slot = none) : s.withdrawTarget x = s := by
  unfold State.withdrawTarget
  rw [h]

theorem withdrawTarget_unplanned (h : (s.stream x).slot = some v) (k : v.state ≠ .planned) : s.withdrawTarget x = s := by
  unfold State.withdrawTarget
  rw [h]
  exact if_neg (by simp [k])

/-- The boundary whose target a slot holds, where the window lists it. -/
def State.boundaryHeld (s : State) (v : Slot) : Option (Line × PrevFigures) :=
  s.boundaries.find? fun b => some b.1.w.id == v.target?

theorem withdrawTarget_unlisted (h : (s.stream x).slot = some v) (k : s.boundaryHeld v = none) : s.withdrawTarget x = s := by
  unfold State.boundaryHeld at k
  unfold State.withdrawTarget
  rw [h]
  dsimp only
  split
  · rw [k]
  · rfl

theorem withdrawTarget_listed {l : Line} {prev : PrevFigures} (h : (s.stream x).slot = some v) (planned : v.state = .planned)
    (k : s.boundaryHeld v = some (l, prev)) :
    s.withdrawTarget x = if s.gradeChanges prev l x = true then s else (s.setSlot x none).push [.slotFree x] := by
  unfold State.boundaryHeld at k
  unfold State.withdrawTarget
  rw [h]
  dsimp only
  rw [if_pos (by simp [planned]), k]

theorem boundaryHeld_none_of_target (h : v.target? = none) : s.boundaryHeld v = none :=
  List.find?_eq_none.mpr fun b _ => by simp [h]

theorem boundaryHeld_none (h : ∀ l prev, (l, prev) ∈ s.boundaries → v.boundary ≠ some l.w.id) : s.boundaryHeld v = none := by
  refine List.find?_eq_none.mpr fun b mem => ?_
  intro same
  exact h b.1 b.2 mem (target?_eq_some.mp (eq_of_beq same).symm).2.2

theorem boundaryHeld_some {l : Line} {prev : PrevFigures} (distinct : s.idsDistinct) (mem : (l, prev) ∈ s.boundaries)
    (target : v.target? = some l.w.id) : s.boundaryHeld v = some (l, prev) := by
  cases found : s.boundaryHeld v with
  | none => exact absurd (by simp [target]) (List.find?_eq_none.mp found (l, prev) mem)
  | some b =>
    have same := List.find?_some found
    rw [target] at same
    have id : b.1.w.id = l.w.id := by simpa using same
    exact congrArg some (List.inj_on_of_nodup_map (boundaries_distinct distinct.window) (List.mem_of_find?_eq_some found) mem id)

/-- A planned grade target withdrawn, or kept (R84). -/
theorem withdrawTarget_byGrades : Rule.TargetWithdrawal := by
  intro x s
  refine ⟨withdrawTarget_none, fun v slot => ⟨fun other => ?_, fun unlisted => ?_, ?_⟩⟩
  · by_cases planned : v.state = .planned
    · refine withdrawTarget_unlisted slot (boundaryHeld_none_of_target ?_)
      cases e : v.target? with
      | none => rfl
      | some id =>
        obtain ⟨kind, held, -⟩ := target?_eq_some.mp e
        rcases other with h | h | h
        · exact absurd planned h
        · exact absurd kind h
        · rw [h] at held
          cases held
    · exact withdrawTarget_unplanned slot planned
  · exact withdrawTarget_unlisted slot (boundaryHeld_none unlisted)
  · intro l prev distinct mem boundary planned kind held
    have listed := withdrawTarget_listed slot planned
      (boundaryHeld_some distinct mem (target?_eq_some.mpr ⟨kind, held, boundary⟩))
    refine ⟨fun differs => ?_, fun same => ?_⟩
    · exact listed.trans (if_pos (gradeChanges_iff.mpr differs))
    · exact listed.trans (if_neg (mt gradeChanges_iff.mp same))

/-! ### The offer (R82, R108) -/

theorem modifyWindow_windowOrder? (s : State) (k id : Nat) {f : WindowOrder → WindowOrder} (h : ∀ w, (f w).id = w.id) :
    (s.modifyWindow k f).windowOrder? id = (s.windowOrder? id).map fun w => if w.id == k then f w else w := by
  have same : ∀ w : WindowOrder, (if w.id == k then f w else w).id = w.id := by
    intro w
    split
    · exact h w
    · rfl
  unfold State.windowOrder? State.modifyWindow
  rw [List.find?_map]
  congr 2
  funext w
  rw [Function.comp_apply, same]

/-- The targets of some boundaries marked served, for those that wait in `s`. -/
def State.serveTargets (s : State) (x : Stream) (bs : List (Line × PrevFigures)) (u : State) : State :=
  bs.foldl (fun u b => if s.targetWaits b.2 b.1 x then u.spendTarget b.1.w.id x else u) u

/-- Only the planner differs between two states. -/
def PlanAlone (s t : State) : Prop := { t with plan := s.plan } = s

theorem PlanAlone.trans (h : PlanAlone s t) (k : PlanAlone t u) : PlanAlone s u := by
  unfold PlanAlone at *
  rw [← h, ← k]

theorem PlanAlone.splice (h : PlanAlone s t) : t.splice = s.splice := by
  unfold PlanAlone at h
  rw [← h]

theorem PlanAlone.profile (h : PlanAlone s t) : t.profile = s.profile := by
  unfold PlanAlone at h
  rw [← h]

theorem PlanAlone.targetFire (h : PlanAlone s t) (x : Stream) (b : Pos) : t.targetFire x b = s.targetFire x b := by
  unfold PlanAlone at h
  rw [← h]
  rfl

theorem PlanAlone.stream (h : PlanAlone s t) (x : Stream) : t.stream x = s.stream x := by
  unfold State.stream
  rw [h.splice]

theorem PlanAlone.targetWaits (h : PlanAlone s t) (prev : PrevFigures) (l : Line) (x : Stream) :
    t.targetWaits prev l x = s.targetWaits prev l x := by
  unfold State.targetWaits State.targetInSlot State.gradeChanges State.streamProfile
  rw [h.stream, h.profile]

theorem serveTargets_planAlone (s : State) (x : Stream) (bs : List (Line × PrevFigures)) (u : State) :
    PlanAlone u (s.serveTargets x bs u) := by
  induction bs generalizing u with
  | nil => rfl
  | cons b bs ih =>
    refine PlanAlone.trans ?_ (ih _)
    dsimp only
    split
    · rfl
    · rfl

/-- An order with a stream's target marked served. -/
def WindowOrder.spent (w : WindowOrder) (x : Stream) : WindowOrder := { w with targetSpent := w.targetSpent.set x true }

theorem WindowOrder.spent_spent (w : WindowOrder) (x : Stream) : (w.spent x).spent x = w.spent x := by
  unfold WindowOrder.spent
  cases x <;> rfl

theorem spendTarget_windowOrder? (s : State) (k id : Nat) (x : Stream) :
    (s.spendTarget k x).windowOrder? id = (s.windowOrder? id).map fun w => if w.id == k then w.spent x else w :=
  modifyWindow_windowOrder? s k id (f := fun w => w.spent x) fun _ => rfl

/-- One boundary served, or left: the window's order of an id. -/
theorem serveOne_windowOrder? {b : Line × PrevFigures} {id : Nat} {w : WindowOrder} (h : u.windowOrder? id = some w) :
    (if s.targetWaits b.2 b.1 x = true then u.spendTarget b.1.w.id x else u).windowOrder? id =
      some (if s.targetWaits b.2 b.1 x = true ∧ b.1.w.id = id then w.spent x else w) := by
  have same := windowOrder?_id h
  by_cases waits : s.targetWaits b.2 b.1 x = true
  · rw [if_pos waits, spendTarget_windowOrder?, h, Option.map_some]
    by_cases k : b.1.w.id = id
    · rw [if_pos (⟨waits, k⟩ : _ ∧ _), if_pos (by rw [same, k, beq_self_eq_true])]
    · have other : ¬ (s.targetWaits b.2 b.1 x = true ∧ b.1.w.id = id) := fun e => k e.2
      rw [if_neg other, if_neg (by simpa [same] using Ne.symm k)]
  · rw [if_neg waits, if_neg (fun e => waits e.1), h]

/-- The window behind the targets served: an order whose boundary is among them has its target spent, and no other changes. -/
theorem serveTargets_windowOrder? (s : State) (x : Stream) (bs : List (Line × PrevFigures)) (u : State) (id : Nat)
    (w : WindowOrder) (h : u.windowOrder? id = some w) : ∃ w', (s.serveTargets x bs u).windowOrder? id = some w' ∧
      ((∃ b ∈ bs, s.targetWaits b.2 b.1 x = true ∧ b.1.w.id = id) → w' = w.spent x) ∧
      ((∀ b ∈ bs, s.targetWaits b.2 b.1 x = true → b.1.w.id ≠ id) → w' = w) := by
  induction bs generalizing u w with
  | nil => exact ⟨w, h, fun some_ => absurd some_ (by simp), fun _ => rfl⟩
  | cons b bs ih =>
    obtain ⟨w', found, spent, kept⟩ := ih _ _ (serveOne_windowOrder? (s := s) (x := x) (b := b) h)
    refine ⟨w', found, ?_, fun none_ => ?_⟩
    · rintro ⟨c, mem, waits, same⟩
      by_cases behind : ∃ b ∈ bs, s.targetWaits b.2 b.1 x = true ∧ b.1.w.id = id
      · rw [spent behind]
        split
        · exact w.spent_spent x
        · rfl
      · rcases List.mem_cons.mp mem with rfl | mem
        · rw [kept fun d hd hw e => behind ⟨d, hd, hw, e⟩, if_pos ⟨waits, same⟩]
        · exact absurd ⟨c, mem, waits, same⟩ behind
    · rw [kept fun d hd => none_ d (List.mem_cons_of_mem _ hd), if_neg fun e => none_ b List.mem_cons_self e.1 e.2]

/-- Boundaries whose waiting targets run already are served and passed over. -/
theorem offerFrom_serves (bs rest : List (Line × PrevFigures)) (alone : PlanAlone s u)
    (runs : ∀ b ∈ bs, s.targetWaits b.2 b.1 x = true → b.1.r.fig.grades.get x = (s.stream x).runningGrade) :
    State.offerFrom x (bs ++ rest) u = State.offerFrom x rest (s.serveTargets x bs u) := by
  induction bs generalizing u with
  | nil => rfl
  | cons b bs ih =>
    have passed : State.offerFrom x (b :: bs ++ rest) u =
        State.offerFrom x (bs ++ rest) (if s.targetWaits b.2 b.1 x then u.spendTarget b.1.w.id x else u) := by
      rw [List.cons_append, State.offerFrom, alone.targetWaits]
      split
      · next waits => exact if_pos (by rw [alone.stream]; exact runs b List.mem_cons_self waits)
      · rfl
    rw [passed]
    refine ih (alone.trans ?_) fun c hc => runs c (List.mem_cons_of_mem _ hc)
    split
    · rfl
    · rfl

/-- The first waiting target of another grade is handed in with its figures (R81, R82). -/
theorem offerFrom_hands {b : Line × PrevFigures} {rest : List (Line × PrevFigures)} (alone : PlanAlone s u)
    (waits : s.targetWaits b.2 b.1 x = true) (other : b.1.r.fig.grades.get x ≠ (s.stream x).runningGrade) :
    State.offerFrom x (b :: rest) u = u.setSlot x (some
      { state := .planned, kind := .grade, boundary := some b.1.w.id, boundaryPos := b.1.start, grade := b.1.r.fig.grades.get x
        firePoint := s.targetFire x b.1.start
        commitPoint := s.targetFire x b.1.start - (s.streamProfile x).commitLead }) := by
  rw [State.offerFrom, alone.targetWaits, if_pos waits]
  dsimp only
  rw [alone.stream, if_neg other, alone.targetFire, State.streamProfile, alone.profile]
  rfl

theorem offerFrom_frame (bs : List (Line × PrevFigures)) (u : State) :
    { State.offerFrom x bs u with plan := u.plan, splice := u.splice } = u := by
  induction bs generalizing u with
  | nil => rfl
  | cons b bs ih =>
    unfold State.offerFrom
    dsimp only
    split
    · split
      · exact congrArg (fun v : State => { v with plan := u.plan }) (ih (u.spendTarget b.1.w.id x))
      · rfl
    · exact ih u

theorem offerTargets_closed (h : s.part = .setup ∨ (s.stream x).slot ≠ none ∨ (s.stream x).broken = true) :
    s.offerTargets x = s := by
  unfold State.offerTargets
  refine if_neg ?_
  rcases h with h | h | h
  · simp [State.tracking, h]
  · simp [h]
  · simp [h]

theorem offerTargets_open (tracking : s.part = .tracking) (free : (s.stream x).slot = none) (intact : (s.stream x).broken = false) :
    s.offerTargets x = State.offerFrom x s.boundaries s := by
  unfold State.offerTargets
  exact if_pos (by simp [State.tracking, tracking, free, intact])

/-- With its slot FREE, the boundaries whose targets wait for a stream are those of R82 that are not served or spent. -/
theorem targetWaits_free (free : (s.stream x).slot = none) (b : Line × PrevFigures) :
    s.targetWaits b.2 b.1 x = true ↔ (s.streamProfile x).active = true ∧ b.2.grades.get x ≠ b.1.r.fig.grades.get x ∧
      b.1.w.targetSpent.get x = false := by
  rw [targetWaits_iff]
  refine and_iff_left ?_
  unfold State.targetInSlot
  rw [free]
  rfl

/-- The waiting targets of a stream offered to it (R82, R108, R126). -/
theorem offerTargets_offers : Rule.TargetOffer := by
  intro x s
  refine ⟨offerTargets_closed, fun tracking free intact => ?_⟩
  have waits := targetWaits_free (s := s) (x := x) free
  rw [offerTargets_open tracking free intact]
  refine ⟨offerFrom_frame s.boundaries s, fun runs => ?_, fun before b after split waitsB other runs => ?_⟩
  · have served := offerFrom_serves (s := s) (u := s) s.boundaries [] rfl fun b hb w => runs b hb ((waits b).mp w)
    rw [List.append_nil] at served
    rw [served]
    refine ⟨(serveTargets_planAlone s x s.boundaries s).splice, fun id w hw => ?_⟩
    obtain ⟨w', found, spent, kept⟩ := serveTargets_windowOrder? s x s.boundaries s id w hw
    simp only [waits] at spent kept
    exact ⟨w', found, spent, kept⟩
  · have alone := serveTargets_planAlone s x before s
    rw [split, offerFrom_serves (s := s) (u := s) before (b :: after) rfl fun c hc w => runs c hc ((waits c).mp w),
      offerFrom_hands alone ((waits b).mpr waitsB) other]
    refine ⟨fun id w hw => ?_, ?_⟩
    · obtain ⟨w', found, spent, kept⟩ := serveTargets_windowOrder? s x before s id w hw
      simp only [waits] at spent kept
      exact ⟨w', found, spent, kept⟩
    · unfold State.setSlot State.setStream
      rw [alone.stream, alone.splice]
      rfl

/-- An offer makes no act due. -/
theorem offerTargets_work (s : State) (x : Stream) : (s.offerTargets x).work = s.work := by
  unfold State.offerTargets
  split
  · exact (congrArg State.work (offerFrom_frame s.boundaries s) :)
  · rfl

/-- What follows when a slot becomes FREE (R108). -/
theorem slotFreeAct_due : Rule.SlotBecomesFree := by
  intro x s
  have work := offerTargets_work s x
  refine ⟨congrArg (· ++ _) work, ?_⟩
  rw [← work]
  rfl

end Sys2Proof.Machine
end

section
/-! PROOF. Arms and streams (R97, R98, R106): what a stored arm record leaves, and what lives on in the state that the acts
leave; marks that enter a lane (R29). -/

namespace Sys2Proof.Machine

variable {s t u : State} {x y : Stream} {own other : Arm}

/-! ### Arm records -/

theorem stream_setArm (s : State) (x : Stream) (arm : Arm) (r : ArmRec) : (s.setArm x arm r).stream x = { s.stream x with
    arms := (s.stream x).arms.set arm r
    writePending := (s.stream x).writePending ||
      (((s.arm x arm).driveEnable != r.driveEnable || (s.arm x arm).lamp != r.lamp) && (s.streamProfile x).active) } :=
  State.stream_setStream _ _ _

theorem stream_setArm_other (s : State) (arm : Arm) (r : ArmRec) (h : y ≠ x) : (s.setArm x arm r).stream y = s.stream y :=
  (State.stream_setStream_ite _ _ _ _).trans (if_neg h)

theorem arm_setArm (s : State) (x : Stream) (arm : Arm) (r : ArmRec) : (s.setArm x arm r).arm x arm = r := by
  unfold State.arm
  rw [stream_setArm]
  exact PerArm.get_set_same _ _ _

theorem arm_setArm_other (s : State) (x : Stream) (r : ArmRec) (h : other ≠ own) :
    (s.setArm x own r).arm x other = s.arm x other := by
  unfold State.arm
  rw [stream_setArm]
  exact PerArm.get_set_other _ _ _ _ h

theorem arm_setStream (s : State) (x : Stream) (r : StreamRec) (arm : Arm) : (s.setStream x r).arm x arm = r.arms.get arm := by
  unfold State.arm
  rw [State.stream_setStream]

/-- Only the splice block differs between two states. -/
def SpliceAlone (s t : State) : Prop := { t with splice := s.splice } = s

theorem SpliceAlone.refl (s : State) : SpliceAlone s s := rfl

theorem SpliceAlone.trans (h : SpliceAlone s t) (k : SpliceAlone t u) : SpliceAlone s u := by
  unfold SpliceAlone at *
  rw [← h, ← k]

theorem SpliceAlone.setStream (h : SpliceAlone s t) (x : Stream) (r : StreamRec) : SpliceAlone s (t.setStream x r) := h
theorem SpliceAlone.setArm (h : SpliceAlone s t) (x : Stream) (arm : Arm) (r : ArmRec) : SpliceAlone s (t.setArm x arm r) := h

/-! ### What the acts leave of a stream -/

theorem ArmRec.stand_eq {r v : ArmRec} (h : r.stand = v.stand) :
    r.state = v.state ∧ r.declaration = v.declaration ∧ r.startCount = v.startCount :=
  ⟨congrArg (·.1) h, congrArg (·.2.1) h, congrArg (·.2.2.1) h⟩

theorem Untouched.arm (h : Untouched s t) (x : Stream) (arm : Arm) : (t.arm x arm).stand = (s.arm x arm).stand := by
  cases arm
  · exact congrArg StreamStand.armA (h.stands x)
  · exact congrArg StreamStand.armB (h.stands x)

theorem Untouched.running (h : Untouched s t) (x : Stream) : (t.stream x).running = (s.stream x).running :=
  congrArg StreamStand.running (h.stands x)

theorem Untouched.runningGrade (h : Untouched s t) (x : Stream) : (t.stream x).runningGrade = (s.stream x).runningGrade :=
  congrArg StreamStand.runningGrade (h.stands x)

theorem Untouched.broken (h : Untouched s t) (x : Stream) : (t.stream x).broken = (s.stream x).broken :=
  congrArg StreamStand.broken (h.stands x)

theorem MapAlone.splice (h : MapAlone s t) : t.splice = s.splice := by
  unfold MapAlone at h
  rw [← h]

theorem MapAlone.profile (h : MapAlone s t) : t.profile = s.profile := by
  unfold MapAlone at h
  rw [← h]

theorem MapAlone.lmu (h : MapAlone s t) : t.lmu = s.lmu := by
  unfold MapAlone at h
  rw [← h]

theorem stream_of_splice (h : t.splice = s.splice) (x : Stream) : t.stream x = s.stream x := by
  unfold State.stream
  rw [h]

theorem arm_of_splice (h : t.splice = s.splice) (x : Stream) (arm : Arm) : t.arm x arm = s.arm x arm := by
  unfold State.arm
  rw [stream_of_splice h]

/-! ### Seam places -/

theorem seamExtent_congr (h : t.profile = s.profile) (p : Pos) (x : Stream) (f v : Bool) :
    t.seamExtent p x f v = s.seamExtent p x f v := by
  unfold State.seamExtent State.streamProfile State.laneProfile
  rw [h]

theorem seamOffset_congr (h : t.profile = s.profile) (k : t.map.lanes = s.map.lanes) (x : Stream) :
    t.seamOffset x = s.seamOffset x := by
  unfold State.seamOffset State.streamProfile State.lane
  rw [h, k]

/-! ### Marks that enter a lane (R29) -/

theorem mem_placeMark (m : LaneMark) (ms : List LaneMark) : m ∈ placeMark m ms := by
  induction ms with
  | nil => exact List.mem_cons_self
  | cons y ms ih =>
    unfold placeMark
    split
    · exact List.mem_cons_self
    · exact List.mem_cons_of_mem _ ih

/-- The acts that a spilt mark makes due: a recomputation where the mark's extent covers web, in TRACKING (R26). -/
theorem spillMark_work (s : State) (l : Lane) : ∃ n, (s.spillMark l).work = s.work ++ List.replicate n .recompute ∧
    (s.part = .setup ∨ (s.lane l).marks.length < 8 → n = 0) := by
  have limit : Config.marksMax = 8 := rfl
  unfold State.spillMark
  rw [limit]
  split
  · exact ⟨0, (List.append_nil _).symm, fun _ => rfl⟩
  · next full =>
    split
    · next o _ =>
      rw [insertExtent_work]
      by_cases h : s.part = .tracking ∧ (s.seamOf o (s.predicted o) .neither).covers = true
      · refine ⟨1, ?_, fun k => ?_⟩
        · rw [if_pos (by exact h)]
          rfl
        · rcases k with k | k
          · rw [k] at h
            cases h.1
          · exact absurd k full
      · refine ⟨0, ?_, fun _ => rfl⟩
        rw [if_neg (by exact h)]
        rfl
    · exact ⟨0, (List.append_nil _).symm, fun _ => rfl⟩

theorem spillMark_mapAlone (s : State) (l : Lane) : MapAlone s (s.spillMark l) := by
  unfold State.spillMark
  split
  · exact .refl s
  · split
    · exact MapAlone.trans (t := s.setMarks l _) rfl (insertExtent_frame _ _).1
    · exact .refl s

theorem enterMark_mapAlone (s : State) (l : Lane) (x : Stream) (arm : Arm) (n : Nat) (f v : Bool) :
    MapAlone s (s.enterMark l x arm n f v) := by
  have entered (r : LaneRec) : MapAlone (s.spillMark l) (((s.spillMark l).setLane l r).push [.windowTest l]) := rfl
  exact ((spillMark_mapAlone s l).trans (entered _)).trans (replan_mapAlone _)

/-- A mark that has entered its lane stands in the lane's track. -/
theorem enterMark_mem (s : State) (l : Lane) (x : Stream) (arm : Arm) (n : Nat) (f v : Bool) :
    ∃ m ∈ ((s.enterMark l x arm n f v).lane l).marks,
      m.stream = x ∧ m.arm = arm ∧ m.count = n ∧ m.fast = f ∧ m.unsynced = v := by
  let mark : LaneMark := ⟨x, arm, n, f, v, ((s.spillMark l).lane l).nextAge⟩
  have placed : ((s.enterMark l x arm n f v).lane l).marks = placeMark mark ((s.spillMark l).lane l).marks := by
    unfold State.enterMark State.lane
    rw [replan_map]
    exact congrArg LaneRec.marks (PerLane.get_set_same _ _ _)
  exact ⟨mark, placed ▸ mem_placeMark mark _, rfl, rfl, rfl, rfl, rfl⟩

/-- The acts due behind a mark's entry: the window test, the recomputation, and before them what a spilt mark makes due. -/
theorem enterMark_work (s : State) (l : Lane) (x : Stream) (arm : Arm) (n : Nat) (f v : Bool) :
    ∃ k, (s.enterMark l x arm n f v).work = s.work ++ (List.replicate k .recompute ++ .windowTest l ::
        if s.part = .tracking then [.recompute] else []) ∧
      (s.part = .setup ∨ (s.lane l).marks.length < 8 → k = 0) := by
  obtain ⟨k, work, none_⟩ := spillMark_work s l
  refine ⟨k, ?_, none_⟩
  have part : (s.spillMark l).part = s.part := (spillMark_mapAlone s l).part
  unfold State.enterMark
  rw [replan_work]
  change (s.spillMark l).work ++ [.windowTest l] ++ (if (s.spillMark l).part = .tracking then [.recompute] else []) = _
  rw [work, part]
  simp only [List.append_assoc, List.singleton_append]

end Sys2Proof.Machine
end

section
/-! PROOF. A done pulse that completes a FIRED splice (R115), and O23. -/

namespace Sys2Proof.Machine

variable {s t u : State} {x : Stream} {arm : Arm} {v : Slot}

/-! ### The parts of a completed splice (R115, steps 1 to 4) -/

/-- The running arm stopped, where it is not the chosen one. -/
def State.stopOld (s : State) (x : Stream) (arm : Arm) : State :=
  match (s.stream x).running with
  | some r => if r = arm then s else s.setArm x r (s.arm x r).stop
  | none => s

/-- The chosen arm runs from the fire count, and the slot is FREE. -/
def State.spliced (s : State) (x : Stream) (arm : Arm) (count : Nat) : State :=
  let ran := (s.stopOld x arm).setArm x arm (((s.stopOld x arm).arm x arm).run count)
  ran.setStream x { ran.stream x with
    running := some arm, runningGrade := ((ran.arm x arm).declaration.map Declaration.grade).getD 0, slot := none }

/-- The target of a slot marked served. -/
def State.servedFor (s : State) (x : Stream) (v : Slot) : State := (v.target?.map fun id => s.spendTarget id x).getD s

/-- The seam of a splice marked in its lane's track, or, for S5, in the main track (R29, R115). -/
def State.seamMarked (s : State) (x : Stream) (arm : Arm) (v : Slot) : State :=
  match x.lane with
  | some l => s.enterMark l x arm v.fireCount v.fast v.unsynced
  | none =>
    let r := s.seamExtent ((v.fireCount : Int) + s.seamOffset x) x v.fast false
    s.insertExtent (.closed r.1 r.2 .seam (some ⟨x, arm, .neither, v.fast, false⟩))

theorem completeSplice_eq (chosen : v.chosen = some arm) : s.completeSplice x v =
    (((((s.spliced x arm v.fireCount).servedFor x v).seamMarked x arm v).raise .spliceDone).push
      [.slotFree x, .deferred x, .runout x]) := by
  unfold State.completeSplice
  rw [chosen]
  rfl

/-! ### The arms -/

theorem stopOld_spliceAlone (s : State) (x : Stream) (arm : Arm) : SpliceAlone s (s.stopOld x arm) := by
  unfold State.stopOld
  repeat' split
  all_goals rfl

theorem stopOld_chosen (s : State) (x : Stream) (arm : Arm) : (s.stopOld x arm).arm x arm = s.arm x arm := by
  unfold State.stopOld
  repeat' split
  · rfl
  · next other => exact arm_setArm_other _ _ _ (Ne.symm other)
  · rfl

theorem stopOld_running {o : Arm} (running : (s.stream x).running = some o) (other : o ≠ arm) :
    (s.stopOld x arm).arm x o = (s.arm x o).stop := by
  unfold State.stopOld
  rw [running]
  dsimp only
  rw [if_neg other]
  exact arm_setArm _ _ _ _

theorem stopOld_stream_other (s : State) (arm : Arm) {y : Stream} (h : y ≠ x) : (s.stopOld x arm).stream y = s.stream y := by
  unfold State.stopOld
  repeat' split
  · rfl
  · exact stream_setArm_other _ _ _ h
  · rfl

theorem spliced_spliceAlone (s : State) (x : Stream) (arm : Arm) (n : Nat) : SpliceAlone s (s.spliced x arm n) :=
  ((stopOld_spliceAlone s x arm).setArm x arm _).setStream x _

theorem ArmRec.run_facts (r : ArmRec) (n : Nat) : (r.run n).state = .running ∧ (r.run n).startCount = some n ∧
    (r.run n).declaration = r.declaration ∧ (r.run n).driveEnable = true := by
  unfold ArmRec.run ArmRec.enable
  refine ⟨rfl, rfl, ?_, ?_⟩
  · split <;> rfl
  · split
    · next h => exact h
    · rfl

theorem spliced_stream (s : State) (x : Stream) (arm : Arm) (n : Nat) :
    ((s.spliced x arm n).stream x).running = some arm ∧
    ((s.spliced x arm n).stream x).runningGrade = ((s.arm x arm).declaration.map Declaration.grade).getD 0 ∧
    ((s.spliced x arm n).stream x).slot = none := by
  unfold State.spliced
  rw [State.stream_setStream, arm_setArm, stopOld_chosen]
  dsimp only
  rw [(ArmRec.run_facts (s.arm x arm) n).2.2.1]
  exact ⟨rfl, rfl, rfl⟩

theorem spliced_stream_other (s : State) (arm : Arm) (n : Nat) {y : Stream} (h : y ≠ x) :
    (s.spliced x arm n).stream y = s.stream y := by
  unfold State.spliced
  rw [State.stream_setStream_ite, if_neg h, stream_setArm_other _ _ _ h, stopOld_stream_other s arm h]

/-- The chosen arm runs; its declaration stays (R115). -/
theorem spliced_chosen (s : State) (x : Stream) (arm : Arm) (n : Nat) : (s.spliced x arm n).arm x arm = (s.arm x arm).run n := by
  unfold State.spliced
  rw [arm_setStream]
  change ((s.stopOld x arm).setArm x arm _).arm x arm = _
  rw [arm_setArm, stopOld_chosen]

theorem spliced_old {o : Arm} (n : Nat) (running : (s.stream x).running = some o) (other : o ≠ arm) :
    (s.spliced x arm n).arm x o = (s.arm x o).stop := by
  unfold State.spliced
  rw [arm_setStream]
  change ((s.stopOld x arm).setArm x arm _).arm x o = _
  rw [arm_setArm_other _ _ _ other, stopOld_running running other]

/-! ### The seam (R29, R115 step 4) -/

theorem servedFor_planAlone (s : State) (x : Stream) (v : Slot) : PlanAlone s (s.servedFor x v) := by
  unfold State.servedFor
  cases v.target? with
  | none => rfl
  | some id => rfl

theorem seamMarked_mapAlone (s : State) (x : Stream) (arm : Arm) (v : Slot) : MapAlone s (s.seamMarked x arm v) := by
  unfold State.seamMarked
  split
  · exact enterMark_mapAlone _ _ _ _ _ _ _
  · exact (insertExtent_frame _ _).1

theorem Untouched.seamMarked (h : Untouched s t) (x : Stream) (arm : Arm) (v : Slot) : Untouched s (t.seamMarked x arm v) := by
  unfold State.seamMarked
  split
  · exact h.enterMark _ _ _ _ _ _
  · exact h.insertExtent _

theorem seamMarked_lane {l : Lane} (lane : x.lane = some l) (s : State) (arm : Arm) (v : Slot) :
    s.seamMarked x arm v = s.enterMark l x arm v.fireCount v.fast v.unsynced := by
  unfold State.seamMarked
  rw [lane]

theorem seamMarked_main (lane : x.lane = none) (s : State) (arm : Arm) (v : Slot) :
    let r := s.seamExtent ((v.fireCount : Int) + s.seamOffset x) x v.fast false
    s.seamMarked x arm v = s.insertExtent (.closed r.1 r.2 .seam (some ⟨x, arm, .neither, v.fast, false⟩)) := by
  unfold State.seamMarked
  rw [lane]

/-! ### The state before the acts that follow -/

/-- A splice completed, up to its seam. -/
def State.completed (s : State) (x : Stream) (arm : Arm) (v : Slot) : State :=
  ((s.spliced x arm v.fireCount).servedFor x v).seamMarked x arm v

theorem served_frame (s : State) (x : Stream) (arm : Arm) (v : Slot) :
    { (s.spliced x arm v.fireCount).servedFor x v with plan := s.plan, splice := s.splice } = s := by
  have plan := servedFor_planAlone (s.spliced x arm v.fireCount) x v
  have splice := spliced_spliceAlone s x arm v.fireCount
  unfold PlanAlone at plan
  unfold SpliceAlone at splice
  calc { (s.spliced x arm v.fireCount).servedFor x v with plan := s.plan, splice := s.splice }
      = { { (s.spliced x arm v.fireCount).servedFor x v with plan := (s.spliced x arm v.fireCount).plan } with
          plan := s.plan, splice := s.splice } := rfl
    _ = { { s.spliced x arm v.fireCount with splice := s.splice } with plan := s.plan } := by rw [plan]
    _ = s := by rw [splice]

theorem completed_splice (s : State) (x : Stream) (arm : Arm) (v : Slot) :
    (s.completed x arm v).splice = (s.spliced x arm v.fireCount).splice :=
  (seamMarked_mapAlone _ x arm v).splice.trans (servedFor_planAlone _ x v).splice

/-- The seam of S5 covers its place in the main track. -/
theorem completed_covers (lane : x.lane = none) (s : State) (arm : Arm) (v : Slot) :
    let r := s.seamExtent ((v.fireCount : Int) + s.seamOffset x) x v.fast false
    (s.completed x arm v).covers .seam r.1 r.2 := by
  have frame := served_frame s x arm v
  have profile : ((s.spliced x arm v.fireCount).servedFor x v).profile = s.profile := (congrArg State.profile frame :)
  have lanes : ((s.spliced x arm v.fireCount).servedFor x v).map.lanes = s.map.lanes := (congrArg (·.map.lanes) frame :)
  unfold State.completed
  rw [seamMarked_main lane, seamExtent_congr profile, seamOffset_congr profile lanes]
  exact insertExtent_closed_covers _ _ _ _ _

theorem completed_mark {l : Lane} (lane : x.lane = some l) (s : State) (arm : Arm) (v : Slot) :
    ∃ m ∈ ((s.completed x arm v).lane l).marks,
      m.stream = x ∧ m.arm = arm ∧ m.count = v.fireCount ∧ m.fast = v.fast ∧ m.unsynced = v.unsynced := by
  unfold State.completed
  rw [seamMarked_lane lane]
  exact enterMark_mem _ _ _ _ _ _ _

theorem completed_work_lane {l : Lane} (lane : x.lane = some l) (s : State) (arm : Arm) (v : Slot) : ∃ n,
    (s.completed x arm v).work = s.work ++ (List.replicate n .recompute ++ .windowTest l ::
      if s.part = .tracking then [.recompute] else []) ∧
    (s.part = .setup ∨ (s.lane l).marks.length < 8 → n = 0) := by
  have frame := served_frame s x arm v
  have part : ((s.spliced x arm v.fireCount).servedFor x v).part = s.part := (congrArg State.part frame :)
  have work : ((s.spliced x arm v.fireCount).servedFor x v).work = s.work := (congrArg State.work frame :)
  have marks : ((s.spliced x arm v.fireCount).servedFor x v).lane l = s.lane l := (congrArg (·.lane l) frame :)
  obtain ⟨n, due, none_⟩ :=
    enterMark_work ((s.spliced x arm v.fireCount).servedFor x v) l x arm v.fireCount v.fast v.unsynced
  unfold State.completed
  rw [seamMarked_lane lane]
  rw [work, part] at due
  rw [part, marks] at none_
  exact ⟨n, due, none_⟩

/-- A place in the track covers web exactly where it ends behind its start. -/
theorem seamPlace_covers (s : State) (p : Pos) (x : Stream) (f w : Bool) (c : Cause) (part : Option SeamPart) :
    (Extent.closed (s.seamExtent p x f w).1 (s.seamExtent p x f w).2 c part).covers = true ↔
      (s.seamExtent p x f w).1 < (s.seamExtent p x f w).2 := by
  rw [covers_iff]
  unfold Extent.closed
  rw [seamStart_eq]
  exact ⟨fun h => h _ rfl, fun h e k => by cases k; exact h⟩

theorem completed_work_main (lane : x.lane = none) (s : State) (arm : Arm) (v : Slot) :
    let r := s.seamExtent ((v.fireCount : Int) + s.seamOffset x) x v.fast false
    (s.completed x arm v).work = s.work ++ if s.part = .tracking ∧ r.1 < r.2 then [.recompute] else [] := by
  have frame := served_frame s x arm v
  have part : ((s.spliced x arm v.fireCount).servedFor x v).part = s.part := (congrArg State.part frame :)
  have work : ((s.spliced x arm v.fireCount).servedFor x v).work = s.work := (congrArg State.work frame :)
  have profile : ((s.spliced x arm v.fireCount).servedFor x v).profile = s.profile := (congrArg State.profile frame :)
  have lanes : ((s.spliced x arm v.fireCount).servedFor x v).map.lanes = s.map.lanes := (congrArg (·.map.lanes) frame :)
  unfold State.completed
  rw [seamMarked_main lane, insertExtent_work, seamExtent_congr profile, seamOffset_congr profile lanes, work, part]
  simp only [seamPlace_covers]

theorem completed_ports (s : State) (x : Stream) (arm : Arm) (v : Slot) (q : Port) :
    PortGrows (s.port q) ((s.completed x arm v).port q) := by
  have frame := served_frame s x arm v
  have ports : ((s.spliced x arm v.fireCount).servedFor x v).port q = s.port q := (congrArg (·.port q) frame :)
  exact ports ▸ ((Untouched.refl _).seamMarked x arm v).ports q

theorem completed_figures (s : State) (x : Stream) (arm : Arm) (v : Slot) :
    (s.completed x arm v).lmu = s.lmu ∧ (s.completed x arm v).profile = s.profile := by
  have frame := served_frame s x arm v
  have marked := seamMarked_mapAlone ((s.spliced x arm v.fireCount).servedFor x v) x arm v
  exact ⟨marked.lmu.trans (congrArg State.lmu frame :), marked.profile.trans (congrArg State.profile frame :)⟩

/-- A done pulse of a FIRED splice: the splice completed, SPLICE_DONE raised, and the acts that follow. -/
theorem donePulse_completes (slot : (s.stream x).slot = some v) (fired : v.state = .fired) (chosen : v.chosen = some arm) :
    s.donePulse x = (((s.setStream x { s.stream x with doneSample := .high }).completed x arm v).raise .spliceDone).push
      [.slotFree x, .deferred x, .runout x] := by
  unfold State.donePulse State.doneAct
  rw [State.stream_setStream]
  dsimp only
  rw [slot]
  dsimp only
  rw [if_pos (by rw [fired]; rfl), completeSplice_eq chosen]
  rfl

/-- An accepted done pulse of a FIRED splice (R115). -/
theorem donePulse_accepted : Rule.DonePulse := by
  intro x arm v s running slot fired chosen
  let high := s.setStream x { s.stream x with doneSample := .high }
  have armOf : ∀ side, high.arm x side = s.arm x side := arm_setStream s x _
  have other : ∀ y, y ≠ x → high.stream y = s.stream y := fun y h => (State.stream_setStream_ite _ _ _ _).trans (if_neg h)
  let u := s.donePulse x
  have made : u = ((high.completed x arm v).raise .spliceDone).push [.slotFree x, .deferred x, .runout x] :=
    donePulse_completes slot fired chosen
  have splice : u.splice = (high.spliced x arm v.fireCount).splice := made ▸ completed_splice high x arm v
  have streams := stream_of_splice splice
  have arms := arm_of_splice splice
  have kept := settled_untouched u
  obtain ⟨runs, grade, free⟩ := spliced_stream high x arm v.fireCount
  obtain ⟨ranState, ranStart, ranDeclaration, ranDrive⟩ := ArmRec.run_facts (high.arm x arm) v.fireCount
  have chosenArm : u.arm x arm = (high.arm x arm).run v.fireCount := (arms x arm).trans (spliced_chosen high x arm v.fireCount)
  obtain ⟨finState, finDeclaration, finStart⟩ := ArmRec.stand_eq (kept.arm x arm)
  refine ⟨u, u.settled, exec_settles _ s nofun nofun running, rfl, ?_, ?_, ?_, ?_, ?_, fun o old different => ?_, ?_, ?_,
    fun l lane => ?_, fun lane q near far => ?_, ?_, fun classes => ?_, fun y side h => ?_, ?_, ?_⟩
  · rw [kept.running, streams, runs]
  · rw [kept.runningGrade, streams, grade, armOf]
  · rw [finState, chosenArm, ranState]
  · rw [finStart, chosenArm, ranStart]
  · rw [finDeclaration, chosenArm, ranDeclaration, armOf]
  · have before : (high.stream x).running = some o := (congrArg StreamRec.running (State.stream_setStream s x _)).trans old
    have stopped : u.arm x o = (high.arm x o).stop := (arms x o).trans (spliced_old v.fireCount before different)
    obtain ⟨state, declaration, -⟩ := ArmRec.stand_eq (kept.arm x o)
    rw [state, declaration, stopped, armOf]
    exact ⟨rfl, rfl, rfl⟩
  · rw [streams, free]
  · rw [chosenArm, ranDrive]
  · rw [made]
    exact completed_mark lane high arm v
  · rw [made]
    exact completed_covers lane high arm v q (by rwa [seamStart_eq]) far
  · rw [made]
    cases lane : x.lane with
    | some l =>
      obtain ⟨n, work, none_⟩ := completed_work_lane lane high arm v
      refine ⟨_, congrArg (· ++ _) work, ?_, nofun⟩
      rintro _ ⟨⟩
      exact ⟨n, rfl, none_⟩
    | none => exact ⟨_, congrArg (· ++ _) (completed_work_main lane high arm v), nofun, fun _ => rfl⟩
  · refine (kept.ports .wet).raw 1 ?_
    rw [made]
    refine raise_raw _ .spliceDone ?_
    change 1 < ((high.completed x arm v).port .wet).classes.length
    rw [(completed_ports high x arm v .wet).classCount, show high.port .wet = s.port .wet from rfl, classes]
    decide
  · rw [kept.arm y side, arms]
    unfold State.arm
    rw [spliced_stream_other high arm v.fireCount h, other y h]
  · rw [kept.lmu, made]
    exact (completed_figures high x arm v).1
  · rw [kept.profile, made]
    exact (completed_figures high x arm v).2

/-- Settles O23. -/
theorem donePulseCompletesTheSplice : Obligations.DonePulseCompletesTheSplice :=
  ⟨donePulse_accepted, slotFreeAct_due, refreshSlot_figures, withdrawTarget_byGrades, offerTargets_offers⟩

end Sys2Proof.Machine
end

section
/-! PROOF. Changes of the main track (R22 to R26): what they leave alone, the acts they make due, and the claims they bring. -/

namespace Sys2Proof.Machine

variable {s t u : State} {x y : Extent} {c : Claim}

/-! ### Frames -/

theorem expireExtents_mapAlone (s : State) : MapAlone s s.expireExtents := by
  unfold State.expireExtents
  split
  · exact MapAlone.trans (t := { s with map := { s.map with track := s.map.track.filter fun x => !s.expires x } }) rfl
      (replan_mapAlone _)
  · exact .refl s

/-- The track with a claim closed in the extents that hold it, and without those that then hold no web (R24). -/
def State.claimClosed (s : State) (c : Claim) (e : Pos) : State :=
  { s with map := { s.map with
    track := (s.map.track.map fun x => if x.claims.contains c then x.closeClaim c e else x).filter Extent.covers } }

theorem anyClaim_iff : (s.map.track.any fun x => x.claims.contains c) = true ↔ ∃ y ∈ s.map.track, c ∈ y.claims := by
  simp [List.any_eq_true]

theorem closeClaim_held (h : ∃ y ∈ s.map.track, c ∈ y.claims) (e : Pos) :
    s.closeClaim c e = (s.claimClosed c e).replan.expireExtents := if_pos (anyClaim_iff.mpr h)

theorem closeClaim_unheld (h : ¬ ∃ y ∈ s.map.track, c ∈ y.claims) (e : Pos) : s.closeClaim c e = s :=
  if_neg (mt anyClaim_iff.mp h)

theorem closeClaim_mapAlone (s : State) (c : Claim) (e : Pos) : MapAlone s (s.closeClaim c e) := by
  by_cases h : ∃ y ∈ s.map.track, c ∈ y.claims
  · rw [closeClaim_held h]
    have closed : MapAlone s (s.claimClosed c e) := rfl
    exact (closed.trans (replan_mapAlone _)).trans (expireExtents_mapAlone _)
  · rw [closeClaim_unheld h]
    exact .refl s

theorem insertExtent_mapAlone (s : State) (x : Extent) : MapAlone s (s.insertExtent x) := (insertExtent_frame s x).1

theorem raiseIf_mapAlone (s : State) (b : Bool) (n : Notice) : MapAlone s (s.raiseIf b n) := by
  rcases s.raiseIf_eq b n with e | e <;> rw [e] <;> rfl

theorem expireExtents_lanes (s : State) : s.expireExtents.map.lanes = s.map.lanes := by
  unfold State.expireExtents
  split
  · rw [replan_map]
  · rfl

theorem closeClaim_lanes (s : State) (c : Claim) (e : Pos) : (s.closeClaim c e).map.lanes = s.map.lanes := by
  by_cases h : ∃ y ∈ s.map.track, c ∈ y.claims
  · rw [closeClaim_held h, expireExtents_lanes, replan_map]
    rfl
  · rw [closeClaim_unheld h]

theorem MapAlone.knife (h : MapAlone s t) : t.knife = s.knife := by
  unfold MapAlone at h
  rw [← h]
  rfl

theorem MapAlone.streamPos (h : MapAlone s t) (x : Stream) : t.streamPos x = s.streamPos x := by
  unfold MapAlone at h
  rw [← h]
  rfl

theorem MapAlone.slitter (h : MapAlone s t) : t.slitter = s.slitter := by
  unfold MapAlone at h
  rw [← h]

/-! ### The acts due (R26) -/

/-- Between two states only recomputations have been made due, and those in TRACKING alone. -/
def Replans (s t : State) : Prop :=
  t.part = s.part ∧ ∃ n, t.work = s.work ++ List.replicate n .recompute ∧ (s.part = .setup → n = 0)

theorem Replans.refl (s : State) : Replans s s := ⟨rfl, 0, (List.append_nil _).symm, fun _ => rfl⟩

theorem Replans.trans (h : Replans s t) (k : Replans t u) : Replans s u := by
  obtain ⟨part, n, work, none_⟩ := h
  obtain ⟨part', m, work', none_'⟩ := k
  refine ⟨part'.trans part, n + m, ?_, fun e => ?_⟩
  · rw [work', work, List.append_assoc, List.replicate_append_replicate]
  · rw [none_ e, none_' (part.trans e)]

theorem Replans.of_work (part : t.part = s.part) (work : t.work = s.work) : Replans s t :=
  ⟨part, 0, work.trans (List.append_nil _).symm, fun _ => rfl⟩

theorem replan_replans (s : State) : Replans s s.replan := by
  cases e : s.part with
  | setup =>
    have same : s.replan = s := if_neg (by simp [State.tracking, e])
    rw [same]
    exact .refl s
  | tracking =>
    have due : s.replan = s.push [.recompute] := if_pos (by simp [State.tracking, e])
    rw [due]
    exact ⟨rfl, 1, rfl, fun k => by rw [e] at k; cases k⟩

/-- A recomputation handed on in TRACKING is due. -/
theorem replan_work_tracking (h : s.part = .tracking) : s.replan.work = s.work ++ [.recompute] := by
  rw [replan_work, if_pos h]

theorem insertExtent_part (s : State) (x : Extent) : (s.insertExtent x).part = s.part := (insertExtent_mapAlone s x).part

theorem insertExtent_replans (s : State) (x : Extent) : Replans s (s.insertExtent x) := by
  refine ⟨insertExtent_part s x, ?_⟩
  rw [insertExtent_work]
  split
  · next h => exact ⟨1, rfl, fun k => by rw [h.1] at k; cases k⟩
  · exact ⟨0, rfl, fun _ => rfl⟩

theorem expireExtents_replans (s : State) : Replans s s.expireExtents := by
  unfold State.expireExtents
  split
  · exact Replans.trans (t := { s with map := { s.map with track := s.map.track.filter fun x => !s.expires x } })
      (.of_work rfl rfl) (replan_replans _)
  · exact .refl s

theorem closeClaim_replans (s : State) (c : Claim) (e : Pos) : Replans s (s.closeClaim c e) := by
  by_cases h : ∃ y ∈ s.map.track, c ∈ y.claims
  · rw [closeClaim_held h]
    have closed : Replans s (s.claimClosed c e) := .of_work rfl rfl
    exact (closed.trans (replan_replans _)).trans (expireExtents_replans _)
  · rw [closeClaim_unheld h]
    exact .refl s

/-- A closed claim that an extent held is handed to the planner in TRACKING; one that none held makes nothing due (log 45). -/
theorem closeClaim_due (s : State) (c : Claim) (e : Pos) : ∃ n, (s.closeClaim c e).work = s.work ++ List.replicate n .recompute ∧
    (0 < n ↔ s.part = .tracking ∧ ∃ y ∈ s.map.track, c ∈ y.claims) := by
  by_cases h : ∃ y ∈ s.map.track, c ∈ y.claims
  · cases part : s.part with
    | setup =>
      obtain ⟨n, work, none_⟩ := (closeClaim_replans s c e).2
      refine ⟨n, work, ?_⟩
      rw [none_ part]
      simp
    | tracking =>
      obtain ⟨n, work, -⟩ := (expireExtents_replans (s.claimClosed c e).replan).2
      refine ⟨n + 1, ?_, iff_of_true (Nat.succ_pos n) ⟨rfl, h⟩⟩
      rw [closeClaim_held h, work, replan_work_tracking (s := s.claimClosed c e) part, List.append_assoc, List.replicate_succ]
      rfl
  · refine ⟨0, ?_, iff_of_false (Nat.lt_irrefl 0) fun k => h k.2⟩
    rw [closeClaim_unheld h]
    exact (List.append_nil _).symm

/-! ### Claims -/

theorem mergeInto_claim {track : List Extent} (h : y ∈ mergeInto track x) (m : c ∈ y.claims) :
    c ∈ x.claims ∨ ∃ z ∈ track, c ∈ z.claims := by
  rcases (mem_placeExtent _ _ _).mp h with rfl | h
  · obtain ⟨z, mem, held⟩ := (mergeExtents_isMergeOf x _).claim_mem m
    rcases List.mem_cons.mp mem with rfl | mem
    · exact .inl held
    · exact .inr ⟨z, (List.mem_filter.mp mem).1, held⟩
  · exact .inr ⟨y, (List.mem_filter.mp h).1, m⟩

theorem mergeGap_claim {g : Pos} {track : List Extent} (h : y ∈ mergeGap g track) (m : c ∈ y.claims) :
    ∃ z ∈ track, c ∈ z.claims := by
  induction track with
  | nil => cases h
  | cons v l ih =>
    cases l with
    | nil => exact ⟨y, h, m⟩
    | cons w l =>
      unfold mergeGap at h
      split at h
      · rcases List.mem_cons.mp h with rfl | h
        · obtain ⟨z, mem, held⟩ := (mergeExtents_isMergeOf v [w]).claim_mem m
          refine ⟨z, ?_, held⟩
          rcases List.mem_cons.mp mem with rfl | mem
          · exact List.mem_cons_self
          · exact List.mem_cons_of_mem _ (List.mem_cons.mpr (.inl (List.mem_singleton.mp mem)))
        · exact ⟨y, List.mem_cons_of_mem _ (List.mem_cons_of_mem _ h), m⟩
      · rcases List.mem_cons.mp h with rfl | h
        · exact ⟨_, List.mem_cons_self, m⟩
        · obtain ⟨z, mem, held⟩ := ih h
          exact ⟨z, List.mem_cons_of_mem _ mem, held⟩

/-- A claim in the track behind an insertion was in the track before or came with the inserted extent. -/
theorem insertExtent_claim {x : Extent} (h : y ∈ (s.insertExtent x).map.track) (m : c ∈ y.claims) :
    c ∈ x.claims ∨ ∃ z ∈ s.map.track, c ∈ z.claims := by
  by_cases web : x.covers = true
  · rw [insertExtent_track s x web] at h
    split at h
    · unfold mergeSmallest at h
      split at h
      · obtain ⟨z, mem, held⟩ := mergeGap_claim h m
        exact mergeInto_claim mem held
      · exact mergeInto_claim h m
    · exact mergeInto_claim h m
  · rw [insertExtent_bare s web] at h
    exact .inr ⟨y, h, m⟩

/-- The track holds no extent with a claim. -/
def State.ClaimAbsent (s : State) (c : Claim) : Prop := ∀ y ∈ s.map.track, c ∉ y.claims

theorem ClaimAbsent.insertExtent {x : Extent} (h : s.ClaimAbsent c) (k : c ∉ x.claims) : (s.insertExtent x).ClaimAbsent c := by
  intro y mem held
  rcases insertExtent_claim mem held with own | ⟨z, before, held⟩
  · exact k own
  · exact h z before held

theorem closeClaim_claimAbsent (s : State) (c : Claim) (e : Pos) : (s.closeClaim c e).ClaimAbsent c :=
  fun y h => closeClaim_absent s c e y h

/-- A closed claim leaves its cause over the web of an extent that it alone held open, up to where it is closed. -/
theorem closedAt_covers {e h : Pos} {k : Cause} (closed : s.closedAt t c e) (mem : y ∈ s.map.track) (claims : y.claims = [c])
    (held : y.held = some h) (far : s.knife < max h e) (cause : k ∈ y.causes) : t.covers k y.start (max h e) := by
  intro q near upTo
  have behind : y.start < q := lt_of_le_of_lt (le_max_left _ _) near
  refine ⟨_, closed.2 y mem h claims held (lt_of_lt_of_le behind upTo) far, cause, behind, fun f hf => ?_⟩
  cases hf
  exact upTo

end Sys2Proof.Machine
end

section
/-! PROOF. Web Break (R39, R122), and O27. -/

namespace Sys2Proof.Machine

variable {s t u : State} {x : Stream} {v : Slot}

/-! ### The parts of a web break -/

/-- The web of a FIRED splice marked, or the claim of a GRADE slot that has not fired closed (R114, R116, R122). -/
def State.slotDealt (s : State) (x : Stream) : State :=
  match (s.stream x).slot with
  | some v =>
    if v.state == .fired then s.insertFault x v
    else if v.kind == .grade && v.wrongGrade && (v.state == .planned || v.state == .committed) then
      s.closeClaim (.wrongGrade x) (s.streamPos x + s.seamOffset x)
    else s
  | none => s

/-- An arm at a web break: its drive is off, and a running one stops, or is EMPTY where its reel is gone (R122). -/
def ArmRec.webBroken (r : ArmRec) : ArmRec :=
  if r.state == .running then (if r.present.level then r.disable.stop else r.disable.emptied) else r.disable

/-- The slot of a broken stream is FREE, and its arms have stopped. -/
def State.webStopped (s : State) (x : Stream) : State :=
  let freed := s.setSlot x none
  let first := freed.setArm x .a (freed.arm x .a).webBroken
  let both := first.setArm x .b (first.arm x .b).webBroken
  both.setStream x { both.stream x with broken := true, running := none }

theorem breakWeb_eq (s : State) (x : Stream) :
    s.breakWeb x none = (((s.slotDealt x).webStopped x).openBreak x).push [.slotFree x] := by
  have stops (u : State) (arm : Arm) : (if (u.arm x arm).disable.state == .running then
        u.setArm x arm (if (u.arm x arm).disable.present.level then (u.arm x arm).disable.stop else (u.arm x arm).disable.emptied)
      else u.setArm x arm (u.arm x arm).disable) = u.setArm x arm (u.arm x arm).webBroken := by
    unfold ArmRec.webBroken
    split
    · next h => exact congrArg _ (if_pos h).symm
    · next h => exact congrArg _ (if_neg h).symm
  unfold State.breakWeb State.webStopped
  dsimp only
  rw [← stops, ← stops]
  rfl

/-! ### The arms and the slot -/

theorem ArmRec.webBroken_facts (r : ArmRec) : r.webBroken.driveEnable = false ∧ r.webBroken.state =
    if r.state = .running then (if r.present.level = true then .stopping else .empty) else r.state := by
  unfold ArmRec.webBroken
  by_cases running : r.state = .running
  · rw [if_pos running, if_pos (by rw [running]; rfl)]
    split
    · exact ⟨rfl, rfl⟩
    · exact ⟨rfl, rfl⟩
  · rw [if_neg running, if_neg (by simpa using running)]
    exact ⟨rfl, rfl⟩

theorem webStopped_arm (s : State) (x : Stream) (arm : Arm) : (s.webStopped x).arm x arm = (s.arm x arm).webBroken := by
  have freed : ∀ side, (s.setSlot x none).arm x side = s.arm x side := arm_setStream s x _
  unfold State.webStopped
  rw [arm_setStream]
  change (State.setArm _ x .b _).arm x arm = _
  cases arm with
  | a => rw [arm_setArm_other _ _ _ (by decide), arm_setArm, freed]
  | b => rw [arm_setArm, arm_setArm_other _ _ _ (by decide), freed]

theorem webStopped_stream (s : State) (x : Stream) : ((s.webStopped x).stream x).broken = true ∧
    ((s.webStopped x).stream x).running = none ∧ ((s.webStopped x).stream x).slot = none ∧
    ((s.webStopped x).stream x).runningGrade = (s.stream x).runningGrade := by
  unfold State.webStopped
  simp [stream_setArm, State.setSlot]

theorem webStopped_stream_other (s : State) {y : Stream} (h : y ≠ x) : (s.webStopped x).stream y = s.stream y := by
  unfold State.webStopped
  dsimp only
  rw [State.stream_setStream_ite, if_neg h, stream_setArm_other _ _ _ h, stream_setArm_other _ _ _ h]
  exact (State.stream_setStream_ite _ _ _ _).trans (if_neg h)

/-! ### The main track -/

theorem slotDealt_fired (slot : (s.stream x).slot = some v) (fired : v.state = .fired) : s.slotDealt x = s.insertFault x v := by
  unfold State.slotDealt
  rw [slot]
  exact if_pos (by rw [fired]; rfl)

theorem slotDealt_wrongGrade (slot : (s.stream x).slot = some v) (kind : v.kind = .grade)
    (waiting : v.state = .planned ∨ v.state = .committed) (wrong : v.wrongGrade = true) :
    s.slotDealt x = s.closeClaim (.wrongGrade x) (s.streamPos x + s.seamOffset x) := by
  unfold State.slotDealt
  rw [slot]
  dsimp only
  rw [if_neg (by rcases waiting with h | h <;> rw [h] <;> decide),
    if_pos (by rcases waiting with h | h <;> rw [h, kind, wrong] <;> decide)]

theorem slotDealt_cases (s : State) (x : Stream) : (∃ v, s.slotDealt x = s.insertFault x v) ∨
    s.slotDealt x = s.closeClaim (.wrongGrade x) (s.streamPos x + s.seamOffset x) ∨ s.slotDealt x = s := by
  unfold State.slotDealt
  repeat' split
  · exact .inl ⟨_, rfl⟩
  · exact .inr (.inl rfl)
  · exact .inr (.inr rfl)
  · exact .inr (.inr rfl)

theorem slotDealt_mapAlone (s : State) (x : Stream) : MapAlone s (s.slotDealt x) := by
  rcases slotDealt_cases s x with ⟨v, e⟩ | e | e <;> rw [e]
  · exact insertExtent_mapAlone _ _
  · exact closeClaim_mapAlone _ _ _
  · exact .refl s

theorem slotDealt_lanes (s : State) (x : Stream) : (s.slotDealt x).map.lanes = s.map.lanes := by
  rcases slotDealt_cases s x with ⟨v, e⟩ | e | e <;> rw [e]
  · exact (insertExtent_map _ _).1
  · exact closeClaim_lanes _ _ _

theorem slotDealt_replans (s : State) (x : Stream) : Replans s (s.slotDealt x) := by
  rcases slotDealt_cases s x with ⟨v, e⟩ | e | e <;> rw [e]
  · exact insertExtent_replans _ _
  · exact closeClaim_replans _ _ _
  · exact .refl s

theorem Untouched.slotDealt (h : Untouched s t) (x : Stream) : Untouched s (t.slotDealt x) := by
  rcases slotDealt_cases t x with ⟨v, e⟩ | e | e <;> rw [e]
  · exact h.insertExtent _
  · exact h.closeClaim _ _
  · exact h

/-- The extent of a web break: open from the stream counter plus K_s (R39). -/
def State.breakExtent (s : State) (x : Stream) : Extent := .opened (s.streamPos x + s.seamOffset x) .webBreak (.webBreak x)

theorem openBreak_lane {l : Lane} (lane : x.lane = some l) (s : State) :
    s.openBreak x = (s.insertExtent (s.breakExtent x)).setUnsynced l := by
  unfold State.openBreak
  rw [lane]
  rfl

theorem openBreak_main (lane : x.lane = none) (s : State) : s.openBreak x = s.insertExtent (s.breakExtent x) := by
  unfold State.openBreak
  rw [lane]
  rfl

theorem raiseIf_map (s : State) (c : Bool) (n : Notice) : (s.raiseIf c n).map = s.map := by
  rcases s.raiseIf_eq c n with e | e <;> rw [e]
  rfl

theorem raiseIf_work (s : State) (c : Bool) (n : Notice) : (s.raiseIf c n).work = s.work := by
  rcases s.raiseIf_eq c n with e | e <;> rw [e]
  rfl

theorem setUnsynced_map (s : State) (l : Lane) :
    (s.setUnsynced l).map = { s.map with lanes := s.map.lanes.set l { s.lane l with unsynced := true } } :=
  raiseIf_map _ _ _

theorem openBreak_track (s : State) (x : Stream) : (s.openBreak x).map.track = (s.insertExtent (s.breakExtent x)).map.track := by
  cases lane : x.lane with
  | some l => rw [openBreak_lane lane, setUnsynced_map]
  | none => rw [openBreak_main lane]

/-- The lane of a broken stream is UNSYNCED; its offset and its marks stay (R39). -/
theorem openBreak_unsynced {l : Lane} (lane : x.lane = some l) (s : State) :
    (s.openBreak x).lane l = { s.lane l with unsynced := true } := by
  rw [openBreak_lane lane]
  unfold State.lane
  rw [setUnsynced_map]
  rw [PerLane.get_set_same, insertExtent_lane]
  rfl

theorem openBreak_work (s : State) (x : Stream) :
    (s.openBreak x).work = s.work ++ if s.part = .tracking then [.recompute] else [] := by
  have work : (s.insertExtent (s.breakExtent x)).work = s.work ++ if s.part = .tracking then [.recompute] else [] := by
    rw [insertExtent_work, show (s.breakExtent x).covers = true from rfl]
    simp only [and_true]
  cases lane : x.lane with
  | some l =>
    rw [openBreak_lane lane]
    exact (raiseIf_work _ _ _).trans work
  | none => rw [openBreak_main lane, work]

theorem openBreak_mapAlone (s : State) (x : Stream) : MapAlone s (s.openBreak x) := by
  cases lane : x.lane with
  | some l =>
    rw [openBreak_lane lane]
    have flagged : MapAlone (s.insertExtent (s.breakExtent x)) ((s.insertExtent (s.breakExtent x)).setLane l
      { (s.insertExtent (s.breakExtent x)).lane l with unsynced := true }) := rfl
    exact ((insertExtent_mapAlone _ _).trans flagged).trans (raiseIf_mapAlone _ _ _)
  | none =>
    rw [openBreak_main lane]
    exact insertExtent_mapAlone _ _

theorem Untouched.openBreak (h : Untouched s t) (x : Stream) : Untouched s (t.openBreak x) := by
  cases lane : x.lane with
  | some l =>
    rw [openBreak_lane lane]
    exact (h.insertExtent _).setUnsynced l
  | none =>
    rw [openBreak_main lane]
    exact h.insertExtent _

/-- An extent that lies behind the one extent of a track joins it. -/
theorem insertExtent_behind {y z : Extent} {e : Pos} (track : s.map.track = [y]) (finish : y.finish = some e) (web : y.start < e)
    (apart : e < z.start) (covers : z.covers = true) (alone : mergeExtents z [] = z) :
    (s.insertExtent z).map.track = [y, z] := by
  have away : z.meets y = false := by
    unfold Extent.meets notAfterEnd
    rw [finish]
    simp [apart]
  have merged : mergeInto [y] z = [y, z] := by
    unfold mergeInto
    rw [List.filter_cons_of_neg (by simp [away]), List.filter_cons_of_pos (by simp [away]), List.filter_nil, List.filter_nil, alone]
    exact if_neg (not_lt.mpr (le_of_lt (web.trans apart)))
  rw [insertExtent_track s z covers, track, merged]
  rfl

/-! ### The state before the acts that follow -/

/-- A web broken, up to the acts that follow. -/
def State.webBroken (s : State) (x : Stream) : State := ((s.slotDealt x).webStopped x).openBreak x

theorem webBroken_splice (s : State) (x : Stream) : (s.webBroken x).splice = ((s.slotDealt x).webStopped x).splice :=
  (openBreak_mapAlone _ x).splice

theorem webBroken_arm (s : State) (x : Stream) (arm : Arm) : (s.webBroken x).arm x arm = (s.arm x arm).webBroken := by
  rw [arm_of_splice (webBroken_splice s x), webStopped_arm, arm_of_splice (slotDealt_mapAlone s x).splice]

theorem webBroken_stream (s : State) (x : Stream) : ((s.webBroken x).stream x).broken = true ∧
    ((s.webBroken x).stream x).running = none ∧ ((s.webBroken x).stream x).slot = none ∧
    ((s.webBroken x).stream x).runningGrade = (s.stream x).runningGrade := by
  rw [stream_of_splice (webBroken_splice s x), ← stream_of_splice (slotDealt_mapAlone s x).splice]
  exact webStopped_stream _ x

theorem webBroken_stream_other (s : State) {y : Stream} (h : y ≠ x) : (s.webBroken x).stream y = s.stream y := by
  rw [stream_of_splice (webBroken_splice s x), webStopped_stream_other _ h, stream_of_splice (slotDealt_mapAlone s x).splice]

theorem webBroken_figures (s : State) (x : Stream) : (s.webBroken x).lmu = s.lmu ∧ (s.webBroken x).profile = s.profile :=
  have opened := openBreak_mapAlone ((s.slotDealt x).webStopped x) x
  have dealt := slotDealt_mapAlone s x
  ⟨opened.lmu.trans dealt.lmu, opened.profile.trans dealt.profile⟩

theorem webBroken_ports (s : State) (x : Stream) (q : Port) : PortGrows (s.port q) ((s.webBroken x).port q) :=
  PortGrows.trans (((Untouched.refl s).slotDealt x).ports q)
    (((Untouched.refl ((s.slotDealt x).webStopped x)).openBreak x).ports q)

theorem breakExtent_stopped (s : State) (x : Stream) : ((s.slotDealt x).webStopped x).breakExtent x = s.breakExtent x := by
  have dealt := slotDealt_mapAlone s x
  have offset : ((s.slotDealt x).webStopped x).seamOffset x = s.seamOffset x :=
    seamOffset_congr dealt.profile (slotDealt_lanes s x) x
  have torn : ((s.slotDealt x).webStopped x).streamPos x = s.streamPos x := dealt.streamPos x
  unfold State.breakExtent
  rw [offset, torn]

/-- The main track behind a web break: the extents of the slot, and the BREAK extent inserted. -/
theorem webBroken_track (s : State) (x : Stream) :
    (s.webBroken x).map.track = (((s.slotDealt x).webStopped x).insertExtent (s.breakExtent x)).map.track := by
  unfold State.webBroken
  rw [openBreak_track, breakExtent_stopped]

theorem webBroken_lane {l : Lane} (lane : x.lane = some l) (s : State) :
    (s.webBroken x).lane l = { s.lane l with unsynced := true } := by
  have same : ((s.slotDealt x).webStopped x).lane l = s.lane l := congrArg (PerLane.get · l) (slotDealt_lanes s x)
  unfold State.webBroken
  rw [openBreak_unsynced lane, same]

theorem webBroken_work (s : State) (x : Stream) :
    ∃ n, (s.webBroken x).work = s.work ++ List.replicate n .recompute ∧ (0 < n ↔ s.part = .tracking) := by
  obtain ⟨part, n, work, none_⟩ := slotDealt_replans s x
  have opened : (s.webBroken x).work = (s.slotDealt x).work ++ if (s.slotDealt x).part = .tracking then [.recompute] else [] :=
    openBreak_work _ x
  rw [part, work] at opened
  cases e : s.part with
  | setup => exact ⟨0, by rw [opened, none_ e, e]; simp, by simp⟩
  | tracking =>
    refine ⟨n + 1, ?_, iff_of_true (Nat.succ_pos n) rfl⟩
    rw [opened, if_pos e, List.append_assoc, List.replicate_succ']

theorem webBroken_covers {c : Cause} {a b : Pos} (h : (s.slotDealt x).covers c a b) : (s.webBroken x).covers c a b := by
  unfold State.covers
  rw [webBroken_track]
  exact insertExtent_covers ((s.slotDealt x).webStopped x) _ c a b h

/-- The web of a FIRED splice, in a track that was empty, and the BREAK extent behind it. -/
theorem webBroken_track_fired {arm : Arm} (slot : (s.stream x).slot = some v) (fired : v.state = .fired)
    (chosen : v.chosen = some arm) (empty : s.map.track = []) :
    let seam := (v.fireCount : Int) + s.seamOffset x
    let first := (s.seamExtent seam x v.fast v.unsynced).1
    let last := (s.seamExtent (seam + (s.streamProfile x).doneWindow) x v.fast v.unsynced).2
    let torn := s.streamPos x + s.seamOffset x
    first < last → last < torn → (s.webBroken x).map.track =
      [{ start := first, finish := some last, held := none, causes := [.seam], claims := []
         seam := some ⟨x, arm, .unconfirmed, v.fast, v.unsynced⟩ },
       { start := torn, finish := none, held := some torn, causes := [.webBreak], claims := [.webBreak x], seam := none }] := by
  intro seam first last torn web behind
  have zero : 0 ≤ first := le_max_left 0 _
  have start : max first 0 = first := max_eq_left zero
  have tornStart : max torn 0 = torn := max_eq_left (zero.trans (le_of_lt (web.trans behind)))
  let fault : Extent := .closed first last .seam (some ⟨x, arm, .unconfirmed, v.fast, v.unsynced⟩)
  have inserted : s.insertFault x v = s.insertExtent fault := by
    unfold State.insertFault
    rw [chosen]
    rfl
  have dealt : (s.slotDealt x).map.track = [fault] := by
    rw [slotDealt_fired slot fired, inserted]
    refine insertExtent_empty empty ((covers_iff _).mpr fun e he => ?_) (mergeInto_nil_closed _ _ _)
    cases he
    exact start.trans_lt web
  have both := insertExtent_behind (s := (s.slotDealt x).webStopped x) (z := s.breakExtent x) dealt rfl (start.trans_lt web)
    (behind.trans_eq tornStart.symm) rfl rfl
  rw [webBroken_track, both]
  have faultEq : fault = { start := first, finish := some last, held := none, causes := [.seam], claims := []
                           seam := some ⟨x, arm, .unconfirmed, v.fast, v.unsynced⟩ } := by
    unfold fault Extent.closed
    rw [start]
  have breakEq : s.breakExtent x = { start := torn, finish := none, held := some torn, causes := [.webBreak]
                                     claims := [.webBreak x], seam := none } := by
    unfold State.breakExtent Extent.opened
    rw [show max (s.streamPos x + s.seamOffset x) 0 = torn from tornStart]
  rw [faultEq, breakEq]

/-- The claim WRONG_GRADE of a GRADE slot that has not fired is closed, and no extent holds it behind the break. -/
theorem webBroken_claimAbsent (slot : (s.stream x).slot = some v) (kind : v.kind = .grade)
    (waiting : v.state = .planned ∨ v.state = .committed) (wrong : v.wrongGrade = true) :
    (s.webBroken x).ClaimAbsent (.wrongGrade x) := by
  have closed : ((s.slotDealt x).webStopped x).ClaimAbsent (.wrongGrade x) := by
    have absent := closeClaim_claimAbsent s (.wrongGrade x) (s.streamPos x + s.seamOffset x)
    rwa [← slotDealt_wrongGrade slot kind waiting wrong] at absent
  unfold State.ClaimAbsent
  rw [webBroken_track]
  exact ClaimAbsent.insertExtent closed (by simp [State.breakExtent, Extent.opened])

/-! ### The request (R122) -/

theorem webBreakVerdict_unknown {code : Nat} (h : Stream.ofCode? code = none) (s : State) : webBreakVerdict code s = .no .range := by
  unfold webBreakVerdict
  rw [h]

theorem webBreakVerdict_known {code : Nat} (h : Stream.ofCode? code = some x) (s : State) :
    webBreakVerdict code s = if (s.stream x).broken then .no .state else .ok fun s => s.breakWeb x none := by
  unfold webBreakVerdict
  rw [h]

/-- Settles O27. -/
theorem webBreakStopsTheStream : Obligations.WebBreakStopsTheStream := by
  intro p tag code s heard
  refine ⟨fun unknown quiet => exec_refused .range rfl quiet heard (webBreakVerdict_unknown unknown s),
    fun x known broken quiet => exec_refused .state rfl quiet heard ((webBreakVerdict_known known s).trans (if_pos broken)),
    fun x known intact => ?_⟩
  let r := s.withFrame p (doneFrame 0x13 tag [])
  let u := r.breakWeb x none
  have done : exec (.webBreak p tag code) s = .next u.settled :=
    exec_ok (i := .webBreak p tag code) rfl heard ((webBreakVerdict_known known s).trans (if_neg (by simp [intact])))
  have made : u = (r.webBroken x).push [.slotFree x] := breakWeb_eq r x
  have kept := settled_untouched u
  have arms : ∀ arm, u.arm x arm = (s.arm x arm).webBroken := fun arm => made ▸ webBroken_arm r x arm
  have streams : u.stream x = (r.webBroken x).stream x := made ▸ rfl
  obtain ⟨broken, running, free, grade⟩ := webBroken_stream r x
  refine ⟨u, u.settled, done, rfl, joinedBy_of_untouched fun q => ?_, ?_, ?_, ?_, fun arm => ?_, fun arm => ?_, ?_,
    fun l lane => ?_, ?_, ?_, ⟨fun v slot fired => ⟨?_, fun arm chosen empty web behind => ?_⟩,
    fun v slot kind waiting wrong => ⟨?_, fun y mem h c claims held far cause => ?_⟩⟩, fun y arm h => ?_, ?_, ?_⟩
  · have grown : PortGrows (r.port q) (u.port q) := made ▸ webBroken_ports r x q
    exact grown.trans (kept.ports q)
  · rw [kept.broken, streams, broken]
  · rw [kept.running, streams, running]
  · rw [kept.runningGrade, streams, grade]
    rfl
  · rw [(ArmRec.stand_eq (kept.arm x arm)).1, arms, (ArmRec.webBroken_facts _).2]
  · rw [arms, (ArmRec.webBroken_facts _).1]
  · rw [streams, free]
  · have record : u.lane l = { s.lane l with unsynced := true } := made ▸ webBroken_lane lane r
    rw [record]
    exact ⟨rfl, rfl, rfl⟩
  · have opened := insertExtent_opened ((r.slotDealt x).webStopped x) .webBreak (.webBreak x) (s.streamPos x + s.seamOffset x)
    have track : u.map.track = (((r.slotDealt x).webStopped x).insertExtent (r.breakExtent x)).map.track :=
      made ▸ webBroken_track r x
    rw [track]
    exact opened
  · obtain ⟨n, work, due⟩ := webBroken_work r x
    refine ⟨n, ?_, due⟩
    rw [made]
    exact congrArg (· ++ [.slotFree x]) work
  · rw [made]
    have dealt := slotDealt_fired (s := r) slot fired
    refine webBroken_covers ?_
    rw [dealt]
    exact insertExtent_closed_covers r .seam _ _ _
  · rw [made]
    exact webBroken_track_fired (s := r) slot fired chosen empty web behind
  · rw [made]
    exact webBroken_claimAbsent (s := r) slot kind waiting wrong
  · rw [made]
    refine webBroken_covers ?_
    rw [slotDealt_wrongGrade (s := r) slot kind waiting wrong]
    exact closedAt_covers (closeClaim_closedAt r _ _) mem claims held far cause
  · have other : u.stream y = s.stream y := made ▸ webBroken_stream_other r h
    rw [kept.arm y arm]
    unfold State.arm
    rw [other]
  · rw [kept.lmu, made]
    exact (webBroken_figures r x).1
  · rw [kept.profile, made]
    exact (webBroken_figures r x).2

end Sys2Proof.Machine
end

section
/-! PROOF. Web Restored (R40, R123), and O28. -/

namespace Sys2Proof.Machine

variable {s t u : State} {x : Stream} {arm : Arm}

/-! ### The arm that takes the web -/

theorem mayRestore_iff (r : ArmRec) : r.mayRestore = true ↔
    (r.state = .loaded ∨ r.state = .ready ∨ r.state = .stopping) ∧ r.declaration ≠ none ∧ r.present.level = true ∧
      r.latched.level = true := by
  unfold ArmRec.mayRestore
  simp [Option.isSome_iff_ne_none, and_assoc, or_assoc]

/-- An arm with its declared length replaced, where the request gives one (R123). -/
def ArmRec.withLength (r : ArmRec) (n : Nat) : ArmRec :=
  { r with declaration := r.declaration.map fun d => if n = 0 then d else { d with length := n } }

theorem ArmRec.withLength_declaration {r : ArmRec} {d : Declaration} (h : r.declaration = some d) (n : Nat) :
    (r.withLength n).declaration = some ⟨d.grade, if n = 0 then d.length else n⟩ := by
  unfold ArmRec.withLength
  rw [h]
  cases n with
  | zero => rfl
  | succ n => rfl

/-- The BREAK claim closed, and the arm running from the stream counter. -/
def State.webTaken (s : State) (x : Stream) (arm : Arm) (n : Nat) : State :=
  let ran := (s.closeBreak x).setArm x arm ((((s.closeBreak x).arm x arm).withLength n).run ((s.closeBreak x).streamCount x))
  ran.setStream x { ran.stream x with
    running := some arm
    runningGrade := ((((s.closeBreak x).arm x arm).withLength n).declaration.map Declaration.grade).getD 0
    broken := false }

theorem restoreWeb_eq (s : State) (x : Stream) (arm : Arm) (n : Nat) :
    s.restoreWeb x arm n = (s.webTaken x arm n).push [.slotFree x, .deferred x, .runout x] := rfl

theorem closeBreak_mapAlone (s : State) (x : Stream) : MapAlone s (s.closeBreak x) := closeClaim_mapAlone _ _ _

theorem closeBreak_streamCount (s : State) (x : Stream) : (s.closeBreak x).streamCount x = s.streamCount x := by
  unfold State.streamCount State.channel
  rw [(closeBreak_mapAlone s x).lmu]

theorem webTaken_arm (s : State) (x : Stream) (arm : Arm) (n : Nat) :
    (s.webTaken x arm n).arm x arm = ((s.arm x arm).withLength n).run (s.streamCount x) := by
  unfold State.webTaken
  rw [arm_setStream]
  change (State.setArm _ x arm _).arm x arm = _
  rw [arm_setArm, arm_of_splice (closeBreak_mapAlone s x).splice, closeBreak_streamCount]

theorem webTaken_arm_other (s : State) (x : Stream) {arm side : Arm} (n : Nat) (h : side ≠ arm) :
    (s.webTaken x arm n).arm x side = s.arm x side := by
  unfold State.webTaken
  rw [arm_setStream]
  change (State.setArm _ x arm _).arm x side = _
  rw [arm_setArm_other _ _ _ h, arm_of_splice (closeBreak_mapAlone s x).splice]

theorem webTaken_stream (s : State) (x : Stream) (arm : Arm) (n : Nat) :
    ((s.webTaken x arm n).stream x).broken = false ∧ ((s.webTaken x arm n).stream x).running = some arm ∧
    ((s.webTaken x arm n).stream x).runningGrade =
      (((s.arm x arm).withLength n).declaration.map Declaration.grade).getD 0 := by
  unfold State.webTaken
  dsimp only
  rw [State.stream_setStream, arm_of_splice (closeBreak_mapAlone s x).splice]
  exact ⟨rfl, rfl, rfl⟩

theorem webTaken_stream_other (s : State) (arm : Arm) (n : Nat) {y : Stream} (h : y ≠ x) :
    (s.webTaken x arm n).stream y = s.stream y := by
  unfold State.webTaken
  dsimp only
  rw [State.stream_setStream_ite, if_neg h, stream_setArm_other _ _ _ h, stream_of_splice (closeBreak_mapAlone s x).splice]

theorem webTaken_ports (s : State) (x : Stream) (arm : Arm) (n : Nat) (q : Port) :
    PortGrows (s.port q) ((s.webTaken x arm n).port q) := ((Untouched.refl s).closeClaim _ _).ports q

theorem other_ne (arm : Arm) : arm.other ≠ arm := by
  cases arm
  · exact nofun
  · exact nofun

/-! ### The request (R123) -/

theorem namedArm_none {a b : Nat} (h : Stream.ofCode? a = none ∨ Arm.ofCode? b = none) : namedArm a b = none := by
  unfold namedArm
  rcases h with h | h
  · rw [h]
  · rw [h]
    cases Stream.ofCode? a <;> rfl

theorem namedArm_some {a b : Nat} (h : Stream.ofCode? a = some x) (k : Arm.ofCode? b = some arm) :
    namedArm a b = some (x, arm) := by
  unfold namedArm
  rw [h, k]

theorem webRestoredVerdict_range {a b n : Nat} (h : Stream.ofCode? a = none ∨ Arm.ofCode? b = none ∨ 200000000 < n) (s : State) :
    webRestoredVerdict a b n s = .no .range := by
  unfold webRestoredVerdict
  split
  · next x arm named =>
    refine if_neg fun le => ?_
    rcases h with h | h | h
    · rw [namedArm_none (.inl h)] at named
      cases named
    · rw [namedArm_none (.inr h)] at named
      cases named
    · exact absurd h (Nat.not_lt.mpr le)
  · rfl

theorem webRestoredVerdict_known {a b n : Nat} (h : Stream.ofCode? a = some x) (k : Arm.ofCode? b = some arm) (le : n ≤ 200000000)
    (s : State) : webRestoredVerdict a b n s =
      if (s.stream x).broken = true ∧ (s.arm x arm).mayRestore = true then .ok fun s => s.restoreWeb x arm n else .no .state := by
  unfold webRestoredVerdict
  rw [namedArm_some h k]
  dsimp only
  rw [if_pos le]
  simp only [Bool.and_eq_true]

/-- The rethread length of a stream's lane, 0 for S5 (R40). -/
def State.rethread (s : State) (x : Stream) : Nat :=
  match x.lane with
  | some l => (s.laneProfile l).rethreadLength
  | none => 0

theorem closeBreak_eq (s : State) (x : Stream) :
    s.closeBreak x = s.closeClaim (.webBreak x) (s.streamPos x + s.seamOffset x + (s.rethread x : Nat)) := by
  unfold State.closeBreak State.rethread
  cases x.lane with
  | some l => rfl
  | none => rfl

theorem closeBreak_closedAt (s : State) (x : Stream) :
    s.closedAt (s.closeBreak x) (.webBreak x) (s.streamPos x + s.seamOffset x + (s.rethread x : Nat)) := by
  rw [closeBreak_eq]
  exact closeClaim_closedAt _ _ _

theorem closeBreak_due (s : State) (x : Stream) : ∃ n, (s.closeBreak x).work = s.work ++ List.replicate n .recompute ∧
    (0 < n ↔ s.part = .tracking ∧ ∃ y ∈ s.map.track, Claim.webBreak x ∈ y.claims) := by
  rw [closeBreak_eq]
  exact closeClaim_due _ _ _

/-- Settles O28. -/
theorem webRestoredRunsTheArm : Obligations.WebRestoredRunsTheArm := by
  intro p tag a b n s heard
  refine ⟨fun bad quiet => exec_refused .range rfl quiet heard (webRestoredVerdict_range bad s),
    fun x arm known named le => ⟨fun bad quiet => ?_, fun d broken may declared => ?_⟩⟩
  · have refused : ¬ ((s.stream x).broken = true ∧ (s.arm x arm).mayRestore = true) := by
      rw [mayRestore_iff]
      rintro ⟨broken, may⟩
      rcases bad with intact | cannot
      · rw [intact] at broken
        cases broken
      · exact cannot may
    refine exec_refused .state rfl quiet heard ?_
    change webRestoredVerdict a b n s = _
    rw [webRestoredVerdict_known known named le, if_neg refused]
  · let r := s.withFrame p (doneFrame 0x14 tag [])
    let u := r.restoreWeb x arm n
    have can : (s.stream x).broken = true ∧ (s.arm x arm).mayRestore = true := ⟨broken, (mayRestore_iff _).mpr may⟩
    have verdict : verdictOf (.webRestored p tag a b n) s = .ok fun s => s.restoreWeb x arm n := by
      change webRestoredVerdict a b n s = _
      rw [webRestoredVerdict_known known named le, if_pos can]
    have done : exec (.webRestored p tag a b n) s = .next u.settled :=
      exec_ok (i := .webRestored p tag a b n) (f := fun s => s.restoreWeb x arm n) rfl heard verdict
    have kept := settled_untouched u
    have taken : u.arm x arm = ((s.arm x arm).withLength n).run (s.streamCount x) := webTaken_arm r x arm n
    obtain ⟨intact, running, grade⟩ := webTaken_stream r x arm n
    obtain ⟨ranState, ranStart, ranDeclaration, ranDrive⟩ := ArmRec.run_facts ((s.arm x arm).withLength n) (s.streamCount x)
    have declaration := ArmRec.withLength_declaration declared n
    obtain ⟨finState, finDeclaration, finStart⟩ := ArmRec.stand_eq (kept.arm x arm)
    refine ⟨u, u.settled, done, rfl, joinedBy_of_untouched fun q => (webTaken_ports r x arm n q).trans (kept.ports q),
      ?_, ?_, ?_, ?_, ?_, ?_, ?_, ?_, ?_, ?_, fun y side h => ?_, ?_, ?_⟩
    · exact (kept.broken x).trans intact
    · exact (kept.running x).trans running
    · refine ((kept.runningGrade x).trans grade).trans ?_
      rw [show r.arm x arm = s.arm x arm from rfl, declaration]
      rfl
    · rw [finState, taken, ranState]
    · rw [finStart, taken, ranStart]
    · rw [finDeclaration, taken, ranDeclaration, declaration]
    · rw [taken, ranDrive]
    · exact closeBreak_closedAt r x
    · obtain ⟨k, work, due⟩ := closeBreak_due r x
      exact ⟨k, congrArg (· ++ [Task.slotFree x, .deferred x, .runout x]) work, due⟩
    · rw [kept.arm x arm.other]
      exact congrArg ArmRec.stand (webTaken_arm_other r x n (other_ne arm))
    · rw [kept.arm y side]
      unfold State.arm
      exact congrArg (fun v : StreamRec => (v.arms.get side).stand) (webTaken_stream_other r arm n h)
    · exact kept.lmu.trans (closeBreak_mapAlone r x).lmu
    · exact kept.profile.trans (closeBreak_mapAlone r x).profile

end Sys2Proof.Machine
end

section
/-! PROOF. Clear Line (R42, R66, R94, R126, R151, R172, R201), and O56. -/

namespace Sys2Proof.Machine

variable {s t u : State} {x y : Stream}

theorem withFrame_classes (s : State) (p : Port) (f : Frame) (q : Port) : ((s.withFrame p f).port q).classes = (s.port q).classes := by
  cases p <;> cases q <;> rfl

/-! ### Slots (R126) -/

theorem clearSlot_chosen {arm : Arm} (h : ((s.stream x).slot).bind Slot.chosen = some arm) :
    s.clearSlot x = (s.setArm x arm (s.arm x arm).disable).setSlot x none := by
  unfold State.clearSlot
  rw [h]

theorem clearSlot_unchosen (h : ((s.stream x).slot).bind Slot.chosen = none) : s.clearSlot x = s.setSlot x none := by
  unfold State.clearSlot
  rw [h]

theorem clearSlot_spliceAlone (s : State) (x : Stream) : SpliceAlone s (s.clearSlot x) := by
  cases h : ((s.stream x).slot).bind Slot.chosen with
  | none => rw [clearSlot_unchosen h]; rfl
  | some arm => rw [clearSlot_chosen h]; rfl

theorem clearSlot_stream_other (s : State) (h : y ≠ x) : (s.clearSlot x).stream y = s.stream y := by
  cases k : ((s.stream x).slot).bind Slot.chosen with
  | none => rw [clearSlot_unchosen k, State.setSlot, State.stream_setStream_ite, if_neg h]
  | some arm => rw [clearSlot_chosen k, State.setSlot, State.stream_setStream_ite, if_neg h, stream_setArm_other _ _ _ h]

/-- A stream whose slot has been cleared: what stays of it, and the drive enable of the arm it had chosen (R126). -/
structure SlotCleared (r v : StreamRec) : Prop where
  slot : v.slot = none
  running : v.running = r.running
  broken : v.broken = r.broken
  linkFault : v.linkFault = r.linkFault
  stand : ∀ arm, (v.arms.get arm).stand = (r.arms.get arm).stand
  chosen : ∀ w arm, r.slot = some w → w.chosen = some arm → (v.arms.get arm).driveEnable = false
  others : ∀ arm, (∀ w, r.slot = some w → w.chosen ≠ some arm) → v.arms.get arm = r.arms.get arm

theorem clearSlot_stream (s : State) (x : Stream) : SlotCleared (s.stream x) ((s.clearSlot x).stream x) := by
  cases h : ((s.stream x).slot).bind Slot.chosen with
  | none =>
    rw [clearSlot_unchosen h, State.setSlot, State.stream_setStream]
    refine ⟨rfl, rfl, rfl, rfl, fun _ => rfl, fun w arm slot chosen => ?_, fun _ _ => rfl⟩
    rw [slot, Option.bind_some, chosen] at h
    cases h
  | some own =>
    rw [clearSlot_chosen h, State.setSlot, State.stream_setStream, stream_setArm]
    have slotChosen : ∀ w, (s.stream x).slot = some w → w.chosen = some own := fun w slot => by
      rwa [slot, Option.bind_some] at h
    refine ⟨rfl, rfl, rfl, rfl, fun arm => ?_, fun w arm slot chosen => ?_, fun arm unchosen => ?_⟩
    · change (((s.stream x).arms.set own _).get arm).stand = _
      rw [PerArm.get_set]
      split
      · next e => rw [e]; rfl
      · rfl
    · change (((s.stream x).arms.set own _).get arm).driveEnable = false
      rw [slotChosen w slot] at chosen
      cases chosen
      rw [PerArm.get_set_same]
      rfl
    · obtain ⟨w, slot, chosen⟩ := Option.bind_eq_some_iff.mp h
      refine PerArm.get_set_other _ _ _ _ fun e => ?_
      exact unchosen w slot (e ▸ chosen)

theorem clearSlots_spliceAlone (xs : List Stream) (s : State) : SpliceAlone s (xs.foldl State.clearSlot s) := by
  induction xs generalizing s with
  | nil => rfl
  | cons x xs ih => exact (clearSlot_spliceAlone s x).trans (ih _)

theorem clearSlots_stream_other (xs : List Stream) (s : State) (h : y ∉ xs) : (xs.foldl State.clearSlot s).stream y = s.stream y := by
  induction xs generalizing s with
  | nil => rfl
  | cons x xs ih =>
    obtain ⟨other, rest⟩ := List.ne_and_not_mem_of_not_mem_cons h
    exact (ih _ rest).trans (clearSlot_stream_other s other)

/-- Each stream of a list without repetition has its slot cleared once. -/
theorem clearSlots_stream (xs : List Stream) (distinct : xs.Nodup) (s : State) (h : x ∈ xs) :
    SlotCleared (s.stream x) ((xs.foldl State.clearSlot s).stream x) := by
  induction xs generalizing s with
  | nil => cases h
  | cons y xs ih =>
    obtain ⟨apart, distinct⟩ := List.nodup_cons.mp distinct
    by_cases e : x = y
    · subst e
      rw [List.foldl_cons, clearSlots_stream_other xs _ apart]
      exact clearSlot_stream s x
    · rw [← clearSlot_stream_other s e]
      exact ih distinct _ ((List.mem_cons.mp h).resolve_left e)

/-! ### The stations (R151) -/

theorem nth1_map {α β : Type} (f : α → β) (l : List α) (n : Nat) : nth1 (l.map f) n = (nth1 l n).map f := by
  cases n with
  | zero => rfl
  | succ n => exact List.getElem?_map

theorem clear_tools (r : StationRec) (k : ToolKind) : r.clear.tools k = (r.tools k).map Tool.lose := by
  cases k <;> rfl

theorem clearSlitter_station (s : State) (st : Station) : s.clearSlitter.station st = (s.station st).clear := by
  cases st <;> rfl

theorem lose_eq (v : Tool) : v.lose = if v.state = .moving then { v with state := .unknown, target := none } else v := by
  unfold Tool.lose
  cases v.state <;> rfl

/-! ### The map (R42) -/

theorem lane_setUnsynced (s : State) (l j : Lane) :
    (s.setUnsynced l).lane j = if j = l then { s.lane l with unsynced := true } else s.lane j := by
  unfold State.lane
  rw [setUnsynced_map]
  exact PerLane.get_set _ _ _ _

/-- The map without extents, and its lanes without marks. -/
def State.mapEmptied (s : State) : State :=
  (({ s with map := { s.map with track := [] } } : State).setMarks .one []).setMarks .two []

theorem clearMap_eq (s : State) : s.clearMap = (s.mapEmptied.setUnsynced .one).setUnsynced .two := rfl

theorem mapEmptied_lane (s : State) (l : Lane) : s.mapEmptied.lane l = { s.lane l with marks := [] } := by
  cases l <;> rfl

/-- The cleared map: no extents, and lanes without marks, UNSYNCED. -/
theorem clearMap_map (s : State) : s.clearMap.map.track = [] ∧ s.clearMap.map.zoneTaken = s.map.zoneTaken ∧
    ∀ l, s.clearMap.lane l = { s.lane l with marks := [], unsynced := true } := by
  rw [clearMap_eq, setUnsynced_map, setUnsynced_map]
  refine ⟨rfl, rfl, fun l => ?_⟩
  rw [lane_setUnsynced, lane_setUnsynced, lane_setUnsynced, mapEmptied_lane, mapEmptied_lane, mapEmptied_lane]
  cases l
  · rfl
  · rfl

theorem setUnsynced_mapAlone (s : State) (l : Lane) : MapAlone s (s.setUnsynced l) :=
  MapAlone.trans (t := s.setLane l _) rfl (raiseIf_mapAlone _ _ _)

theorem clearMap_mapAlone (s : State) : MapAlone s s.clearMap := by
  have cleared : MapAlone s s.mapEmptied := rfl
  exact (cleared.trans (setUnsynced_mapAlone _ _)).trans (setUnsynced_mapAlone _ _)

theorem clearMap_work (s : State) : s.clearMap.work = s.work :=
  (raiseIf_work _ _ _).trans (raiseIf_work _ _ _)

/-! ### The line cleared -/

/-- The line back in SETUP, PART_STATE raised, with the lists of the dry end discarded (R172). -/
def State.setupBegun (s : State) : State :=
  let begun := ({ s with part := .setup }).raise .partState
  { begun with dry := { begun.dry with released := [], strays := [], merge := false } }

/-- The line cleared up to the slots: the dry end, the book and the plan, and every stream's slot. -/
def State.planCleared (s : State) : State := Stream.all.foldl State.clearSlot s.setupBegun.expireExtents.clearPlan

theorem clearLine_eq (s : State) : s.clearLine = s.planCleared.clearSlitter.clearMap := rfl

/-- What Clear Line leaves of each block (R66, R94, R172). -/
theorem clearLine_blocks (s : State) : s.clearLine.part = .setup ∧ s.clearLine.lmu = s.lmu ∧ s.clearLine.profile = s.profile ∧
    s.clearLine.dry = { s.dry with released := [], strays := [], merge := false } ∧
    s.clearLine.plan = { s.plan with window := [], tail := none, pendingChange := List.replicate 12 none } ∧
    s.clearLine.book = s.book.map OrderRec.lineCleared ∧ s.clearLine.splice = s.planCleared.splice ∧
    s.clearLine.slitter = s.planCleared.clearSlitter.slitter := by
  have expired := expireExtents_mapAlone s.setupBegun
  have slots := clearSlots_spliceAlone Stream.all s.setupBegun.expireExtents.clearPlan
  have map := clearMap_mapAlone s.planCleared.clearSlitter
  unfold SpliceAlone at slots
  have part : s.planCleared.part = s.setupBegun.expireExtents.part := (congrArg State.part slots :)
  have lmu : s.planCleared.lmu = s.setupBegun.expireExtents.lmu := (congrArg State.lmu slots :)
  have profile : s.planCleared.profile = s.setupBegun.expireExtents.profile := (congrArg State.profile slots :)
  have dry : s.planCleared.dry = s.setupBegun.expireExtents.dry := (congrArg State.dry slots :)
  have plan : s.planCleared.plan = s.setupBegun.expireExtents.clearPlan.plan := (congrArg State.plan slots :)
  have book : s.planCleared.book = s.setupBegun.expireExtents.clearPlan.book := (congrArg State.book slots :)
  refine ⟨(map.part.trans part).trans expired.part, (map.lmu.trans lmu).trans expired.lmu,
    (map.profile.trans profile).trans expired.profile, (MapAlone.dry map).trans (dry.trans (MapAlone.dry expired)), ?_, ?_,
    map.splice, map.slitter⟩
  · refine ((MapAlone.plan map).trans plan).trans ?_
    unfold State.clearPlan
    rw [MapAlone.plan expired]
    rfl
  · refine ((MapAlone.book map).trans book).trans ?_
    unfold State.clearPlan
    rw [MapAlone.book expired]
    rfl

/-- Before the map is cleared its lanes and markers stand as they did. -/
theorem planCleared_map (s : State) :
    s.planCleared.map.lanes = s.map.lanes ∧ s.planCleared.map.zoneTaken = s.map.zoneTaken := by
  have slots := clearSlots_spliceAlone Stream.all s.setupBegun.expireExtents.clearPlan
  unfold SpliceAlone at slots
  have same : s.planCleared.map = s.setupBegun.expireExtents.map := (congrArg State.map slots :)
  have markers : s.setupBegun.expireExtents.map.zoneTaken = s.map.zoneTaken := by
    unfold State.expireExtents
    split
    · rw [replan_map]
      rfl
    · rfl
  rw [same]
  exact ⟨expireExtents_lanes s.setupBegun, markers⟩

/-- Nothing follows from a cleared line: in SETUP no event makes a recomputation due (R69). -/
theorem clearLine_work (quiet : s.work = []) : s.clearLine.work = [] := by
  obtain ⟨-, n, work, none_⟩ := expireExtents_replans s.setupBegun
  have slots := clearSlots_spliceAlone Stream.all s.setupBegun.expireExtents.clearPlan
  unfold SpliceAlone at slots
  have planCleared : s.planCleared.work = s.setupBegun.expireExtents.work := (congrArg State.work slots :)
  rw [clearLine_eq, clearMap_work]
  change s.planCleared.work = []
  rw [planCleared, work, none_ rfl]
  exact (List.append_nil _).trans quiet

theorem setupBegun_ports (s : State) (q : Port) : PortGrows (s.port q) (s.setupBegun.port q) :=
  ((Untouched.refl ({ s with part := .setup } : State)).raise .partState).ports q

theorem planCleared_ports (s : State) (q : Port) : PortGrows (s.setupBegun.port q) (s.planCleared.port q) := by
  have slots := clearSlots_spliceAlone Stream.all s.setupBegun.expireExtents.clearPlan
  unfold SpliceAlone at slots
  have same : s.planCleared.port q = s.setupBegun.expireExtents.port q := (congrArg (State.port · q) slots :)
  rw [same]
  exact ((Untouched.refl s.setupBegun).expireExtents).ports q

theorem clearMap_ports (s : State) (q : Port) : PortGrows (s.port q) (s.clearMap.port q) := by
  rw [clearMap_eq]
  exact (((Untouched.refl s.mapEmptied).setUnsynced .one).setUnsynced .two).ports q

theorem clearLine_ports (s : State) (q : Port) : PortGrows (s.setupBegun.port q) (s.clearLine.port q) :=
  (planCleared_ports s q).trans (clearMap_ports s.planCleared.clearSlitter q)

theorem clearLine_raises (classes : (s.port .planning).classes.length = 12) :
    (s.clearLine.port .planning).rawOf 10 = true := by
  refine (clearLine_ports s .planning).raw 10 ?_
  refine raise_raw ({ s with part := .setup } : State) .partState ?_
  change 10 < (s.port .planning).classes.length
  rw [classes]
  decide

theorem clearLine_slot (s : State) (x : Stream) : SlotCleared (s.stream x) (s.clearLine.stream x) := by
  obtain ⟨-, -, -, -, -, -, splice, -⟩ := clearLine_blocks s
  have before : s.setupBegun.expireExtents.clearPlan.stream x = s.stream x :=
    stream_of_splice (expireExtents_mapAlone s.setupBegun).splice x
  rw [stream_of_splice splice, ← before]
  exact clearSlots_stream Stream.all (by decide) _ (by cases x <;> decide)

theorem clearLine_station (s : State) (st : Station) : s.clearLine.station st = (s.station st).clear := by
  obtain ⟨-, -, -, -, -, -, -, slitter⟩ := clearLine_blocks s
  have slots := clearSlots_spliceAlone Stream.all s.setupBegun.expireExtents.clearPlan
  unfold SpliceAlone at slots
  have planCleared : s.planCleared.slitter = s.setupBegun.expireExtents.slitter := (congrArg State.slitter slots :)
  have same : s.planCleared.station st = s.station st :=
    congrArg (fun v : SlitterUnit => v.stations.get st) (planCleared.trans (expireExtents_mapAlone s.setupBegun).slitter)
  have cleared : s.clearLine.station st = s.planCleared.clearSlitter.station st :=
    congrArg (fun v : SlitterUnit => v.stations.get st) slitter
  rw [cleared, clearSlitter_station, same]

theorem clearLine_tool? {st : Station} {k : ToolKind} {n : Nat} {v : Tool} (h : s.tool? st k n = some v) :
    s.clearLine.tool? st k n = some v.lose := by
  unfold State.tool? at *
  rw [clearLine_station, clear_tools, nth1_map, h]
  rfl

/-- Settles O56. -/
theorem clearLineDiscardsThePlan : Obligations.ClearLineDiscardsThePlan := by
  intro p tag s heard quiet
  refine ⟨fun setup => ?_, fun tracking => ?_⟩
  · exact exec_refused .state rfl quiet heard (if_neg (by simp [State.tracking, setup]))
  · let r := s.withFrame p (doneFrame 0x09 tag [])
    have idle : r.clearLine.work = [] := clearLine_work ((withFrame_work _ _ _).trans quiet)
    have verdict : verdictOf (.clearLine p tag) s = .ok State.clearLine := if_pos (by simp [State.tracking, tracking])
    have done : exec (.clearLine p tag) s = .next r.clearLine := by
      rw [exec_ok (i := .clearLine p tag) (f := State.clearLine) rfl heard verdict, settled_nil _ idle]
    obtain ⟨part, lmu, profile, dry, plan, book, -, slitter⟩ := clearLine_blocks r
    obtain ⟨track, markers, lanes⟩ := clearMap_map r.planCleared.clearSlitter
    refine ⟨r.clearLine, done, joinedBy_of_untouched fun q => (setupBegun_ports r q).trans (clearLine_ports r q), part, lmu,
      profile, idle, dry, plan, ?_, fun x => ?_, ?_, fun st => ?_, track, ?_, fun l => ?_,
      fun classes => clearLine_raises (s := r) ((congrArg List.length (withFrame_classes s p _ _)).trans classes)⟩
    · refine book.trans (List.map_congr_left fun o _ => ?_)
      unfold OrderRec.lineCleared
      cases o.phase <;> rfl
    · have cleared : SlotCleared (s.stream x) (r.clearLine.stream x) := clearLine_slot r x
      refine ⟨cleared.slot, cleared.running, cleared.broken, cleared.linkFault, fun arm => ⟨cleared.stand arm, ?_,
        cleared.others arm⟩⟩
      rintro ⟨v, slot, chosen⟩
      exact cleared.chosen v arm slot chosen
    · exact congrArg SlitterUnit.moves slitter
    · have cleared : r.clearLine.station st = (s.station st).clear := clearLine_station r st
      rw [cleared]
      refine ⟨?_, rfl, rfl, rfl, fun k n v held => ?_⟩
      · unfold StationRec.clear
        cases (s.station st).state <;> rfl
      · rw [clearLine_tool? (s := r) held, lose_eq]
    · exact markers.trans (planCleared_map r).2
    · have same : r.planCleared.clearSlitter.lane l = s.lane l := congrArg (PerLane.get · l) (planCleared_map r).1
      have cleared : r.clearLine.lane l = { r.planCleared.clearSlitter.lane l with marks := [], unsynced := true } := lanes l
      rw [cleared, same]

end Sys2Proof.Machine
end


section
/-! PROOF. Action Done (R162, R163, R143, R144), and O42. -/

namespace Sys2Proof.Machine

variable {s t u : State} {st : Station} {c d : Claim}

/-! ### A claim that no extent holds -/

theorem Extent.closeClaim_claims {x : Extent} {e : Pos} (h : c ∈ (x.closeClaim d e).claims) : c ∈ x.claims := by
  unfold Extent.closeClaim at h
  dsimp only at h
  split at h
  · cases h
  · exact (List.mem_filter.mp h).1

theorem ClaimAbsent.closeClaim (h : s.ClaimAbsent c) (d : Claim) (e : Pos) : (s.closeClaim d e).ClaimAbsent c := by
  intro y mem holds
  rw [closeClaim_mem] at mem
  split at mem
  · obtain ⟨⟨x, before, rfl⟩, -, -⟩ := mem
    refine h x before ?_
    split at holds
    · exact Extent.closeClaim_claims holds
    · exact holds
  · exact h y mem holds

/-! ### What a setup leaves of its station (R133) -/

/-- What the acts that follow a setup's start keep: the Dry Action List, a TOOL_LOST claim closed, the station's layout and
order, and that it is not DOWN. -/
structure SetupKept (st : Station) (s t : State) : Prop where
  dry : t.dry = s.dry
  lost : ∀ x, s.ClaimAbsent (.toolLost x) → t.ClaimAbsent (.toolLost x)
  layout : (t.station st).layout = (s.station st).layout
  order : (t.station st).order = (s.station st).order
  up : (s.station st).state ≠ .down → (t.station st).state ≠ .down

theorem SetupKept.refl (s : State) : SetupKept st s s := ⟨rfl, fun _ h => h, rfl, rfl, fun h => h⟩

theorem SetupKept.trans (h : SetupKept st s t) (k : SetupKept st t u) : SetupKept st s u where
  dry := k.dry.trans h.dry
  lost := fun x a => k.lost x (h.lost x a)
  layout := k.layout.trans h.layout
  order := k.order.trans h.order
  up := fun a => k.up (h.up a)

/-- A change of the map that keeps a closed TOOL_LOST claim closed. -/
theorem SetupKept.of_mapAlone (h : MapAlone s t) (lost : ∀ x, s.ClaimAbsent (.toolLost x) → t.ClaimAbsent (.toolLost x)) :
    SetupKept st s t := by
  have same : t.station st = s.station st := congrArg (fun v : SlitterUnit => v.stations.get st) h.slitter
  exact ⟨h.dry, lost, by rw [same], by rw [same], by rw [same]; exact fun k => k⟩

theorem SetupKept.closeClaim (h : SetupKept st s t) (c : Claim) (e : Pos) : SetupKept st s (t.closeClaim c e) :=
  h.trans (.of_mapAlone (closeClaim_mapAlone _ _ _) fun _ a => ClaimAbsent.closeClaim a c e)

theorem SetupKept.insertExtent (h : SetupKept st s t) {x : Extent} (free : x.claims = []) : SetupKept st s (t.insertExtent x) :=
  h.trans (.of_mapAlone (insertExtent_mapAlone _ _) fun _ a => ClaimAbsent.insertExtent a (by rw [free]; exact List.not_mem_nil))

theorem SetupKept.replan (h : SetupKept st s t) : SetupKept st s t.replan :=
  h.trans (.of_mapAlone (replan_mapAlone _) fun _ a => by unfold State.ClaimAbsent; rw [replan_map]; exact a)

theorem SetupKept.modifyWindow (h : SetupKept st s t) (id : Nat) (f : WindowOrder → WindowOrder) :
    SetupKept st s (t.modifyWindow id f) := ⟨h.dry, h.lost, h.layout, h.order, h.up⟩

theorem SetupKept.raise (h : SetupKept st s t) (n : Notice) : SetupKept st s (t.raise n) :=
  ⟨h.dry, h.lost, h.layout, h.order, h.up⟩

theorem SetupKept.dropMoves (h : SetupKept st s t) (f : MoveEntry → Bool) : SetupKept st s (t.dropMoves f) :=
  ⟨h.dry, h.lost, h.layout, h.order, h.up⟩

theorem SetupKept.joinMoves (h : SetupKept st s t) (ms : List MoveEntry) : SetupKept st s (t.joinMoves ms) := by
  unfold State.joinMoves
  rcases State.raiseIf_eq (s := { t with slitter := { t.slitter with moves := t.slitter.moves ++ ms } }) (!ms.isEmpty) .movesReady
    with e | e <;> rw [e] <;> exact ⟨h.dry, h.lost, h.layout, h.order, h.up⟩

theorem SetupKept.setStation (h : SetupKept st s t) {r : StationRec}
    (layout : r.layout = (t.station st).layout := by rfl) (order : r.order = (t.station st).order := by rfl)
    (up : (t.station st).state ≠ .down → r.state ≠ .down := by exact fun k => k) :
    SetupKept st s (t.setStation st r) := by
  refine h.trans ⟨rfl, fun _ a => a, ?_, ?_, ?_⟩ <;> rw [State.station_setStation]
  · exact layout
  · exact order
  · exact up

theorem SetupKept.loseMoves (h : SetupKept st s t) : SetupKept st s (t.loseMoves st) :=
  (h.setStation).dropMoves _

theorem SetupKept.assignLayout (h : SetupKept st s t) (l : Layout) (keep : Bool) : SetupKept st s (t.assignLayout st l keep) :=
  ((h.setStation).dropMoves _).joinMoves _

theorem SetupKept.failStation (h : SetupKept st s t) : SetupKept st s (t.failStation st) :=
  (h.loseMoves.setStation (r := { (t.loseMoves st).station st with state := .failed, current := .fail }) (up := nofun)).raise _

theorem SetupKept.lapseSwap (h : SetupKept st s t) (l : LateSwap) : SetupKept st s (t.lapseSwap st l) :=
  (((h.closeClaim _ _).modifyWindow _ _).setStation).replan

theorem SetupKept.resolveSwap (h : SetupKept st s t) (l : LateSwap) (x : Pos) : SetupKept st s (t.resolveSwap st l x) := by
  have closed := (h.modifyWindow l.order fun w =>
    { w with replan := some { x := x, drop := { station := st }, lift := l.old.map fun o => { station := o } } }).closeClaim
      (.slitNotReady st) x
  unfold State.resolveSwap
  dsimp only
  split
  · exact ((closed.insertExtent (by rfl)).setStation).replan
  · exact (closed.setStation).replan

theorem SetupKept.settleSwap (h : SetupKept st s t) : SetupKept st s (t.settleSwap st) := by
  unfold State.settleSwap
  split
  · exact h
  · next l _ =>
    split
    · split
      · exact h.resolveSwap l _
      · exact h.lapseSwap l
    · exact h

theorem SetupKept.becomeReady (h : SetupKept st s t) : SetupKept st s (t.becomeReady st) :=
  ((h.setStation (r := { t.station st with state := .ready, current := .pass }) (up := nofun)).raise _).settleSwap

/-- A setup begun for a demand: the station holds its layout and order, the order its station, and the station's entries have
left the move list (R133, steps 1 to 3). -/
def State.setupTaken (s : State) (st : Station) (d : Demand) : State :=
  ((s.setStation st { s.station st with
      previous := (s.station st).current, current := .none, layout := some d.layout, order := some d.order }).modifyWindow
    d.order fun w => { w with setupOn := some st }).dropMoves fun m => m.station == st

theorem startSetup_eq (s : State) (st : Station) (d : Demand) : s.startSetup st d =
    if ((s.setupTaken st d).station st).canPlace d.layout then
      let v := (s.setupTaken st d).assignLayout st d.layout false
      if (v.station st).owes then v.setStation st { v.station st with state := .setting } else v.becomeReady st
    else (s.setupTaken st d).failStation st := rfl

theorem setupTaken_station (s : State) (st : Station) (d : Demand) : (s.setupTaken st d).station st =
    { s.station st with
      previous := (s.station st).current, current := .none, layout := some d.layout, order := some d.order } :=
  State.station_setStation _ _ _

theorem startSetup_kept (s : State) (st : Station) (d : Demand) : SetupKept st (s.setupTaken st d) (s.startSetup st d) := by
  have taken : SetupKept st (s.setupTaken st d) (s.setupTaken st d) := .refl _
  rw [startSetup_eq]
  dsimp only
  split
  · split
    · exact (taken.assignLayout d.layout false).setStation (up := nofun)
    · exact (taken.assignLayout d.layout false).becomeReady
  · exact taken.failStation

/-- A station that holds no late swap sets up without a change of the map. -/
theorem becomeReady_map (h : (s.station st).late = none) : (s.becomeReady st).map = s.map := by
  unfold State.becomeReady State.settleSwap
  have late : (((s.setStation st { s.station st with state := .ready, current := .pass }).raise .setupDone).station st).late =
      none := by
    change ((s.setStation st _).station st).late = none
    rw [State.station_setStation]
    exact h
  rw [late]
  rfl

theorem assignLayout_map (s : State) (st : Station) (l : Layout) (keep : Bool) : (s.assignLayout st l keep).map = s.map := by
  unfold State.assignLayout State.joinMoves
  rw [raiseIf_map]
  rfl

theorem failStation_map (s : State) (st : Station) : (s.failStation st).map = s.map := rfl

theorem setupTaken_map (s : State) (st : Station) (d : Demand) : (s.setupTaken st d).map = s.map := rfl

theorem assignLayout_late (s : State) (st : Station) (l : Layout) (keep : Bool) :
    ((s.assignLayout st l keep).station st).late = (s.station st).late := by
  have joined : ∀ (v : State) (ms : List MoveEntry), (v.joinMoves ms).station st = v.station st := fun v ms => by
    unfold State.joinMoves State.raiseIf
    split <;> rfl
  unfold State.assignLayout
  rw [joined]
  change ((s.setStation st _).station st).late = _
  rw [State.station_setStation]

theorem startSetup_map (d : Demand) (h : (s.station st).late = none) : (s.startSetup st d).map = s.map := by
  have late : ((s.setupTaken st d).station st).late = none := by rw [setupTaken_station]; exact h
  rw [startSetup_eq, ← setupTaken_map s st d]
  dsimp only
  split
  · split
    · exact assignLayout_map _ _ _ _
    · exact (becomeReady_map ((assignLayout_late _ _ _ _).trans late)).trans (assignLayout_map _ _ _ _)
  · exact failStation_map _ _

/-! ### A station lowered (R143) and lifted (R144) -/

/-- A DROP of a station: it is DOWN; a READY or DOWN one is changed in nothing else, any other loses its moves, and the web
from L + D is TOOL_LOST. -/
theorem dropStation_cases (s : State) (st : Station) :
    (s.dropStation st).dry = s.dry ∧ ((s.dropStation st).station st).state = .down ∧
    ((s.station st).state = .ready ∨ (s.station st).state = .down →
      (s.dropStation st).station st = { s.station st with state := .down } ∧ (s.dropStation st).map = s.map ∧
      (s.dropStation st).slitter.moves = s.slitter.moves) ∧
    ((s.station st).state ≠ .ready → (s.station st).state ≠ .down →
      (s.dropStation st).opensClaim .toolLost (.toolLost st) (s.knife + s.stationDistance st) ∧
      (s.dropStation st).slitter.moves = s.slitter.moves.filter (fun e => e.station != st)) := by
  by_cases calm : (s.station st).state = .ready ∨ (s.station st).state = .down
  · have form : s.dropStation st = (s.setStation st { s.station st with state := .down }).push [.demand st] := by
      unfold State.dropStation
      dsimp only
      rw [if_pos (by simpa using calm)]
    have station : (s.dropStation st).station st = { s.station st with state := .down } := by
      rw [form]
      exact State.station_setStation _ _ _
    refine ⟨by rw [form]; rfl, by rw [station], fun _ => ⟨station, by rw [form]; rfl, by rw [form]; rfl⟩, fun ready down => ?_⟩
    exact absurd calm (not_or.mpr ⟨ready, down⟩)
  · have alone := insertExtent_mapAlone (s.loseMoves st) (.opened (s.knife + s.stationDistance st) .toolLost (.toolLost st))
    generalize form : (s.loseMoves st).insertExtent (.opened (s.knife + s.stationDistance st) .toolLost (.toolLost st)) = v at alone
    have out : s.dropStation st = (v.setStation st { v.station st with state := .down }).push [.demand st] := by
      unfold State.dropStation
      dsimp only
      rw [if_neg (by simpa using calm), form]
    refine ⟨by rw [out]; exact alone.dry, ?_, fun h => absurd h calm, fun _ _ => ⟨?_, ?_⟩⟩
    · rw [out]
      exact congrArg StationRec.state (State.station_setStation _ _ _)
    · rw [out]
      change v.opensClaim _ _ _
      rw [← form]
      exact insertExtent_opened _ _ _ _
    · rw [out]
      exact congrArg SlitterUnit.moves alone.slitter

/-- A DOWN station lifted, before the setup of its demand. -/
def State.lifted (s : State) (st : Station) : State :=
  (s.setStation st { s.station st with state := .idle }).closeClaim (.toolLost st) (s.knife + s.stationDistance st)

theorem lifted_station (s : State) (st : Station) : (s.lifted st).station st = { s.station st with state := .idle } := by
  have same := (closeClaim_mapAlone (s.setStation st { s.station st with state := .idle }) (.toolLost st)
    (s.knife + s.stationDistance st)).slitter
  exact (congrArg (fun v : SlitterUnit => v.stations.get st) same).trans (State.station_setStation _ _ _)

theorem liftStation_up (h : (s.station st).state ≠ .down) : s.liftStation st = s := by
  unfold State.liftStation
  rw [if_neg (by simpa using h)]

theorem liftStation_idle (h : (s.station st).state = .down) (k : (s.station st).demand = none) :
    s.liftStation st = s.lifted st := by
  have demand : ((s.lifted st).station st).demand = none := by rw [lifted_station]; exact k
  unfold State.liftStation
  rw [if_pos (by simpa using h)]
  change (s.lifted st).setupForDemand st = _
  unfold State.setupForDemand
  rw [demand]

theorem liftStation_setup {d : Demand} (h : (s.station st).state = .down) (k : (s.station st).demand = some d) :
    s.liftStation st = (s.lifted st).startSetup st d := by
  have demand : ((s.lifted st).station st).demand = some d := by rw [lifted_station]; exact k
  unfold State.liftStation
  rw [if_pos (by simpa using h)]
  change (s.lifted st).setupForDemand st = _
  unfold State.setupForDemand
  rw [demand]

theorem lifted_dry (s : State) (st : Station) : (s.lifted st).dry = s.dry := (closeClaim_mapAlone _ _ _).dry

theorem liftStation_dry (s : State) (st : Station) : (s.liftStation st).dry = s.dry := by
  by_cases down : (s.station st).state = .down
  · cases demand : (s.station st).demand with
    | none => rw [liftStation_idle down demand, lifted_dry]
    | some d => rw [liftStation_setup down demand, (startSetup_kept _ _ _).dry]; exact lifted_dry _ _
  · rw [liftStation_up down]

/-- A LIFT of a DOWN station closes its TOOL_LOST claim at L + D; it becomes IDLE, or the setup of its demand begins. -/
theorem liftStation_down (down : (s.station st).state = .down) :
    (s.liftStation st).ClaimAbsent (.toolLost st) ∧
    ((s.station st).late = none ∨ (s.station st).demand = none →
      s.closedAt (s.liftStation st) (.toolLost st) (s.knife + s.stationDistance st)) ∧
    ((s.station st).demand = none → (s.liftStation st).station st = { s.station st with state := .idle }) ∧
    (∀ d, (s.station st).demand = some d → ((s.liftStation st).station st).state ≠ .down ∧
      ((s.liftStation st).station st).layout = some d.layout ∧ ((s.liftStation st).station st).order = some d.order) := by
  have closed : s.closedAt (s.lifted st) (.toolLost st) (s.knife + s.stationDistance st) :=
    closeClaim_closedAt (s.setStation st { s.station st with state := .idle }) _ _
  cases demand : (s.station st).demand with
  | none =>
    rw [liftStation_idle down demand]
    exact ⟨closed.1, fun _ => closed, fun _ => lifted_station s st, nofun⟩
  | some d =>
    have kept := startSetup_kept (s.lifted st) st d
    have taken := setupTaken_station (s.lifted st) st d
    rw [liftStation_setup down demand]
    refine ⟨kept.lost st closed.1, fun free => ?_, nofun, fun _ same => ?_⟩
    · have late : ((s.lifted st).station st).late = none := by
        rw [lifted_station]
        exact free.resolve_right nofun
      unfold State.closedAt
      rw [startSetup_map d late]
      exact closed
    · cases same
      refine ⟨kept.up ?_, kept.layout.trans (by rw [taken]), kept.order.trans (by rw [taken])⟩
      rw [taken, lifted_station]
      nofun

/-! ### A cut counted (R59) -/

theorem order?_modifyOrder {id : Nat} {o : OrderRec} {f : OrderRec → OrderRec} (keeps : ∀ r, (f r).fig.id = r.fig.id)
    (h : s.order? id = some o) : (s.modifyOrder id f).order? id = some (f o) := by
  have own : o.fig.id = id := eq_of_beq (List.find?_some (p := fun r : OrderRec => r.fig.id == id) h)
  have unmoved : ((fun r : OrderRec => r.fig.id == id) ∘ fun r => if r.fig.id == id then f r else r) = fun r => r.fig.id == id := by
    funext r
    simp only [Function.comp_apply]
    split
    · rw [keeps]
    · rfl
  unfold State.order? State.modifyOrder at *
  rw [List.find?_map, unmoved, h]
  simp [own]

theorem countOrder_held {id : Nat} {o : OrderRec} {w : WindowOrder} (f : OrderCounts → OrderCounts)
    (window : s.windowOrder? id = some w) (order : s.order? id = some o) :
    (s.countOrder id f).order? id = some (o.recount f) := by
  unfold State.countOrder
  rw [window]
  exact order?_modifyOrder (fun _ => rfl) order

theorem countOrder_left {id : Nat} (f : OrderCounts → OrderCounts) (h : s.windowOrder? id = none) : s.countOrder id f = s := by
  unfold State.countOrder
  rw [h]
  rfl

/-- Counting an order changes the book alone. -/
theorem countOrder_frame (s : State) (id : Nat) (f : OrderCounts → OrderCounts) :
    s.countOrder id f = { s with book := (s.countOrder id f).book } := by
  unfold State.countOrder
  split <;> rfl

/-- The counts that an executed cut adds to, disposition by disposition. -/
theorem count_eq (r : ActionRec) (c : OrderCounts) : r.count c = { c with
    good := if r.disposition = some .good then min (c.good + 1) 1009998 else c.good
    stacksDone := if r.disposition = some .good ∧ r.lastOfStack = true then min (c.stacksDone + 1) 1009998 else c.stacksDone
    reject := if r.disposition = some .reject then min (c.reject + 1) 1009998 else c.reject
    waste := if r.disposition = some .waste then min (c.waste + 1) 1009998 else c.waste } := by
  unfold ActionRec.count
  cases disposition : r.disposition with
  | none => rfl
  | some v =>
    cases v with
    | good => cases last : r.lastOfStack <;> rfl
    | reject => rfl
    | waste => rfl

/-! ### A record executed (R163) -/

/-- A cut reported: it leaves the released set, and ACTION_OFF is raised where it was off its position. -/
def State.cutReported (s : State) (r : ActionRec) (m : Nat) : State :=
  (s.dropReleased r.sequence).raiseIf (s.profile.line.execTolerance < ((m : Int) - r.position).natAbs) .actionOff

/-- A cut executed, before the acts due: what its report does, and its order's counts. -/
def State.cutDone (s : State) (r : ActionRec) (m : Nat) : State := (s.cutReported r m).countOrder r.order r.count

theorem cutReported_eq (s : State) (r : ActionRec) (m : Nat) :
    s.cutReported r m = { s.dropReleased r.sequence with ports := (s.cutReported r m).ports } := by
  unfold State.cutReported State.raiseIf
  split <;> rfl

theorem cutReported_order? (s : State) (r : ActionRec) (m id : Nat) : (s.cutReported r m).order? id = s.order? id := by
  rw [cutReported_eq]
  rfl

theorem cutReported_windowOrder? (s : State) (r : ActionRec) (m id : Nat) :
    (s.cutReported r m).windowOrder? id = s.windowOrder? id := by
  rw [cutReported_eq]
  rfl

theorem execute_cut {r : ActionRec} (m : Nat) (h : r.kind = .cut) :
    s.execute r m = (s.cutDone r m).push (afterRemoval r) := by
  unfold State.execute
  dsimp only
  rw [if_pos (by simpa using h)]
  rfl

theorem execute_drop {r : ActionRec} (m : Nat) (h : r.kind = .drop) (k : r.station = some st) :
    s.execute r m = ((s.dropReleased r.sequence).dropStation st).push (afterRemoval r) := by
  unfold State.execute State.moveStation
  simp only [h, k]
  rfl

theorem execute_lift {r : ActionRec} (m : Nat) (h : r.kind = .lift) (k : r.station = some st) :
    s.execute r m = ((s.dropReleased r.sequence).liftStation st).push (afterRemoval r) := by
  unfold State.execute State.moveStation
  simp only [h, k]
  rfl

theorem cutDone_frame (s : State) (r : ActionRec) (m : Nat) :
    { s.cutDone r m with book := s.book, ports := s.ports } = s.dropReleased r.sequence := by
  unfold State.cutDone
  rw [countOrder_frame, cutReported_eq]
  rfl

/-- A record that leaves the released set leaves the rest of the Dry Action List as it is. -/
theorem execute_dry (s : State) (r : ActionRec) (m : Nat) : (s.execute r m).dry = (s.dropReleased r.sequence).dry := by
  by_cases cut : r.kind = .cut
  · rw [execute_cut m cut]
    exact (congrArg State.dry (cutDone_frame s r m)).trans rfl
  · unfold State.execute
    dsimp only
    rw [if_neg (by simpa using cut)]
    change (State.moveStation _ r).dry = _
    unfold State.moveStation
    split
    · exact (dropStation_cases _ _).1
    · exact liftStation_dry _ _
    · rfl

/-- A cut off its position raises ACTION_OFF (R163). -/
theorem cutDone_raises (r : ActionRec) {m : Nat} (classes : (s.port .dry).classes.length = 10)
    (off : s.profile.line.execTolerance < ((m : Int) - r.position).natAbs) : ((s.cutDone r m).port .dry).rawOf 3 = true := by
  have port : (s.cutDone r m).port .dry = ((s.dropReleased r.sequence).raise .actionOff).port .dry := by
    unfold State.cutDone State.cutReported State.raiseIf
    rw [countOrder_frame, if_pos (decide_eq_true off)]
    rfl
  rw [port]
  exact raise_raw (s.dropReleased r.sequence) .actionOff (by
    change 3 < (s.port .dry).classes.length
    rw [classes]
    decide)

/-- The order of an executed cut, where the window holds it. -/
theorem cutDone_order (r : ActionRec) (m : Nat) {o : OrderRec} {w : WindowOrder} (order : s.order? r.order = some o)
    (window : s.windowOrder? r.order = some w) : (s.cutDone r m).order? r.order = some (o.recount r.count) :=
  countOrder_held r.count ((cutReported_windowOrder? s r m _).trans window) ((cutReported_order? s r m _).trans order)

theorem cutDone_left (r : ActionRec) (m : Nat) (h : s.windowOrder? r.order = none) : (s.cutDone r m).book = s.book := by
  unfold State.cutDone
  rw [countOrder_left _ ((cutReported_windowOrder? s r m _).trans h), cutReported_eq]
  rfl

theorem afterRemoval_cut {r : ActionRec} (h : r.kind = .cut) :
    afterRemoval r = Task.expiry :: (if r.order = 0 then [] else [Task.close r.order]) ++ [Task.release] := by
  unfold afterRemoval
  rw [h]
  by_cases none : r.order = 0 <;> simp [none]

/-! ### The verdict (R162) -/

theorem actionDoneVerdict_range {q m : Nat} (s : State) (h : q = 0 ∨ 2 ^ 40 - 1 < m) : actionDoneVerdict q m s = .no .range := by
  have limit : Config.counterMax = 2 ^ 40 - 1 := rfl
  unfold actionDoneVerdict
  rw [limit, if_pos (by simpa using h)]

theorem actionDoneVerdict_found {q m : Nat} {r : ActionRec} (h : q ≠ 0) (k : m ≤ 2 ^ 40 - 1)
    (found : s.dry.released.find? (fun r => r.sequence == q) = some r) :
    actionDoneVerdict q m s = .ok fun s => s.execute r m := by
  have limit : Config.counterMax = 2 ^ 40 - 1 := rfl
  unfold actionDoneVerdict
  rw [limit, if_neg (by simp only [Bool.or_eq_true, beq_iff_eq, decide_eq_true_eq]; omega), found]

theorem actionDoneVerdict_missing {q m : Nat} (h : q ≠ 0) (k : m ≤ 2 ^ 40 - 1) (gone : ∀ r ∈ s.dry.released, r.sequence ≠ q) :
    actionDoneVerdict q m s = .no (if s.dry.givenOut q then .late else .unknown) := by
  have limit : Config.counterMax = 2 ^ 40 - 1 := rfl
  have missing : s.dry.released.find? (fun r => r.sequence == q) = none :=
    List.find?_eq_none.mpr fun r mem => by simpa using gone r mem
  unfold actionDoneVerdict
  rw [limit, if_neg (by simp only [Bool.or_eq_true, beq_iff_eq, decide_eq_true_eq]; omega), missing]
  exact (apply_ite Verdict.no _ _ _).symm

theorem givenOut_iff {q : Nat} (d : DryList) (h : q ≠ 0) : d.givenOut q = true ↔ d.wrapped = true ∨ q < d.sequence := by
  unfold DryList.givenOut
  simp [Nat.one_le_iff_ne_zero, h]

theorem actionDone_rule : Rule.ActionDone := by
  intro p tag q m s heard left
  refine ⟨fun bad quiet => exec_refused .range rfl quiet heard (actionDoneVerdict_range s bad), fun hq hm gone quiet => ?_,
    fun r hq hm found => ?_⟩
  · have verdict := actionDoneVerdict_missing hq hm gone
    by_cases given : s.dry.wrapped = true ∨ q < s.dry.sequence
    · rw [if_pos given]
      rw [if_pos ((givenOut_iff s.dry hq).mpr given)] at verdict
      exact exec_refused .late rfl quiet heard verdict
    · rw [if_neg given]
      rw [if_neg (mt (givenOut_iff s.dry hq).mp given)] at verdict
      exact exec_refused .unknown rfl quiet heard verdict
  · have verdict := actionDoneVerdict_found hq hm found
    have sequence : r.sequence = q := eq_of_beq (List.find?_some (p := fun r : ActionRec => r.sequence == q) found)
    have removed : ((s.withFrame p (doneFrame 0x21 tag [])).dropReleased r.sequence).dry = { s.dry with released := left } := by
      rw [sequence]
      rfl
    refine ⟨(s.withFrame p (doneFrame 0x21 tag [])).execute r m,
      exec_ok (i := .actionDone p tag q m) (f := fun s => s.execute r m) rfl heard verdict,
      joinedBy_of_untouched ((Untouched.refl _).execute r m).ports, (execute_dry _ _ _).trans removed, fun cut => ?_,
      fun st drop station => ?_, fun st lift station => ?_⟩
    · have frame := cutDone_frame (s.withFrame p (doneFrame 0x21 tag [])) r m
      rw [execute_cut m cut]
      refine ⟨?_, ?_, fun o w order window => ?_, fun out => cutDone_left r m out, fun classes off => ?_⟩
      · have work : ((s.withFrame p (doneFrame 0x21 tag [])).cutDone r m).work = s.work := (congrArg State.work frame).trans rfl
        unfold State.push
        dsimp only
        rw [work, afterRemoval_cut cut]
        simp
      · exact congrArg (fun v : State => { v with dry := s.dry, book := s.book, ports := s.ports, work := s.work }) frame
      · exact ⟨_, cutDone_order r m order window, rfl, rfl, count_eq r o.counts⟩
      · exact cutDone_raises r ((congrArg List.length (withFrame_classes s p _ .dry)).trans classes) off
    · rw [execute_drop m drop station]
      exact (dropStation_cases ((s.withFrame p (doneFrame 0x21 tag [])).dropReleased r.sequence) st).2
    · rw [execute_lift m lift station]
      exact ⟨fun up => (congrArg State.slitter
          (liftStation_up (s := (s.withFrame p (doneFrame 0x21 tag [])).dropReleased r.sequence) up)).trans rfl,
        fun down => liftStation_down (s := (s.withFrame p (doneFrame 0x21 tag [])).dropReleased r.sequence) down⟩

/-! ### The expiry test (R25) -/

theorem expires_iff (s : State) (x : Extent) : s.expires x = true ↔
    ∃ e, x.finish = some e ∧ e ≤ s.knife ∧ ∀ r ∈ s.dry.released, r.position < x.start ∨ e < r.position := by
  unfold State.expires
  cases finish : x.finish with
  | none => simp
  | some e => simp [or_iff_not_imp_left]

theorem expiry_rule : Rule.Expiry := by
  intro s t gone
  have any : (s.map.track.any s.expires) = true ↔ ∃ x ∈ s.map.track, gone x := by
    simp only [List.any_eq_true, expires_iff, gone]
  refine ⟨fun none => ?_, ⟨s.expires, expires_iff s, expireExtents_track s⟩, fun some tracking => ?_, ?_⟩
  · refine if_neg fun found => ?_
    obtain ⟨x, mem, h⟩ := any.mp found
    exact none x mem h
  · have form : t = _ := if_pos (any.mpr some)
    rw [form, replan_work]
    exact congrArg (s.work ++ ·) (if_pos tracking)
  · change { s.expireExtents with map := { s.expireExtents.map with track := s.map.track }, work := s.work } = s
    unfold State.expireExtents
    split
    · unfold State.replan
      split <;> rfl
    · rfl

/-- Settles O42. -/
theorem actionDoneExecutesTheRecord : Obligations.ActionDoneExecutesTheRecord := ⟨actionDone_rule, expiry_rule⟩

end Sys2Proof.Machine
end

section
/-! PROOF. Order figures and the format test (R45, R48). -/

namespace Sys2Proof.Machine

/-! ### Positions in order (R45, R48) -/

theorem ascending_iff (l : List Nat) : ascending l = true ↔ l.Pairwise (· < ·) := by
  induction l with
  | nil => simp [ascending]
  | cons x l ih =>
    cases l with
    | nil => simp [ascending]
    | cons y l =>
      rw [ascending, Bool.and_eq_true, decide_eq_true_eq, ih, List.pairwise_cons (l := y :: l)]
      refine and_congr_left fun sorted => ?_
      simpa using fun below z m => below.trans (List.rel_of_pairwise_cons sorted m)

/-- Neighbours that lie apart put every two positions apart. -/
theorem spaced_iff (d : Nat) (l : List Nat) : spaced d l = true ↔ l.Pairwise fun x y => x + d ≤ y := by
  induction l with
  | nil => simp [spaced]
  | cons x l ih =>
    cases l with
    | nil => simp [spaced]
    | cons y l =>
      rw [spaced, Bool.and_eq_true, decide_eq_true_eq, ih, List.pairwise_cons (l := y :: l)]
      refine and_congr_left fun apart => ⟨fun below z m => ?_, fun below => below y List.mem_cons_self⟩
      rcases List.mem_cons.mp m with rfl | m
      · exact below
      · exact (below.trans (Nat.le_add_right y d)).trans (List.rel_of_pairwise_cons apart m)

theorem layoutInRange_iff (l : RawLayout) : layoutInRange l = true ↔
    2 ≤ l.slitCount ∧ l.slitCount ≤ 8 ∧ l.scoreCount ≤ 10 ∧
    (∀ x ∈ (layoutOf l).slits ++ (layoutOf l).scores, x ≤ 28000) ∧
    (layoutOf l).slits.Pairwise (· < ·) ∧ (layoutOf l).scores.Pairwise (· < ·) := by
  simp only [layoutInRange, Bool.and_eq_true, ascending_iff, List.all_eq_true, decide_eq_true_eq, List.forall_mem_append, and_assoc]
  rfl

/-! ### The figures and the format test -/

theorem figuresInRange_iff (o : RawOrder) : figuresInRange o = true ↔
    1 ≤ o.id ∧ o.id ≤ 4294967295 ∧
    o.grade1 ≤ 255 ∧ o.grade2 ≤ 255 ∧ o.grade3 ≤ 255 ∧ o.grade4 ≤ 255 ∧ o.grade5 ≤ 255 ∧
    (o.grade1 ≠ 0 ∨ o.grade2 ≠ 0 ∨ o.grade3 ≠ 0 ∨ o.grade4 ≠ 0 ∨ o.grade5 ≠ 0) ∧
    48000 ≤ o.sf ∧ o.sf ≤ 1280000 ∧ 1 ≤ o.t ∧ o.t ≤ 999999 ∧ o.a ≤ 9999 ∧ o.m ≤ 255 ∧ 1 ≤ o.q ∧ o.q ≤ 9999 ∧
    layoutInRange o.layout = true := by
  have low : (Stream.all.all fun x => (gradesOf o).get x ≤ 255) = true ↔
      o.grade1 ≤ 255 ∧ o.grade2 ≤ 255 ∧ o.grade3 ≤ 255 ∧ o.grade4 ≤ 255 ∧ o.grade5 ≤ 255 := by
    simp only [Stream.all, List.all_cons, List.all_nil, Bool.and_true, Bool.and_eq_true, decide_eq_true_eq]
    rfl
  have used : (Stream.all.any fun x => (gradesOf o).get x != 0) = true ↔
      o.grade1 ≠ 0 ∨ o.grade2 ≠ 0 ∨ o.grade3 ≠ 0 ∨ o.grade4 ≠ 0 ∨ o.grade5 ≠ 0 := by
    simp only [Stream.all, List.any_cons, List.any_nil, Bool.or_false, Bool.or_eq_true, bne_iff_ne]
    rfl
  simp only [figuresInRange, targetInRange, allowanceInRange, marginInRange, stackInRange, Bool.and_eq_true, decide_eq_true_eq,
    low, used, and_assoc]

theorem formatPasses_iff (p : Profile) (f : OrderFigures) : p.formatPasses f = true ↔
    f.layout.slits.Pairwise (fun x y => x + p.slitter.minSlitSpacing ≤ y) ∧
    f.layout.scores.Pairwise (fun x y => x + p.slitter.minScoreSpacing ≤ y) ∧
    (∀ x, f.grades.get x ≠ 0 ↔ (p.streams.get x).active = true) ∧ (f.sf + 15) / 16 ≤ p.line.h := by
  have grades : (Stream.all.all fun x => (f.grades.get x != 0) == (p.streams.get x).active) = true ↔
      ∀ x, f.grades.get x ≠ 0 ↔ (p.streams.get x).active = true := by
    simp only [List.all_eq_true, mem_streamAll, forall_const, beq_iff_eq]
    refine forall_congr' fun x => ?_
    rw [Bool.eq_iff_iff, bne_iff_ne]
  rw [Profile.formatPasses, Profile.spacingPasses, Bool.and_eq_true, Bool.and_eq_true, Bool.and_eq_true, spaced_iff, spaced_iff,
    grades, decide_eq_true_eq, and_assoc, and_assoc]

/-- Settles O48. -/
theorem orderFiguresAreInRange : Obligations.OrderFiguresAreInRange := by
  refine ⟨fun o => ?_, formatPasses_iff⟩
  rw [figuresInRange_iff, layoutInRange_iff]
  rfl

end Sys2Proof.Machine
end

section
/-! PROOF. The records of the book: Add Order and Amend Order (R44 to R53), and O47 and O49. -/

namespace Sys2Proof.Machine

variable {s t : State}

/-! ### Records by their ids (R44) -/

theorem order?_id {id : Nat} {r : OrderRec} (h : s.order? id = some r) : r.fig.id = id := by simpa using List.find?_some h

theorem order?_none_iff (s : State) (id : Nat) : s.order? id = none ↔ ∀ r ∈ s.book, r.fig.id ≠ id := by
  unfold State.order?
  simp

theorem order?_isSome_iff (s : State) (id : Nat) : (s.order? id).isSome = true ↔ ∃ r ∈ s.book, r.fig.id = id := by
  unfold State.order?
  simp

theorem order?_congr (h : t.book = s.book) (id : Nat) : t.order? id = s.order? id := by
  unfold State.order?
  rw [h]

/-- Another order's record is left alone. -/
theorem order?_modifyOrder_other {id k : Nat} {f : OrderRec → OrderRec} (keeps : ∀ r, (f r).fig.id = r.fig.id) (h : k ≠ id)
    (s : State) : (s.modifyOrder id f).order? k = s.order? k := by
  unfold State.order? State.modifyOrder
  dsimp only
  induction s.book with
  | nil => rfl
  | cons r book ih =>
    rw [List.map_cons, List.find?_cons, List.find?_cons, ih]
    by_cases own : r.fig.id = id
    · have moved : (if (r.fig.id == id) = true then f r else r) = f r := if_pos (beq_iff_eq.mpr own)
      have missed : ((f r).fig.id == k) = false := beq_eq_false_iff_ne.mpr fun e => h (e.symm.trans ((keeps r).trans own))
      have missed' : (r.fig.id == k) = false := beq_eq_false_iff_ne.mpr fun e => h (e.symm.trans own)
      rw [moved, missed, missed']
    · have stays : (if (r.fig.id == id) = true then f r else r) = r := if_neg fun e => own (beq_iff_eq.mp e)
      rw [stays]

/-! ### Recomputations made due -/

theorem replan_eq_due (s : State) :
    s.replan = { s with work := s.work ++ if s.part = .tracking then [.recompute] else [] } := by
  by_cases h : s.part = .tracking
  · rw [if_pos h]
    exact if_pos (by simp [State.tracking, h])
  · rw [if_neg h, List.append_nil]
    exact if_neg (by simp [State.tracking, h])

theorem replan_book (s : State) : s.replan.book = s.book := by
  rw [replan_eq_due]

theorem joinedBy_of_ports {p : Port} {f : Frame} (h : t.ports = (s.withFrame p f).ports) : JoinedBy s t p f :=
  joinedBy_of_untouched fun q => by
    unfold State.port
    rw [h]
    exact .refl _

/-! ### Add Order (R47) -/

/-- The state with an added order's record, and the recomputation that it makes due in TRACKING. -/
def State.orderAdded (s : State) (p : Port) (tag : Byte) (o : RawOrder) : State :=
  { s.withFrame p (doneFrame 0x01 tag [BitVec.ofNat 8 s.book.length]) with
    book := s.book ++ [{ fig := figuresOf o }]
    work := if s.part = .tracking then [.recompute] else [] }

theorem appendOrder_eq (quiet : s.work = []) (p : Port) (tag : Byte) (o : RawOrder) :
    (s.withFrame p (doneFrame 0x01 tag (le 1 s.book.length))).appendOrder (figuresOf o) = s.orderAdded p tag o := by
  have idle : (s.withFrame p (doneFrame 0x01 tag (le 1 s.book.length))).work = [] := (withFrame_work _ _ _).trans quiet
  rw [State.appendOrder, replan_eq_due]
  dsimp only
  rw [idle]
  rfl

/-- The four checks of Add Order, in their order. -/
theorem addOrderVerdict_eq (o : RawOrder) (s : State) : addOrderVerdict o s =
    if 32 ≤ s.book.length then .no .full
    else if (s.order? o.id).isSome then .no .duplicate
    else if !figuresInRange o then .no .range
    else if !s.profile.formatPasses (figuresOf o) then .no .format
    else .done (le 1 s.book.length) id fun s => s.appendOrder (figuresOf o) := rfl

/-- The figures of the book, with those of the added order behind, stay through the acts that follow. -/
theorem orderAdded_figures {o : RawOrder} (distinct : (s.book.map fun r => r.fig.id).Nodup)
    (unheld : ¬ (s.order? o.id).isSome = true) (p : Port) (tag : Byte) :
    (s.orderAdded p tag o).settled.book.map OrderRec.fig = s.book.map OrderRec.fig ++ [figuresOf o] := by
  have ids : ((s.orderAdded p tag o).book.map fun r => r.fig.id).Nodup := by
    unfold State.orderAdded
    rw [List.map_append]
    refine distinct.append (List.nodup_singleton _) fun id m n => unheld ((order?_isSome_iff s o.id).mpr ?_)
    obtain ⟨r, held, rfl⟩ := List.mem_map.mp m
    exact ⟨r, held, List.mem_singleton.mp n⟩
  rw [(settled_untouched _).figures ids, State.orderAdded, List.map_append]
  rfl

/-- Settles O47: the checks are the branches of the verdict, and the acts that follow leave the figures of the book alone. -/
theorem addOrderAppendsTheRecord : Obligations.AddOrderAppendsTheRecord := by
  intro p tag o s heard quiet no held
  have known : (s.order? o.id).isSome = true ↔ held := order?_isSome_iff s o.id
  have verdict : verdictOf (.addOrder p tag o) s = _ := addOrderVerdict_eq o s
  refine ⟨fun full => ?_, fun room taken => ?_, fun room unheld range => ?_, fun room unheld range format => ?_,
    fun room unheld range format => ?_⟩
  · exact exec_refused .full rfl quiet heard (verdict.trans (if_pos full))
  · rw [if_neg (Nat.not_le.mpr room), if_pos (known.mpr taken)] at verdict
    exact exec_refused .duplicate rfl quiet heard verdict
  · rw [if_neg (Nat.not_le.mpr room), if_neg (mt known.mp unheld), if_pos (by simp [range])] at verdict
    exact exec_refused .range rfl quiet heard verdict
  · rw [if_neg (Nat.not_le.mpr room), if_neg (mt known.mp unheld), if_neg (by simp [range]), if_pos (by simp [format])] at verdict
    exact exec_refused .format rfl quiet heard verdict
  · rw [if_neg (Nat.not_le.mpr room), if_neg (mt known.mp unheld), if_neg (by simp [range]), if_neg (by simp [format])] at verdict
    have done : exec (.addOrder p tag o) s = .next (s.orderAdded p tag o).settled := by
      rw [← appendOrder_eq quiet]
      exact exec_done rfl heard verdict
    have kept := settled_untouched (s.orderAdded p tag o)
    exact ⟨⟨done, fun setup => settled_nil _ (if_neg (by rw [setup]; decide))⟩, fun distinct =>
      ⟨_, done, joinedBy_of_untouched kept.ports, orderAdded_figures distinct (mt known.mp unheld) p tag, kept.lmu, kept.profile,
        kept.part, kept.arm⟩⟩

end Sys2Proof.Machine
end

section
/-! PROOF. Amend Order (R50 to R53), and O49. -/

namespace Sys2Proof.Machine

variable {s : State} {x : RawAmend} {r : OrderRec}

/-! ### The checks (R51 to R53) -/

theorem carried_iff (has ok : Bool) : (!has || ok) = true ↔ (has = true → ok = true) := by
  cases has <;> simp

theorem amendInRange_iff (x : RawAmend) : amendInRange x = true ↔
    (x.hasT = true → 1 ≤ x.t ∧ x.t ≤ 999999) ∧ (x.hasA = true → x.a ≤ 9999) ∧ (x.hasM = true → x.m ≤ 255) ∧
    (x.hasQ = true → 1 ≤ x.q ∧ x.q ≤ 9999) ∧ (x.hasLayout = true → layoutInRange x.layout = true) := by
  simp only [amendInRange, Bool.and_eq_true, carried_iff, targetInRange, allowanceInRange, marginInRange, stackInRange,
    decide_eq_true_eq, and_assoc]

/-- Whether an amendment lowers T, A or M (R52). -/
def amendLowers (x : RawAmend) (r : OrderRec) : Prop :=
  (x.hasT = true ∧ x.t < r.fig.t) ∨ (x.hasA = true ∧ x.a < r.fig.a) ∨ (x.hasM = true ∧ x.m < r.fig.m)

/-- Whether an amendment carries the layout of an order whose setup has begun (R52). -/
def State.amendsBegun (s : State) (x : RawAmend) : Prop :=
  x.hasLayout = true ∧ ∃ l ∈ s.lines, l.w.id = x.id ∧ l.w.setupOn ≠ none ∧ l.w.setupOn = l.r.station

/-- Whether a carried layout passes the spacing test and the order's station can place it (R51, R53). -/
def State.amendmentFits (s : State) (x : RawAmend) : Prop :=
  x.hasLayout = true → s.profile.spacingPasses (layoutOf x.layout) = true ∧
    ∀ l ∈ s.lines, l.w.id = x.id → (s.station (s.stationFor l (layoutOf x.layout))).canPlace (layoutOf x.layout) = true

theorem setupBegun_iff (l : Line) : l.setupBegun = true ↔ l.w.setupOn ≠ none ∧ l.w.setupOn = l.r.station := by
  simp [Line.setupBegun, Option.isSome_iff_ne_none]

theorem amendsBegun_iff (s : State) (x : RawAmend) :
    (!x.hasLayout || s.lines.all fun l => l.w.id != x.id || !l.setupBegun) = true ↔ ¬ s.amendsBegun x := by
  have untouched : (s.lines.all fun l => l.w.id != x.id || !l.setupBegun) = true ↔
      ¬ ∃ l ∈ s.lines, l.w.id = x.id ∧ l.w.setupOn ≠ none ∧ l.w.setupOn = l.r.station := by
    simp only [← setupBegun_iff]
    simp [or_iff_not_imp_left]
  rw [carried_iff, untouched, State.amendsBegun, not_and]

theorem amendAllowed_iff (s : State) (r : OrderRec) (x : RawAmend) : s.amendAllowed r x = true ↔
    r.phase = .queued ∨ (r.phase = .planned ∧ r.pinned = false ∧ ¬ amendLowers x r ∧ ¬ s.amendsBegun x) := by
  have raised : ∀ (has : Bool) (m n : Nat), (!has || decide (m ≤ n)) = true ↔ ¬ (has = true ∧ n < m) := fun has m n => by
    rw [carried_iff, decide_eq_true_eq, not_and, Nat.not_lt]
  rw [State.amendAllowed, OrderRec.plannedOpen, amendLowers, Bool.or_eq_true, Bool.and_eq_true, Bool.and_eq_true,
    Bool.and_eq_true, Bool.and_eq_true, Bool.and_eq_true, amendsBegun_iff, raised, raised, raised, not_or, not_or, beq_iff_eq,
    beq_iff_eq, Bool.not_eq_true']
  simp only [and_assoc]

theorem amendFits_iff (s : State) (x : RawAmend) : s.amendFits x = true ↔ s.amendmentFits x := by
  rw [State.amendFits, carried_iff, State.amendmentFits]
  refine imp_congr_right fun _ => ?_
  rw [Bool.and_eq_true, List.all_eq_true]
  refine and_congr_right fun _ => forall₂_congr fun l _ => ?_
  rw [Bool.or_eq_true, bne_iff_ne, or_iff_not_imp_left, not_ne_iff]

/-- The layout of an order that the window does not hold has its spacings tested alone. -/
theorem amendmentFits_outside (h : s.windowOrder? x.id = none) :
    s.amendmentFits x ↔ (x.hasLayout = true → s.profile.spacingPasses (layoutOf x.layout) = true) := by
  refine imp_congr_right fun _ => and_iff_left fun l m same => ?_
  obtain ⟨w, held, line⟩ := List.mem_filterMap.mp m
  obtain ⟨o, -, rfl⟩ := Option.map_eq_some_iff.mp line
  exact absurd (beq_iff_eq.mpr same) (List.find?_eq_none.mp h w held)

theorem amendOrderVerdict_known (h : s.order? x.id = some r) : amendOrderVerdict x s =
    if !amendInRange x then .no .range
    else if !s.amendAllowed r x then .no .frozen
    else if !s.amendFits x then .no .format
    else .ok fun s => (s.modifyOrder x.id fun r => r.amend x).replan := by
  unfold amendOrderVerdict
  rw [h]

/-! ### The amended record -/

/-- The state with an order's record amended, before the acts that follow. -/
def State.orderAmended (s : State) (x : RawAmend) : State := (s.modifyOrder x.id fun r => r.amend x).replan

theorem orderAmended_own (h : s.order? x.id = some r) : (s.orderAmended x).order? x.id = some (r.amend x) :=
  (order?_congr (replan_book _) _).trans (order?_modifyOrder (fun _ => rfl) h)

theorem orderAmended_other {id : Nat} (h : id ≠ x.id) (s : State) : (s.orderAmended x).order? id = s.order? id :=
  (order?_congr (replan_book _) _).trans (order?_modifyOrder_other (f := fun r => r.amend x) (fun _ => rfl) h s)

theorem orderAmended_frame (s : State) (x : RawAmend) :
    s.orderAmended x = { s with book := (s.orderAmended x).book, work := (s.orderAmended x).work } := by
  unfold State.orderAmended
  rw [replan_eq_due]
  rfl

/-- Settles O49: the checks are the branches of `amendOrderVerdict`, each stated once above. -/
theorem amendOrderWritesCarriedFigures : Obligations.AmendOrderWritesCarriedFigures := by
  intro p tag x s heard quiet no inRange lay yes
  have written : ∀ r, s.order? x.id = some r → amendInRange x = true → s.amendAllowed r x = true → s.amendmentFits x →
      yes r (if r.phase == .queued then none else r.station) := by
    intro r known range allowed fits
    let t := s.withFrame p (doneFrame 0x02 tag [])
    have verdict := amendOrderVerdict_known known
    rw [if_neg (by simp [range]), if_neg (by simp [allowed]), if_neg (by simp [(amendFits_iff s x).mpr fits])] at verdict
    have frame := orderAmended_frame t x
    refine ⟨t.orderAmended x, exec_ok (i := .amendOrder p tag x) rfl heard verdict, joinedBy_of_ports ?_, orderAmended_own (s := t) known,
      fun id other => orderAmended_other (s := t) other, ?_⟩
    · rw [frame]
    · rw [frame]
      rfl
  refine ⟨fun unheld => ?_, fun r known bad => ?_, fun r known range => ?_⟩
  · refine exec_refused .unknown rfl quiet heard ?_
    have missing := (order?_none_iff s x.id).mpr unheld
    change amendOrderVerdict x s = _
    rw [amendOrderVerdict, missing]
  · refine exec_refused .range rfl quiet heard ((amendOrderVerdict_known known).trans (if_pos ?_))
    rw [Bool.not_eq_true', ← Bool.not_eq_true, amendInRange_iff]
    exact bad
  · have passes : amendInRange x = true := (amendInRange_iff x).mpr range
    have frozen : ¬ s.amendAllowed r x = true → no 8 := fun h => by
      refine exec_refused .frozen rfl quiet heard ((amendOrderVerdict_known known).trans ?_)
      rw [if_neg (by simp [passes]), if_pos (by simp [h])]
    have unfit : s.amendAllowed r x = true → ¬ s.amendmentFits x → no 1 := fun allowed h => by
      refine exec_refused .format rfl quiet heard ((amendOrderVerdict_known known).trans ?_)
      rw [if_neg (by simp [passes]), if_neg (by simp [allowed]), if_pos (by simp [mt (amendFits_iff s x).mp h])]
    rw [amendAllowed_iff] at frozen unfit
    have written := written r known passes
    rw [amendAllowed_iff] at written
    refine ⟨fun phase => frozen ?_, fun planned change => frozen ?_, fun queued outside => ?_,
      fun planned isOpen raises waits => ?_⟩
    · rintro (queued | ⟨planned, isOpen, -⟩)
      · rw [queued] at phase
        simp at phase
      · rw [planned, isOpen] at phase
        simp at phase
    · rintro (queued | ⟨-, -, raises, waits⟩)
      · rw [planned] at queued
        cases queued
      · exact change.elim raises waits
    · rw [amendmentFits_outside outside] at unfit written
      refine ⟨fun has tight => unfit (.inl queued) fun k => ?_, fun fits => ?_⟩
      · exact absurd (k has) (ne_true_of_eq_false tight)
      · have done := written (.inl queued) fits
        rwa [queued] at done
    · have done := written (.inr ⟨planned, isOpen, raises, waits⟩)
      rw [planned] at done
      exact ⟨unfit (.inr ⟨planned, isOpen, raises, waits⟩), done⟩

end Sys2Proof.Machine
end

section
/-! PROOF. The lines of the window (R68): which they are, and what writing changed lines back leaves of a record, of an entry of
the window, and of the lines themselves. -/

namespace Sys2Proof.Machine

variable {s t : State} {l k : Line} {ls : List Line} {id : Nat}

/-! ### The lines -/

theorem mem_lines (s : State) (l : Line) : l ∈ s.lines ↔ l.w ∈ s.plan.window ∧ s.order? l.w.id = some l.r := by
  unfold State.lines
  rw [List.mem_filterMap]
  constructor
  · rintro ⟨w, held, line⟩
    obtain ⟨r, record, rfl⟩ := Option.map_eq_some_iff.mp line
    exact ⟨held, record⟩
  · rintro ⟨held, record⟩
    exact ⟨l.w, held, by rw [record]; rfl⟩

theorem line_order? (h : l ∈ s.lines) : s.order? l.w.id = some l.r := ((mem_lines s l).mp h).2

theorem line_fig_id (h : l ∈ s.lines) : l.r.fig.id = l.w.id := order?_id (line_order? h)

/-- The first line of an id is the window's first entry of that id with its record. -/
theorem lines_find? (s : State) (id : Nat) : (s.lines.find? fun l => l.w.id == id) =
    (s.windowOrder? id).bind fun w => (s.order? id).map (Line.mk w) := by
  unfold State.lines State.windowOrder?
  induction s.plan.window with
  | nil => rfl
  | cons w ws ih =>
    rw [List.find?_cons, List.filterMap_cons]
    by_cases own : w.id = id
    · have found : (w.id == id) = true := beq_iff_eq.mpr own
      rw [found, own]
      cases record : s.order? id with
      | none =>
        rw [record] at ih
        refine ih.trans ?_
        cases ws.find? fun w => w.id == id <;> rfl
      | some r =>
        exact List.find?_cons_of_pos (p := fun l : Line => l.w.id == id) found
    · have missed : (w.id == id) = false := beq_eq_false_iff_ne.mpr own
      rw [missed]
      cases record : s.order? w.id with
      | none => exact ih
      | some r =>
        exact (List.find?_cons_of_neg (p := fun l : Line => l.w.id == id) (by simp [own])).trans ih

theorem lines_find?_some {w : WindowOrder} {r : OrderRec} (h : s.windowOrder? id = some w) (k : s.order? id = some r) :
    (s.lines.find? fun l => l.w.id == id) = some ⟨w, r⟩ := by
  rw [lines_find?, h, k]
  rfl

theorem lines_find?_none (h : s.windowOrder? id = none) : (s.lines.find? fun l => l.w.id == id) = none := by
  rw [lines_find?, h]
  rfl

theorem windowOrder?_none_iff (s : State) (id : Nat) : s.windowOrder? id = none ↔ id ∉ s.plan.window.map fun w => w.id := by
  unfold State.windowOrder?
  simp

theorem windowOrder?_isSome_iff (s : State) (id : Nat) :
    (s.windowOrder? id).isSome = true ↔ id ∈ s.plan.window.map fun w => w.id := by
  unfold State.windowOrder?
  simp

/-- In a window of distinct ids an entry is found by its id. -/
theorem windowOrder?_of_mem (distinct : (s.plan.window.map fun w => w.id).Nodup) {w : WindowOrder} (h : w ∈ s.plan.window) :
    s.windowOrder? w.id = some w := by
  cases found : s.windowOrder? w.id with
  | none => exact absurd (beq_self_eq_true w.id) (List.find?_eq_none.mp found w h)
  | some v =>
    exact congrArg some (List.inj_on_of_nodup_map distinct (List.mem_of_find?_eq_some found) h (windowOrder?_id found))

theorem line_windowOrder? (distinct : (s.plan.window.map fun w => w.id).Nodup) (h : l ∈ s.lines) :
    s.windowOrder? l.w.id = some l.w := windowOrder?_of_mem distinct ((mem_lines s l).mp h).1

theorem line_windowOrder?_isSome (h : l ∈ s.lines) : (s.windowOrder? l.w.id).isSome = true :=
  (windowOrder?_isSome_iff s _).mpr (List.mem_map_of_mem ((mem_lines s l).mp h).1)

theorem lines_ids_sublist (s : State) : (s.lines.map fun l => l.w.id).Sublist (s.plan.window.map fun w => w.id) := by
  refine map_filterMap_sublist _ _ _ (fun w l e => ?_) _
  obtain ⟨r, -, rfl⟩ := Option.map_eq_some_iff.mp e
  rfl

theorem lines_ids_nodup (distinct : (s.plan.window.map fun w => w.id).Nodup) : (s.lines.map fun l => l.w.id).Nodup :=
  distinct.sublist (lines_ids_sublist s)

/-- The ids of the lines rest on those of the window and on which of them the book knows. -/
theorem lines_ids_congr (ids : (t.plan.window.map fun w => w.id) = s.plan.window.map fun w => w.id)
    (known : ∀ id, (t.order? id).isSome = (s.order? id).isSome) : (t.lines.map fun l => l.w.id) = s.lines.map fun l => l.w.id := by
  have form : ∀ u : State, (u.lines.map fun l => l.w.id) =
      (u.plan.window.map fun w => w.id).filter fun id => (u.order? id).isSome := by
    intro u
    unfold State.lines
    induction u.plan.window with
    | nil => rfl
    | cons w ws ih =>
      rw [List.map_cons, List.filterMap_cons]
      cases record : u.order? w.id with
      | none =>
        rw [List.filter_cons_of_neg (by simp [record])]
        exact ih
      | some r =>
        rw [List.filter_cons_of_pos (by simp [record])]
        exact congrArg _ ih
  rw [form, form, ids]
  exact congrArg (List.filter · _) (funext known)

/-- A line is found by its id in the window and in the book. -/
theorem lines_congr (book : t.book = s.book) (window : t.plan.window = s.plan.window) : t.lines = s.lines := by
  unfold State.lines State.order?
  rw [book, window]

/-! ### Lines written back -/

/-- Each line names the record that it holds. -/
def Line.Named (l : Line) : Prop := l.r.fig.id = l.w.id

theorem writeLines_order? (named : ∀ l ∈ ls, l.Named) (s : State) (id : Nat) : (s.writeLines ls).order? id =
    (s.order? id).map fun r => ((ls.find? fun l => l.w.id == id).map Line.r).getD r := by
  have keeps : ∀ r : OrderRec, (((ls.find? fun l => l.w.id == r.fig.id).map Line.r).getD r).fig.id = r.fig.id := by
    intro r
    cases found : ls.find? fun l => l.w.id == r.fig.id with
    | none => rfl
    | some l => exact (named l (List.mem_of_find?_eq_some found)).trans (by simpa using List.find?_some found)
  have unmoved : ((fun r : OrderRec => r.fig.id == id) ∘ fun r => ((ls.find? fun l => l.w.id == r.fig.id).map Line.r).getD r) =
      fun r => r.fig.id == id := by
    funext r
    rw [Function.comp_apply, keeps]
  unfold State.order? State.writeLines
  rw [List.find?_map, unmoved]
  cases found : s.book.find? fun r => r.fig.id == id with
  | none => rfl
  | some r =>
    have own : r.fig.id = id := by simpa using List.find?_some found
    rw [Option.map_some, Option.map_some, own]

theorem writeLines_windowOrder? (ls : List Line) (s : State) (id : Nat) : (s.writeLines ls).windowOrder? id =
    (s.windowOrder? id).map fun w => ((ls.find? fun l => l.w.id == id).map Line.w).getD w := by
  have keeps : ∀ w : WindowOrder, (((ls.find? fun l => l.w.id == w.id).map Line.w).getD w).id = w.id := by
    intro w
    cases found : ls.find? fun l => l.w.id == w.id with
    | none => rfl
    | some l => exact (by simpa using List.find?_some found : l.w.id = w.id)
  have unmoved : ((fun w : WindowOrder => w.id == id) ∘ fun w => ((ls.find? fun l => l.w.id == w.id).map Line.w).getD w) =
      fun w => w.id == id := by
    funext w
    rw [Function.comp_apply, keeps]
  unfold State.windowOrder? State.writeLines
  rw [List.find?_map, unmoved]
  cases found : s.plan.window.find? fun w => w.id == id with
  | none => rfl
  | some w => rw [Option.map_some, Option.map_some, windowOrder?_id (s := s) found]

theorem writeLines_ids (s : State) (ls : List Line) :
    ((s.writeLines ls).plan.window.map fun w => w.id) = s.plan.window.map fun w => w.id := by
  unfold State.writeLines
  rw [List.map_map]
  refine List.map_congr_left fun w _ => ?_
  rw [Function.comp_apply]
  cases found : ls.find? fun l => l.w.id == w.id with
  | none => rfl
  | some l => exact (by simpa using List.find?_some found : l.w.id = w.id)

/-- The lines after changed ones have been written back. -/
theorem writeLines_lines (named : ∀ l ∈ ls, l.Named) (s : State) : (s.writeLines ls).lines =
    s.lines.map fun m => (ls.find? fun l => l.w.id == m.w.id).getD m := by
  unfold State.lines
  simp only [writeLines_order? named]
  change (s.plan.window.map _).filterMap _ = _
  rw [List.filterMap_map, List.map_filterMap]
  refine List.filterMap_congr fun w _ => ?_
  rw [Function.comp_apply]
  have same : (((ls.find? fun l => l.w.id == w.id).map Line.w).getD w).id = w.id := by
    cases found : ls.find? fun l => l.w.id == w.id with
    | none => rfl
    | some l => exact (by simpa using List.find?_some found : l.w.id = w.id)
  rw [same]
  cases s.order? w.id with
  | none => rfl
  | some r =>
    simp only [Option.map_some]
    cases ls.find? fun l => l.w.id == w.id <;> rfl

/-- Lines of the same ids, all distinct, take each other's places. -/
theorem map_find?_aligned {ms ls : List Line} (ids : (ls.map fun l => l.w.id) = ms.map fun l => l.w.id)
    (distinct : (ms.map fun l => l.w.id).Nodup) : (ms.map fun m => (ls.find? fun l => l.w.id == m.w.id).getD m) = ls := by
  induction ms generalizing ls with
  | nil => exact (List.map_eq_nil_iff.mp ids).symm
  | cons m ms ih =>
    cases ls with
    | nil => cases ids
    | cons l ls =>
      rw [List.map_cons, List.map_cons, List.cons.injEq] at ids
      rw [List.map_cons, List.nodup_cons] at distinct
      obtain ⟨own, rest⟩ := ids
      obtain ⟨apart, distinct⟩ := distinct
      have head : ((l :: ls).find? fun l => l.w.id == m.w.id) = some l :=
        List.find?_cons_of_pos (p := fun l : Line => l.w.id == m.w.id) (beq_iff_eq.mpr own)
      rw [List.map_cons, head, Option.getD_some]
      congr 1
      refine Eq.trans (List.map_congr_left fun n held => ?_) (ih rest distinct)
      have other : ¬ (l.w.id == n.w.id) = true := fun same =>
        apart (own ▸ (beq_iff_eq.mp same).symm ▸ List.mem_map_of_mem (f := fun l : Line => l.w.id) held)
      rw [List.find?_cons_of_neg (p := fun l : Line => l.w.id == n.w.id) other]

/-- All lines written back, in their order, are the lines. -/
theorem writeLines_lines_aligned (named : ∀ l ∈ ls, l.Named) (ids : (ls.map fun l => l.w.id) = s.lines.map fun l => l.w.id)
    (distinct : (s.plan.window.map fun w => w.id).Nodup) : (s.writeLines ls).lines = ls := by
  rw [writeLines_lines named, map_find?_aligned ids (lines_ids_nodup distinct)]

/-! ### The neighbours of a line -/

theorem lineBefore_head (h : l.w.id = id) (o : Option Line) (ls : List Line) : lineBefore id o (l :: ls) = o := by
  rw [lineBefore, if_pos (beq_iff_eq.mpr h)]

/-- The line before an order, where no earlier line has its id. -/
theorem lineBefore_append (before : List Line) (o : Option Line) (h : id ∉ (before ++ [k]).map fun l => l.w.id)
    (own : l.w.id = id) (after : List Line) : lineBefore id o (before ++ k :: l :: after) = some k := by
  induction before generalizing o with
  | nil =>
    have other : ¬ (k.w.id == id) = true := fun e => h (by simp [beq_iff_eq.mp e])
    rw [List.nil_append, lineBefore, if_neg other, lineBefore_head own]
  | cons b before ih =>
    have other : ¬ (b.w.id == id) = true := fun e => h (by simp [beq_iff_eq.mp e])
    rw [List.cons_append, lineBefore, if_neg other]
    exact ih _ fun m => h (by simp only [List.cons_append, List.map_cons, List.mem_cons]; exact .inr m)

theorem lineAfter_append (before : List Line) (h : id ∉ before.map fun l => l.w.id) (own : l.w.id = id) (after : List Line) :
    lineAfter id (before ++ l :: after) = after.head? := by
  induction before with
  | nil =>
    cases after with
    | nil => rfl
    | cons k after => rw [List.nil_append, lineAfter, if_pos (beq_iff_eq.mpr own)]; rfl
  | cons b before ih =>
    have other : ¬ (b.w.id == id) = true := fun e => h (by simp [beq_iff_eq.mp e])
    have rest := ih fun m => h (by rw [List.map_cons]; exact List.mem_cons_of_mem _ m)
    cases before with
    | nil => rw [List.cons_append, List.nil_append, lineAfter, if_neg other]; exact rest
    | cons c before => rw [List.cons_append, List.cons_append, lineAfter, if_neg other]; exact rest

/-! ### Starts and ends behind the predecessor (R78) -/

/-- What a shift of the plan may change of a record: start and end, and those of an OPEN order alone. -/
structure OrderRec.Shifted (r v : OrderRec) : Prop where
  same : v = { r with p := v.p, e := v.e }
  firm : r.pinned = true → v = r

theorem OrderRec.Shifted.refl (r : OrderRec) : r.Shifted r := ⟨rfl, fun _ => rfl⟩

/-- One line behind the end of its predecessor, as a shift of the plan places it. -/
def shiftLine (prevEnd : Option Pos) (l : Line) : Line :=
  if l.r.pinned then l
  else
    let m : Line := { l with r := { l.r with p := (prevEnd.map fun e => e + ((l.r.gap.getD 0 : Nat) : Int)).or l.r.p } }
    { m with r := { m.r with e := some (m.cut (l.r.n.getD 0)) } }

theorem shiftLines_cons (prevEnd : Option Pos) (l : Line) (ls : List Line) :
    shiftLines prevEnd (l :: ls) = shiftLine prevEnd l :: shiftLines (shiftLine prevEnd l).r.e ls := by
  have head : shiftLine prevEnd l = if l.r.pinned then l
      else
        match prevEnd with
        | some e =>
          let l := { l with r := { l.r with p := some (e + (l.r.gap.getD 0 : Nat)) } }
          { l with r := { l.r with e := some (l.cut (l.r.n.getD 0)) } }
        | none => { l with r := { l.r with e := some (l.cut (l.r.n.getD 0)) } } := by
    unfold shiftLine
    cases prevEnd <;> rfl
  rw [head]
  rfl

theorem shiftLine_w (prevEnd : Option Pos) (l : Line) : (shiftLine prevEnd l).w = l.w := by
  unfold shiftLine
  split <;> rfl

theorem shiftLine_shifted (prevEnd : Option Pos) (l : Line) : l.r.Shifted (shiftLine prevEnd l).r := by
  unfold shiftLine
  split
  · exact .refl _
  · next isOpen => exact ⟨rfl, fun pinned => absurd pinned isOpen⟩

theorem shiftLines_ids (prevEnd : Option Pos) (ls : List Line) :
    ((shiftLines prevEnd ls).map fun l => l.w.id) = ls.map fun l => l.w.id := by
  induction ls generalizing prevEnd with
  | nil => rfl
  | cons l ls ih => rw [shiftLines_cons, List.map_cons, List.map_cons, ih, shiftLine_w]

/-- A line found among the shifted ones is that of the same place, shifted. -/
theorem shiftLines_find? (prevEnd : Option Pos) (ls : List Line) (id : Nat) :
    ((shiftLines prevEnd ls).find? fun l => l.w.id == id) = none ∧ (ls.find? fun l => l.w.id == id) = none ∨
    ∃ l m, ((shiftLines prevEnd ls).find? fun l => l.w.id == id) = some m ∧ (ls.find? fun l => l.w.id == id) = some l ∧
      m.w = l.w ∧ l.r.Shifted m.r := by
  induction ls generalizing prevEnd with
  | nil => exact .inl ⟨rfl, rfl⟩
  | cons l ls ih =>
    rw [shiftLines_cons, List.find?_cons, List.find?_cons, shiftLine_w]
    cases l.w.id == id with
    | true => exact .inr ⟨l, _, rfl, rfl, shiftLine_w _ _, shiftLine_shifted _ _⟩
    | false => exact ih _

theorem OrderRec.Shifted.fig {r v : OrderRec} (h : r.Shifted v) : v.fig = r.fig := by
  rw [h.same]

theorem OrderRec.Shifted.pinned {r v : OrderRec} (h : r.Shifted v) : v.pinned = r.pinned := by
  rw [h.same]

theorem shiftLines_named (prevEnd : Option Pos) {ls : List Line} (h : ∀ l ∈ ls, l.Named) :
    ∀ l ∈ shiftLines prevEnd ls, l.Named := by
  induction ls generalizing prevEnd with
  | nil => exact h
  | cons l ls ih =>
    rw [shiftLines_cons]
    refine List.forall_mem_cons.mpr ⟨?_, ih _ fun m held => h m (List.mem_cons_of_mem _ held)⟩
    unfold Line.Named
    rw [shiftLine_w, (shiftLine_shifted prevEnd l).fig]
    exact h l List.mem_cons_self

theorem lines_named (s : State) : ∀ l ∈ s.lines, l.Named := fun _ h => line_fig_id h

end Sys2Proof.Machine
end

section
/-! PROOF. The ends of orders pinned (R75 to R78): what a pin leaves alone, and what it makes of its order's record. -/

namespace Sys2Proof.Machine

variable {s t u : State} {l k : Line} {ls : List Line} {id : Nat} {r v : OrderRec}

/-! ### What a pin leaves alone -/

/-- What a pin may change of a record: start, end, number of sheets, rejects and end state, and those of an OPEN order alone. -/
structure OrderRec.Firmed (r v : OrderRec) : Prop where
  same : v = { r with p := v.p, e := v.e, n := v.n, rejects := v.rejects, pinned := v.pinned }
  firm : r.pinned = true → v = r

theorem OrderRec.Firmed.refl (r : OrderRec) : r.Firmed r := ⟨rfl, fun _ => rfl⟩

theorem OrderRec.Shifted.firmed (h : r.Shifted v) : r.Firmed v := ⟨by rw [h.same], h.firm⟩

theorem OrderRec.Firmed.pinned (h : r.Firmed v) (k : r.pinned = true) : v.pinned = true := by
  rw [h.firm k]
  exact k

theorem OrderRec.Firmed.trans {o : OrderRec} (h : r.Firmed v) (k : v.Firmed o) : r.Firmed o where
  same := by
    rw [k.same, h.same]
  firm pinned := (k.firm (h.pinned pinned)).trans (h.firm pinned)

theorem OrderRec.Firmed.fig (h : r.Firmed v) : v.fig = r.fig := by rw [h.same]

theorem OrderRec.Firmed.phase (h : r.Firmed v) : v.phase = r.phase := by rw [h.same]

theorem OrderRec.Firmed.counts (h : r.Firmed v) : v.counts = r.counts := by rw [h.same]

theorem OrderRec.Firmed.result (h : r.Firmed v) : v.result = r.result := by rw [h.same]

theorem OrderRec.Firmed.gap (h : r.Firmed v) : v.gap = r.gap := by rw [h.same]

/-- What pins leave alone: of the orders, all but the figures of OPEN ones; of the window, all but the marks of inserted spans;
every record that the window does not hold; and the rest of the plan but W0. -/
structure Pinning (s t : State) : Prop where
  frame : { t with map := s.map, book := s.book, plan := s.plan, splice := s.splice, ports := s.ports, work := s.work } = s
  plan : t.plan = { s.plan with window := t.plan.window, w0 := t.plan.w0 }
  ids : (t.plan.window.map fun w => w.id) = s.plan.window.map fun w => w.id
  orders : ∀ id r, s.order? id = some r → ∃ v, t.order? id = some v ∧ r.Firmed v
  unknown : ∀ id, s.order? id = none → t.order? id = none
  outside : ∀ id, s.windowOrder? id = none → t.order? id = s.order? id
  entries : ∀ id w, s.windowOrder? id = some w → ∃ v, t.windowOrder? id = some v ∧ v = { w with spanInserted := v.spanInserted }

theorem Pinning.out (h : Pinning s t) {id : Nat} (k : s.windowOrder? id = none) : t.windowOrder? id = none := by
  rw [windowOrder?_none_iff, h.ids]
  exact (windowOrder?_none_iff s id).mp k

theorem Pinning.refl (s : State) : Pinning s s :=
  ⟨rfl, rfl, rfl, fun _ r h => ⟨r, h, .refl r⟩, fun _ h => h, fun _ _ => rfl, fun _ w h => ⟨w, h, rfl⟩⟩

theorem Pinning.trans (h : Pinning s t) (k : Pinning t u) : Pinning s u where
  frame := by
    calc ({ u with
            map := s.map, book := s.book, plan := s.plan, splice := s.splice, ports := s.ports, work := s.work } : State)
        = { { u with
              map := t.map, book := t.book, plan := t.plan, splice := t.splice, ports := t.ports, work := t.work } with
            map := s.map, book := s.book, plan := s.plan, splice := s.splice, ports := s.ports, work := s.work } := rfl
      _ = { t with
            map := s.map, book := s.book, plan := s.plan, splice := s.splice, ports := s.ports, work := s.work } := by rw [k.frame]
      _ = s := h.frame
  plan := by rw [k.plan, h.plan]
  ids := k.ids.trans h.ids
  orders id r e := by
    obtain ⟨v, found, firmed⟩ := h.orders id r e
    obtain ⟨o, found', firmed'⟩ := k.orders id v found
    exact ⟨o, found', firmed.trans firmed'⟩
  unknown id e := k.unknown id (h.unknown id e)
  outside id e := (k.outside id (h.out e)).trans (h.outside id e)
  entries id w e := by
    obtain ⟨v, found, same⟩ := h.entries id w e
    obtain ⟨x, found', same'⟩ := k.entries id v found
    exact ⟨x, found', by rw [same', same]⟩

theorem Pinning.profile (h : Pinning s t) : t.profile = s.profile := (congrArg State.profile h.frame :)

theorem Pinning.dry (h : Pinning s t) : t.dry = s.dry := (congrArg State.dry h.frame :)

theorem Pinning.slitter (h : Pinning s t) : t.slitter = s.slitter := (congrArg State.slitter h.frame :)

theorem Pinning.lmu (h : Pinning s t) : t.lmu = s.lmu := (congrArg State.lmu h.frame :)

theorem Pinning.known (h : Pinning s t) (id : Nat) : (t.order? id).isSome = (s.order? id).isSome := by
  cases e : s.order? id with
  | none => rw [h.unknown id e]
  | some r =>
    obtain ⟨v, found, -⟩ := h.orders id r e
    rw [found]
    rfl

theorem Pinning.lines_ids (h : Pinning s t) : (t.lines.map fun l => l.w.id) = s.lines.map fun l => l.w.id :=
  lines_ids_congr h.ids h.known

theorem Pinning.distinct (h : Pinning s t) (k : s.idsDistinct) (ids : (t.book.map fun r => r.fig.id).Nodup) : t.idsDistinct :=
  ⟨ids, h.ids ▸ k.window⟩

/-- A change of the map, the splice part, the ports and the acts due is none of the plan. -/
theorem Pinning.of_same (book : t.book = s.book) (plan : t.plan = s.plan)
    (frame : { t with map := s.map, splice := s.splice, ports := s.ports, work := s.work } = s) : Pinning s t where
  frame := by
    rw [book, plan] at *
    exact frame
  plan := by rw [plan]
  ids := by rw [plan]
  orders id r e := ⟨r, (order?_congr book id).trans e, .refl r⟩
  unknown id e := (order?_congr book id).trans e
  outside id _ := order?_congr book id
  entries id w e := ⟨w, by unfold State.windowOrder? at *; rw [plan, e], rfl⟩

theorem Pinning.raise (h : Pinning s t) (n : Notice) : Pinning s (t.raise n) := h.trans (.of_same rfl rfl rfl)

theorem Pinning.replan (h : Pinning s t) : Pinning s t.replan := by
  rw [replan_eq_due]
  exact h.trans (.of_same rfl rfl rfl)

/-- Lines written back that are firmed ones of the window's. -/
theorem writeLines_pinning (h : ∀ id m, (ls.find? fun l => l.w.id == id) = some m →
    ∃ l, (s.lines.find? fun l => l.w.id == id) = some l ∧ m.w = l.w ∧ l.r.Firmed m.r) (named : ∀ l ∈ ls, l.Named) :
    Pinning s (s.writeLines ls) where
  frame := rfl
  plan := rfl
  ids := writeLines_ids s ls
  orders id r e := by
    rw [writeLines_order? named, e, Option.map_some]
    cases found : ls.find? fun l => l.w.id == id with
    | none => exact ⟨r, rfl, .refl r⟩
    | some m =>
      obtain ⟨l, held, -, firmed⟩ := h id m found
      have own : l.w.id = id := by simpa using List.find?_some held
      have record := line_order? (List.mem_of_find?_eq_some held)
      rw [own, e, Option.some_inj] at record
      exact ⟨m.r, rfl, record ▸ firmed⟩
  unknown id e := by rw [writeLines_order? named, e]; rfl
  outside id e := by
    have missing : (ls.find? fun l => l.w.id == id) = none := by
      cases found : ls.find? fun l => l.w.id == id with
      | none => rfl
      | some m =>
        obtain ⟨l, held, -⟩ := h id m found
        rw [lines_find?_none e] at held
        cases held
    rw [writeLines_order? named, missing]
    cases s.order? id <;> rfl
  entries id w e := by
    refine ⟨w, ?_, rfl⟩
    rw [writeLines_windowOrder?, e, Option.map_some]
    cases found : ls.find? fun l => l.w.id == id with
    | none => rfl
    | some m =>
      obtain ⟨l, held, same, -⟩ := h id m found
      rw [lines_find?, e, Option.bind_some] at held
      obtain ⟨o, -, rfl⟩ := Option.map_eq_some_iff.mp held
      exact congrArg some same

/-- Written back with their entries as they are, lines leave the entries of the window. -/
theorem writeLines_entries (h : ∀ id m, (ls.find? fun l => l.w.id == id) = some m →
    ∃ l, (s.lines.find? fun l => l.w.id == id) = some l ∧ m.w = l.w) (id : Nat) :
    (s.writeLines ls).windowOrder? id = s.windowOrder? id := by
  rw [writeLines_windowOrder?]
  cases e : s.windowOrder? id with
  | none => rfl
  | some w =>
    rw [Option.map_some]
    cases found : ls.find? fun l => l.w.id == id with
    | none => rfl
    | some m =>
      obtain ⟨l, held, same⟩ := h id m found
      rw [lines_find?, e, Option.bind_some] at held
      obtain ⟨o, -, rfl⟩ := Option.map_eq_some_iff.mp held
      exact congrArg some same

/-! ### The plan moved behind the ends (R71, R78, R83) -/

theorem followW0_book (s : State) : s.followW0.book = s.book := by
  unfold State.followW0
  split <;> rfl

theorem followW0_map (s : State) : s.followW0.map = s.map := by
  unfold State.followW0
  split <;> rfl

theorem followW0_pinning (s : State) : Pinning s s.followW0 := by
  unfold State.followW0
  split
  · exact ⟨rfl, rfl, rfl, fun _ r h => ⟨r, h, .refl r⟩, fun _ h => h, fun _ _ => rfl, fun _ w h => ⟨w, h, rfl⟩⟩
  · exact .refl s

theorem refreshSlot_spliceAlone (s : State) (x : Stream) : SpliceAlone s (s.refreshSlot x) := by
  unfold State.refreshSlot
  dsimp only
  repeat' split
  all_goals rfl

theorem refreshSlots_spliceAlone (s : State) : SpliceAlone s s.refreshSlots := by
  have all : ∀ (xs : List Stream) (t : State), SpliceAlone s t → SpliceAlone s (xs.foldl State.refreshSlot t) := by
    intro xs
    induction xs with
    | nil => exact fun t h => h
    | cons x xs ih => exact fun t h => ih _ (h.trans (refreshSlot_spliceAlone t x))
  exact all Stream.all s (.refl s)

theorem SpliceAlone.book (h : SpliceAlone s t) : t.book = s.book := by
  unfold SpliceAlone at h
  rw [← h]

theorem SpliceAlone.plan (h : SpliceAlone s t) : t.plan = s.plan := by
  unfold SpliceAlone at h
  rw [← h]

theorem SpliceAlone.map (h : SpliceAlone s t) : t.map = s.map := by
  unfold SpliceAlone at h
  rw [← h]

theorem SpliceAlone.pinning (h : SpliceAlone s t) : Pinning s t := by
  refine .of_same h.book h.plan ?_
  calc ({ t with map := s.map, splice := s.splice, ports := s.ports, work := s.work } : State)
      = { { t with splice := s.splice } with map := s.map, splice := s.splice, ports := s.ports, work := s.work } := rfl
    _ = s := by
      unfold SpliceAlone at h
      rw [h]

theorem shiftLines_firmed (s : State) (id : Nat) (m : Line)
    (h : ((shiftLines none s.lines).find? fun l => l.w.id == id) = some m) :
    ∃ l, (s.lines.find? fun l => l.w.id == id) = some l ∧ m.w = l.w ∧ l.r.Firmed m.r := by
  rcases shiftLines_find? none s.lines id with ⟨missing, -⟩ | ⟨l, n, found, held, same, shifted⟩
  · rw [missing] at h
    cases h
  · rw [found] at h
    cases h
    exact ⟨l, held, same, shifted.firmed⟩

theorem shiftPlan_pinning (s : State) : Pinning s s.shiftPlan :=
  ((writeLines_pinning (shiftLines_firmed s) (shiftLines_named none (lines_named s))).trans (followW0_pinning _)).trans
    (refreshSlots_spliceAlone _).pinning

/-- Behind a shift the records are those of the shifted lines. -/
theorem shiftPlan_book (s : State) : s.shiftPlan.book = (s.writeLines (shiftLines none s.lines)).book :=
  (refreshSlots_spliceAlone _).book.trans (followW0_book _)

theorem shiftPlan_window (s : State) : s.shiftPlan.plan.window = (s.writeLines (shiftLines none s.lines)).plan.window :=
  (congrArg Planner.window (refreshSlots_spliceAlone _).plan).trans (window_followW0 _)

theorem shiftPlan_map (s : State) : s.shiftPlan.map = s.map :=
  (refreshSlots_spliceAlone _).map.trans (followW0_map _)

theorem shiftPlan_entries (s : State) (id : Nat) : s.shiftPlan.windowOrder? id = s.windowOrder? id := by
  have same : s.shiftPlan.windowOrder? id = (s.writeLines (shiftLines none s.lines)).windowOrder? id := by
    unfold State.windowOrder?
    rw [shiftPlan_window]
  rw [same]
  refine writeLines_entries (fun id m h => ?_) id
  obtain ⟨l, held, same, -⟩ := shiftLines_firmed s id m h
  exact ⟨l, held, same⟩

theorem shiftPlan_shifts (s : State) {id : Nat} {r : OrderRec} (h : s.order? id = some r) :
    ∃ v, s.shiftPlan.order? id = some v ∧ r.Shifted v := by
  have named := shiftLines_named none (lines_named s)
  rw [order?_congr (shiftPlan_book s), writeLines_order? named, h, Option.map_some]
  rcases shiftLines_find? none s.lines id with ⟨missing, -⟩ | ⟨l, m, found, held, -, shifted⟩
  · rw [missing]
    exact ⟨r, rfl, .refl r⟩
  · have own : l.w.id = id := by simpa using List.find?_some held
    have record := line_order? (List.mem_of_find?_eq_some held)
    rw [own, h, Option.some_inj] at record
    rw [found]
    exact ⟨m.r, rfl, record ▸ shifted⟩

/-! ### One line counted (R73, R74, R78) -/

/-- An OPEN line behind the end of its predecessor, or where it stands if there is none. -/
def Line.placedBehind (l : Line) (prevEnd : Option Pos) : Line :=
  { l with r := { l.r with p := some ((prevEnd.map fun e => e + ((l.r.gap.getD 0 : Nat) : Int)).getD l.start) } }

/-- The planned spans that the count of a line sees: those before it and its own. -/
def State.spansSeen (s : State) (spans : List (Pos × Pos)) (l : Line) : List (Pos × Pos) := spans ++ (s.plannedSpan l).toList

/-- The sheets that provisional extension gives a line. -/
def State.sheets (s : State) (spans : List (Pos × Pos)) (l : Line) : Nat :=
  s.extend spans l (l.r.fig.a + 1) (max (l.r.n.getD l.r.fig.t) l.r.fig.t)

/-- A line with a number of sheets: its end, and the rejects among them. -/
def State.withSheets (s : State) (spans : List (Pos × Pos)) (l : Line) (n : Nat) : Line :=
  { l with r := { l.r with n := some n, e := some (l.cut n), rejects := some (s.countRejects spans l n) } }

theorem countLine_open (isOpen : l.r.pinned = false) (s : State) (prevEnd : Option Pos) (spans : List (Pos × Pos)) :
    s.countLine prevEnd spans l = s.withSheets (s.spansSeen spans (l.placedBehind prevEnd)) (l.placedBehind prevEnd)
      (s.sheets (s.spansSeen spans (l.placedBehind prevEnd)) (l.placedBehind prevEnd)) := by
  unfold State.countLine
  rw [if_neg (by simp [isOpen])]
  cases prevEnd <;> rfl

theorem countFinal_open (isOpen : l.r.pinned = false) (s : State) : ∃ m spans n, s.countFinal l = s.withSheets spans m n ∧
    m = l.placedBehind ((lineBefore l.w.id none s.lines).bind fun k => k.r.e) :=
  ⟨_, _, _, countLine_open isOpen s _ _, rfl⟩

/-! ### One order's end pinned (R76) -/

/-- The plan behind the pin of a line's end, before the span at its end is inserted (R76, steps 1 to 3). -/
def State.pinLine (s : State) (l : Line) (withMargin : Bool) : State :=
  ((s.writeLines [(s.countFinal l).pin withMargin]).shiftPlan.raise .pinned).replan

theorem pinOne_unheld (h : (s.lines.find? fun l => l.w.id == id) = none) (m : Bool) : s.pinOne id m = s := by
  unfold State.pinOne
  rw [h]

theorem pinOne_pinned (h : (s.lines.find? fun l => l.w.id == id) = some l) (k : l.r.pinned = true) (m : Bool) :
    s.pinOne id m = s := by
  unfold State.pinOne
  rw [h]
  exact if_pos k

theorem pinOne_open (h : (s.lines.find? fun l => l.w.id == id) = some l) (k : l.r.pinned = false) (m : Bool) : s.pinOne id m =
    match lineAfter id (s.pinLine l m).lines with
    | some k => (s.pinLine l m).insertSpan k
    | none => s.pinLine l m := by
  unfold State.pinOne
  rw [h]
  exact if_neg (by simp [k])

theorem pin_firmed (isOpen : l.r.pinned = false) (s : State) (m : Bool) :
    ((s.countFinal l).pin m).w = l.w ∧ l.r.Firmed ((s.countFinal l).pin m).r ∧ ((s.countFinal l).pin m).r.pinned = true := by
  obtain ⟨o, spans, n, form, rfl⟩ := countFinal_open isOpen s
  rw [form]
  exact ⟨rfl, ⟨rfl, fun pinned => absurd (isOpen.symm.trans pinned) nofun⟩, rfl⟩

/-- The line found by an id, firmed, is the one written back. -/
theorem pinLine_found (h : (s.lines.find? fun l => l.w.id == id) = some l) (isOpen : l.r.pinned = false) (m : Bool)
    (k : Nat) (o : Line) (found : ([(s.countFinal l).pin m].find? fun l => l.w.id == k) = some o) :
    ∃ n, (s.lines.find? fun l => l.w.id == k) = some n ∧ o.w = n.w ∧ n.r.Firmed o.r := by
  obtain ⟨entry, firmed, -⟩ := pin_firmed isOpen s m
  have own : l.w.id = id := by simpa using List.find?_some h
  have named : o.w.id = k := by simpa using List.find?_some found
  rw [List.mem_singleton.mp (List.mem_of_find?_eq_some found)] at *
  rw [entry, own] at named
  exact ⟨l, named ▸ h, entry, firmed⟩

theorem pinLine_named (h : (s.lines.find? fun l => l.w.id == id) = some l) (isOpen : l.r.pinned = false) (m : Bool) :
    ∀ o ∈ [(s.countFinal l).pin m], o.Named := by
  intro o held
  obtain ⟨entry, firmed, -⟩ := pin_firmed isOpen s m
  rw [List.mem_singleton.mp held]
  unfold Line.Named
  rw [entry, firmed.fig]
  exact line_fig_id (List.mem_of_find?_eq_some h)

theorem pinLine_pinning (h : (s.lines.find? fun l => l.w.id == id) = some l) (isOpen : l.r.pinned = false) (m : Bool) :
    Pinning s (s.pinLine l m) :=
  (((writeLines_pinning (pinLine_found h isOpen m) (pinLine_named h isOpen m)).trans (shiftPlan_pinning _)).raise _).replan

theorem pinLine_map (s : State) (l : Line) (m : Bool) : (s.pinLine l m).map = s.map :=
  (replan_map _).trans (shiftPlan_map _)

/-- A pin leaves the entries of the window as they are. -/
theorem pinLine_entries (h : (s.lines.find? fun l => l.w.id == id) = some l) (isOpen : l.r.pinned = false) (m : Bool) (k : Nat) :
    (s.pinLine l m).windowOrder? k = s.windowOrder? k := by
  have same : (s.pinLine l m).windowOrder? k = (s.writeLines [(s.countFinal l).pin m]).shiftPlan.windowOrder? k := by
    unfold State.pinLine State.windowOrder?
    rw [replan_plan]
    rfl
  rw [same, shiftPlan_entries]
  refine writeLines_entries (fun id' o found => ?_) k
  obtain ⟨n, held, entry, -⟩ := pinLine_found h isOpen m id' o found
  exact ⟨n, held, entry⟩

theorem pinLine_book (s : State) (l : Line) (m : Bool) :
    (s.pinLine l m).book = (s.writeLines [(s.countFinal l).pin m]).shiftPlan.book := replan_book _

/-- The pinned order's record is the pinned line's. -/
theorem pinLine_own (h : (s.lines.find? fun l => l.w.id == id) = some l) (isOpen : l.r.pinned = false) (m : Bool) :
    (s.pinLine l m).order? id = some ((s.countFinal l).pin m).r := by
  obtain ⟨entry, -, pinned⟩ := pin_firmed isOpen s m
  have own : l.w.id = id := by simpa using List.find?_some h
  have found : ([(s.countFinal l).pin m].find? fun l => l.w.id == id) = some ((s.countFinal l).pin m) :=
    List.find?_cons_of_pos (p := fun l : Line => l.w.id == id) (beq_iff_eq.mpr ((congrArg WindowOrder.id entry).trans own))
  have written : (s.writeLines [(s.countFinal l).pin m]).order? id = some ((s.countFinal l).pin m).r := by
    rw [writeLines_order? (pinLine_named h isOpen m), found, ← own, line_order? (List.mem_of_find?_eq_some h)]
    rfl
  obtain ⟨v, shifted, firm⟩ := shiftPlan_shifts _ written
  rw [order?_congr (pinLine_book s l m), shifted, firm.firm pinned]

/-- Another order keeps its end state. -/
theorem pinLine_other (h : (s.lines.find? fun l => l.w.id == id) = some l) (isOpen : l.r.pinned = false) (m : Bool) {k : Nat}
    (other : k ≠ id) : ((s.pinLine l m).order? k).map OrderRec.pinned = (s.order? k).map OrderRec.pinned := by
  obtain ⟨entry, -, -⟩ := pin_firmed isOpen s m
  have own : l.w.id = id := by simpa using List.find?_some h
  have missed : ([(s.countFinal l).pin m].find? fun l => l.w.id == k) = none := by
    refine List.find?_eq_none.mpr fun o held same => other ?_
    rw [List.mem_singleton.mp held, entry, own] at same
    exact (beq_iff_eq.mp same).symm
  have written : (s.writeLines [(s.countFinal l).pin m]).order? k = s.order? k := by
    rw [writeLines_order? (pinLine_named h isOpen m), missed]
    cases s.order? k <;> rfl
  rw [order?_congr (pinLine_book s l m)]
  cases e : s.order? k with
  | none => rw [(shiftPlan_pinning _).unknown k (written.trans e)]
  | some r =>
    obtain ⟨v, shifted, same⟩ := shiftPlan_shifts _ (written.trans e)
    rw [shifted]
    exact congrArg some same.pinned

/-! ### A span inserted (R77, R89) -/

theorem insertSpan_book (s : State) (l : Line) : (s.insertSpan l).book = s.book := by
  unfold State.insertSpan
  split
  · exact (insertExtent_mapAlone _ _).book
  · rfl

theorem insertSpan_none (h : s.plannedSpan l = none) : s.insertSpan l = s := by
  unfold State.insertSpan
  rw [h]

theorem insertSpan_some {a b : Pos} (h : s.plannedSpan l = some (a, b)) : s.insertSpan l =
    (s.modifyWindow l.w.id fun w => { w with spanInserted := true }).insertExtent (.closed a b .doubleSlit) := by
  unfold State.insertSpan
  rw [h]

theorem windowOrder?_congr (h : t.plan = s.plan) (id : Nat) : t.windowOrder? id = s.windowOrder? id := by
  unfold State.windowOrder?
  rw [h]

theorem insertSpan_windowOrder? {a b : Pos} (h : s.plannedSpan l = some (a, b)) (id : Nat) : (s.insertSpan l).windowOrder? id =
    (s.windowOrder? id).map fun w => if w.id == l.w.id then { w with spanInserted := true } else w := by
  rw [insertSpan_some h, windowOrder?_congr (insertExtent_plan _ _), modifyWindow_windowOrder?]
  exact fun _ => rfl

theorem insertSpan_pinning (s : State) (l : Line) : Pinning s (s.insertSpan l) := by
  cases span : s.plannedSpan l with
  | none =>
    rw [insertSpan_none span]
    exact .refl s
  | some ab =>
    have alone := insertExtent_mapAlone (s.modifyWindow l.w.id fun w => { w with spanInserted := true })
      (.closed ab.1 ab.2 .doubleSlit)
    rw [← insertSpan_some span] at alone
    exact {
      frame := by
        calc ({ s.insertSpan l with
                map := s.map, book := s.book, plan := s.plan, splice := s.splice, ports := s.ports, work := s.work } : State)
            = { { s.insertSpan l with map := s.map, ports := s.ports, work := s.work } with
                map := s.map, book := s.book, plan := s.plan, splice := s.splice, ports := s.ports, work := s.work } := rfl
          _ = s := by
            unfold MapAlone at alone
            exact (congrArg (fun v : State => { v with
              map := s.map, book := s.book, plan := s.plan, splice := s.splice, ports := s.ports, work := s.work }) alone)
      plan := by rw [alone.plan]; rfl
      ids := by
        rw [alone.plan]
        unfold State.modifyWindow
        rw [List.map_map]
        refine List.map_congr_left fun w _ => ?_
        rw [Function.comp_apply]
        split <;> rfl
      orders := fun id r e => ⟨r, (order?_congr (insertSpan_book s l) id).trans e, .refl r⟩
      unknown := fun id e => (order?_congr (insertSpan_book s l) id).trans e
      outside := fun id _ => order?_congr (insertSpan_book s l) id
      entries := fun id w e => by
        rw [insertSpan_windowOrder? span, e]
        refine ⟨_, rfl, ?_⟩
        dsimp only
        split <;> rfl }

/-! ### The pins of one order and of those before it (R76) -/

theorem pinOne_pinning (s : State) (id : Nat) (m : Bool) : Pinning s (s.pinOne id m) := by
  cases h : s.lines.find? fun l => l.w.id == id with
  | none =>
    rw [pinOne_unheld h]
    exact .refl s
  | some l =>
    cases k : l.r.pinned with
    | true =>
      rw [pinOne_pinned h k]
      exact .refl s
    | false =>
      rw [pinOne_open h k]
      split
      · exact (pinLine_pinning h k m).trans (insertSpan_pinning _ _)
      · exact pinLine_pinning h k m

theorem pinOne_book (h : (s.lines.find? fun l => l.w.id == id) = some l) (k : l.r.pinned = false) (m : Bool) :
    (s.pinOne id m).book = (s.pinLine l m).book := by
  rw [pinOne_open h k]
  split
  · exact insertSpan_book _ _
  · rfl

/-- An order of the window that the book knows has its end PINNED after its pin. -/
theorem pinOne_pins {w : WindowOrder} (window : s.windowOrder? id = some w) (m : Bool) (h : (s.pinOne id m).order? id = some v) :
    v.pinned = true := by
  cases e : s.order? id with
  | none =>
    rw [(pinOne_pinning s id m).unknown id e] at h
    cases h
  | some r =>
    have found := lines_find?_some window e
    cases k : r.pinned with
    | true =>
      rw [pinOne_pinned found k, e] at h
      cases h
      exact k
    | false =>
      rw [order?_congr (pinOne_book found k m), pinLine_own found k] at h
      cases h
      exact (pin_firmed k s m).2.2

theorem pinOne_other (s : State) (m : Bool) {k : Nat} (other : k ≠ id) :
    ((s.pinOne id m).order? k).map OrderRec.pinned = (s.order? k).map OrderRec.pinned := by
  cases h : s.lines.find? fun l => l.w.id == id with
  | none => rw [pinOne_unheld h]
  | some l =>
    cases e : l.r.pinned with
    | true => rw [pinOne_pinned h e]
    | false => rw [order?_congr (pinOne_book h e m), pinLine_other h e m other]

/-- The pins of several orders, each with its margin. -/
def State.pinAll (s : State) (withMargin : Nat → Bool) (ids : List Nat) : State :=
  ids.foldl (fun t k => t.pinOne k (withMargin k)) s

theorem pinAll_pinning (s : State) (m : Nat → Bool) (ids : List Nat) : Pinning s (s.pinAll m ids) := by
  induction ids generalizing s with
  | nil => exact .refl s
  | cons k ids ih => exact (pinOne_pinning s k (m k)).trans (ih _)

theorem pinAll_pins (m : Nat → Bool) {ids : List Nat} (held : id ∈ ids) {w : WindowOrder} (window : s.windowOrder? id = some w)
    (h : (s.pinAll m ids).order? id = some v) : v.pinned = true := by
  induction ids generalizing s w with
  | nil => cases held
  | cons k ids ih =>
    by_cases own : k = id
    · subst own
      cases e : (s.pinOne k (m k)).order? k with
      | none =>
        have gone : (s.pinAll m (k :: ids)).order? k = none := (pinAll_pinning _ m ids).unknown k e
        rw [gone] at h
        cases h
      | some r =>
        obtain ⟨o, found, firmed⟩ := (pinAll_pinning _ m ids).orders k r e
        have same : some o = some v := found.symm.trans h
        cases same
        exact firmed.pinned (pinOne_pins window (m k) e)
    · obtain ⟨w', window', -⟩ := (pinOne_pinning s k (m k)).entries id w window
      exact ih ((List.mem_cons.mp held).resolve_left (Ne.symm own)) window' h

theorem pinAll_others (s : State) (m : Nat → Bool) {ids : List Nat} (h : id ∉ ids) :
    ((s.pinAll m ids).order? id).map OrderRec.pinned = (s.order? id).map OrderRec.pinned := by
  induction ids generalizing s with
  | nil => rfl
  | cons k ids ih =>
    exact (ih (s.pinOne k (m k)) fun held => h (List.mem_cons_of_mem _ held)).trans
      (pinOne_other s (m k) fun same => h (same ▸ List.mem_cons_self))

theorem pinEnd_unheld (h : s.windowOrder? id = none) (m : Bool) : s.pinEnd id m = s := by
  unfold State.pinEnd
  rw [h]
  rfl

theorem pinEnd_held (h : (s.windowOrder? id).isSome = true) (m : Bool) :
    s.pinEnd id m = s.pinAll (fun k => m || k != id) (idsThrough id s.plan.window) := if_pos h

theorem pinEnd_pinning (s : State) (id : Nat) (m : Bool) : Pinning s (s.pinEnd id m) := by
  cases h : s.windowOrder? id with
  | none =>
    rw [pinEnd_unheld h]
    exact .refl s
  | some w =>
    rw [pinEnd_held (by rw [h]; rfl)]
    exact pinAll_pinning _ _ _

theorem pinStart_pinning (s : State) (id : Nat) : Pinning s (s.pinStart id) := by
  unfold State.pinStart
  split
  · exact pinEnd_pinning _ _ _
  · exact .refl s

theorem mem_idsThrough_self {ws : List WindowOrder} (h : id ∈ ws.map fun w => w.id) : id ∈ idsThrough id ws := by
  induction ws with
  | nil => cases h
  | cons w ws ih =>
    rw [idsThrough]
    split
    · next own => exact List.mem_singleton.mpr (beq_iff_eq.mp own).symm
    · next other =>
      rw [List.map_cons, List.mem_cons] at h
      exact List.mem_cons_of_mem _ (ih (h.resolve_left fun own => other (beq_iff_eq.mpr own.symm)))

/-- The ids up to an order of a window of distinct ids. -/
theorem idsThrough_append {before : List WindowOrder} {w : WindowOrder} (h : id ∉ before.map fun w => w.id) (own : w.id = id)
    (rest : List WindowOrder) : idsThrough id (before ++ w :: rest) = (before ++ [w]).map fun w => w.id := by
  induction before with
  | nil => rw [List.nil_append, idsThrough, if_pos (beq_iff_eq.mpr own)]; rfl
  | cons b before ih =>
    have other : ¬ (b.id == id) = true := fun same => h (by simp [beq_iff_eq.mp same])
    rw [List.cons_append, idsThrough, if_neg other, ih fun held => h (List.mem_cons_of_mem _ held)]
    rfl

/-- An order's own end is PINNED after the pin of its end. -/
theorem pinEnd_pins (h : (s.windowOrder? id).isSome = true) (m : Bool) (k : (s.pinEnd id m).order? id = some v) :
    v.pinned = true := by
  obtain ⟨w, window⟩ := Option.isSome_iff_exists.mp h
  rw [pinEnd_held h] at k
  exact pinAll_pins _ (mem_idsThrough_self ((windowOrder?_isSome_iff s id).mp h)) window k

end Sys2Proof.Machine
end

section
/-! PROOF. Cut positions (R72), the entry of orders into CUTTING (R49), the double-slit spans (R77, R89), and O52. -/

namespace Sys2Proof.Machine

variable {s t u : State} {l k : Line} {id : Nat} {r v : OrderRec}

/-! ### Cut positions (R72) -/

theorem cutPositions_rule : Rule.CutPositions := by
  intro p d sf n m
  have next : ∀ i : Nat, (i + 1) * sf = i * sf + sf := fun i => Nat.succ_mul i sf
  unfold cutPosition
  rw [next n, next m, Nat.zero_mul]
  generalize n * sf = x
  generalize m * sf = y
  dsimp only [Pos] at *
  refine ⟨by omega, by omega, by omega, by omega, by omega⟩

/-! ### The entry into CUTTING (R49) -/

/-- A record at a counter update, for an order of the window: PLANNED and its start reached, it enters CUTTING. -/
def OrderRec.reached (r : OrderRec) (knife : Pos) : OrderRec :=
  if r.phase = .planned ∧ r.p.getD 0 ≤ knife then { r with phase := .cutting } else r

theorem reached_reached (r : OrderRec) (knife : Pos) : (r.reached knife).reached knife = r.reached knife := by
  by_cases h : r.phase = .planned ∧ r.p.getD 0 ≤ knife
  · have cut : r.reached knife = { r with phase := .cutting } := if_pos h
    rw [cut]
    exact if_neg (by simp)
  · have same : r.reached knife = r := if_neg h
    rw [same, same]

/-- Only the book and the ports differ between two states. -/
def BookAlone (s t : State) : Prop := { t with book := s.book, ports := s.ports } = s

theorem BookAlone.refl (s : State) : BookAlone s s := rfl

theorem BookAlone.trans (h : BookAlone s t) (k : BookAlone t u) : BookAlone s u := by
  unfold BookAlone at *
  calc ({ u with book := s.book, ports := s.ports } : State)
      = { { u with book := t.book, ports := t.ports } with book := s.book, ports := s.ports } := rfl
    _ = s := by rw [k, h]

theorem BookAlone.knife (h : BookAlone s t) : t.knife = s.knife := by
  unfold BookAlone at h
  rw [← h]
  rfl

theorem startCutting_unknown (h : s.order? id = none) : s.startCutting id = s := by
  unfold State.startCutting
  rw [h]

theorem startCutting_waits (h : s.order? id = some r) (k : ¬ (r.phase = .planned ∧ r.p.getD 0 ≤ s.knife)) :
    s.startCutting id = s := by
  unfold State.startCutting
  rw [h]
  exact if_neg (by simpa using k)

theorem startCutting_starts (h : s.order? id = some r) (k : r.phase = .planned ∧ r.p.getD 0 ≤ s.knife) :
    s.startCutting id = (s.modifyOrder id fun r => { r with phase := .cutting }).raise .started := by
  unfold State.startCutting
  rw [h]
  exact if_pos (by simpa using k)

theorem startCutting_bookAlone (s : State) (id : Nat) : BookAlone s (s.startCutting id) := by
  unfold State.startCutting
  split
  · split <;> rfl
  · rfl

/-- One order tried for CUTTING: its own record alone may change. -/
theorem startCutting_order? (s : State) (id k : Nat) :
    (s.startCutting id).order? k = (s.order? k).map fun r => if k = id then r.reached s.knife else r := by
  cases e : s.order? id with
  | none =>
    rw [startCutting_unknown e]
    by_cases own : k = id
    · rw [own, e]
      rfl
    · simp only [own, if_false, Option.map_id']
  | some r =>
    by_cases starts : r.phase = .planned ∧ r.p.getD 0 ≤ s.knife
    · rw [startCutting_starts e starts]
      change (s.modifyOrder id _).order? k = _
      by_cases own : k = id
      · have cut : r.reached s.knife = { r with phase := .cutting } := if_pos starts
        rw [own, order?_modifyOrder (f := fun r => { r with phase := .cutting }) (fun _ => rfl) e, e, Option.map_some, if_pos rfl,
          cut]
      · rw [order?_modifyOrder_other (f := fun r => { r with phase := .cutting }) (fun _ => rfl) own]
        simp only [own, if_false, Option.map_id']
    · rw [startCutting_waits e starts]
      by_cases own : k = id
      · have same : r.reached s.knife = r := if_neg starts
        rw [own, e, Option.map_some, if_pos rfl, same]
      · simp only [own, if_false, Option.map_id']

/-- The orders of some entries tried for CUTTING, in turn. -/
def State.startAll (s : State) (ws : List WindowOrder) : State := ws.foldl (fun t w => t.startCutting w.id) s

theorem startAll_bookAlone (s : State) (ws : List WindowOrder) : BookAlone s (s.startAll ws) := by
  induction ws generalizing s with
  | nil => exact .refl s
  | cons w ws ih => exact (startCutting_bookAlone s w.id).trans (ih _)

theorem startAll_order? (s : State) (ws : List WindowOrder) (k : Nat) : (s.startAll ws).order? k =
    (s.order? k).map fun r => if k ∈ ws.map fun w => w.id then r.reached s.knife else r := by
  induction ws generalizing s with
  | nil => simp [State.startAll]
  | cons w ws ih =>
    have step : (s.startAll (w :: ws)).order? k = ((s.startCutting w.id).startAll ws).order? k := rfl
    rw [step, ih, startCutting_order?, Option.map_map, (startCutting_bookAlone s w.id).knife]
    congr 1
    funext r
    simp only [Function.comp_apply, List.map_cons, List.mem_cons]
    by_cases own : k = w.id
    · simp only [own, true_or, if_true, reached_reached, ite_self]
    · simp only [own, if_false, false_or]

theorem startAll_untouched (s : State) (ws : List WindowOrder) : Untouched s (s.startAll ws) :=
  Untouched.foldl _ (fun _ k => k.startCutting _) _ (.refl s)

theorem startCutting_raises (h : s.order? id = some r) (k : r.phase = .planned ∧ r.p.getD 0 ≤ s.knife)
    (classes : (s.port .planning).classes.length = 12) : ((s.startCutting id).port .planning).rawOf 3 = true := by
  rw [startCutting_starts h k]
  exact raise_raw (s.modifyOrder id fun r => { r with phase := .cutting }) .started (classes ▸ (by decide : 3 < 12))

theorem startAll_raises {ws : List WindowOrder} (held : id ∈ ws.map fun w => w.id) (h : s.order? id = some r)
    (k : r.phase = .planned ∧ r.p.getD 0 ≤ s.knife) (classes : (s.port .planning).classes.length = 12) :
    ((s.startAll ws).port .planning).rawOf 3 = true := by
  induction ws generalizing s with
  | nil => cases held
  | cons w ws ih =>
    have grows := ((Untouched.refl s).startCutting w.id).ports .planning
    by_cases own : id = w.id
    · subst own
      exact ((startAll_untouched _ ws).ports .planning).raw 3 (startCutting_raises h k classes)
    · rw [List.map_cons, List.mem_cons] at held
      refine ih (held.resolve_left own) ?_ ?_ (grows.classCount.trans classes)
      · rw [startCutting_order?, h, Option.map_some, if_neg own]
      · rw [(startCutting_bookAlone s w.id).knife]
        exact k

theorem startAll_waits {ws : List WindowOrder}
    (h : ∀ w ∈ ws, ∀ r, s.order? w.id = some r → ¬ (r.phase = .planned ∧ r.p.getD 0 ≤ s.knife)) : s.startAll ws = s := by
  induction ws with
  | nil => rfl
  | cons w ws ih =>
    have same : s.startCutting w.id = s := by
      cases e : s.order? w.id with
      | none => exact startCutting_unknown e
      | some r => exact startCutting_waits e (h w List.mem_cons_self r e)
    change (s.startCutting w.id).startAll ws = s
    rw [same]
    exact ih fun w held => h w (List.mem_cons_of_mem _ held)

theorem cutting_rule : Rule.Cutting := by
  intro s distinct
  have form : s.cutting = s.startAll s.plan.window := rfl
  have figures := (startAll_untouched s s.plan.window).figures distinct.book
  refine ⟨fun id r b record start => ?_, figures, fun waits => ?_, startAll_bookAlone s _⟩
  · have window : id ∈ (s.plan.window.map fun w => w.id) ↔ (s.windowOrder? id).isSome = true :=
      (windowOrder?_isSome_iff s id).symm
    have place : r.p.getD 0 = b := by rw [start]; rfl
    have after : s.cutting.order? id = some (if (s.windowOrder? id).isSome = true then r.reached s.knife else r) := by
      rw [form, startAll_order?, record, Option.map_some]
      simp only [window]
    refine ⟨fun ⟨planned, held, reached⟩ => ⟨?_, fun classes => ?_⟩, fun stays => ?_⟩
    · rw [after, if_pos held]
      exact congrArg some (if_pos ⟨planned, place ▸ reached⟩)
    · exact startAll_raises (window.mpr held) record ⟨planned, place ▸ reached⟩ classes
    · rw [after]
      split
      · next held => exact congrArg some (if_neg fun starts => stays ⟨starts.1, held, place ▸ starts.2⟩)
      · rfl
  · refine startAll_waits fun w held r record starts => ?_
    obtain ⟨b, start, behind⟩ :=
      waits w.id r record starts.1 ((windowOrder?_isSome_iff s w.id).mpr (List.mem_map_of_mem held))
    have reached := starts.2
    rw [start, Option.getD_some] at reached
    exact absurd reached (not_le.mpr behind)

/-! ### Planned spans (R89) -/

theorem plannedSpan_due (down : l.w.swap.bothDown) (waits : l.w.spanInserted = false) (s : State) :
    s.plannedSpan l = some (l.start, l.start + (s.profile.slitter.dA : Int) - s.profile.slitter.dB) := by
  unfold State.plannedSpan
  rw [if_pos (by simp [(doubleSlit_iff _).mpr down, waits]), State.doubleSlitLength, ← Int.add_sub_assoc]

theorem plannedSpan_none (h : ¬ l.w.swap.bothDown ∨ l.w.spanInserted = true) (s : State) : s.plannedSpan l = none := by
  unfold State.plannedSpan
  refine if_neg fun both => ?_
  rw [Bool.and_eq_true, doubleSlit_iff, Bool.not_eq_true'] at both
  rcases h with h | h
  · exact h both.1
  · exact absurd (h.symm.trans both.2) nofun

/-! ### The span at the end of a pinned order (R77) -/

theorem lines_neighbours {before after : List Line} (ids : (t.lines.map fun l => l.w.id) = s.lines.map fun l => l.w.id)
    (h : s.lines = before ++ l :: k :: after) : ∃ before' l' k' after', t.lines = before' ++ l' :: k' :: after' ∧
      (before'.map fun l => l.w.id) = (before.map fun l => l.w.id) ∧ l'.w.id = l.w.id ∧ k'.w.id = k.w.id := by
  rw [h, List.map_append, List.map_cons, List.map_cons] at ids
  obtain ⟨before', rest, split, same, ids⟩ := List.map_eq_append_iff.mp ids
  obtain ⟨l', rest', rfl, own, ids⟩ := List.map_eq_cons_iff.mp ids
  obtain ⟨k', after', rfl, next, -⟩ := List.map_eq_cons_iff.mp ids
  exact ⟨before', l', k', after', split, same, own, next⟩

/-- The ids in front of a line are none of its own. -/
theorem id_not_before {before after : List Line} (distinct : (s.plan.window.map fun w => w.id).Nodup)
    (h : s.lines = before ++ l :: after) : l.w.id ∉ before.map fun l => l.w.id := by
  have nodup := lines_ids_nodup distinct
  rw [h, List.map_append, List.map_cons, List.nodup_append] at nodup
  exact fun held => nodup.2.2 _ held _ List.mem_cons_self rfl

theorem line_find? {before after : List Line} (distinct : (s.plan.window.map fun w => w.id).Nodup)
    (h : s.lines = before ++ l :: after) : (s.lines.find? fun m => m.w.id == l.w.id) = some l := by
  have held : l ∈ s.lines := by rw [h]; simp
  exact lines_find?_some (line_windowOrder? distinct held) (line_order? held)

/-- Behind a pin the line after the pinned one is that of the same entry, with its record as the pin has moved it. -/
theorem pinLine_after {before after : List Line} (distinct : (s.plan.window.map fun w => w.id).Nodup)
    (h : s.lines = before ++ l :: k :: after) (isOpen : l.r.pinned = false) (m : Bool) :
    ∃ o, lineAfter l.w.id (s.pinLine l m).lines = some ⟨k.w, o⟩ ∧ (s.pinLine l m).order? k.w.id = some o := by
  have found := line_find? distinct h
  have pinning := pinLine_pinning found isOpen m
  obtain ⟨before', l', k', after', split, same, own, next⟩ := lines_neighbours pinning.lines_ids h
  have kept : (s.pinLine l m).plan.window.map (fun w => w.id) = s.plan.window.map fun w => w.id := pinning.ids
  have held : k' ∈ (s.pinLine l m).lines := by rw [split]; simp
  have entry : (s.pinLine l m).windowOrder? k'.w.id = some k'.w := line_windowOrder? (kept ▸ distinct) held
  rw [next, pinLine_entries found isOpen m] at entry
  rw [line_windowOrder? distinct (by rw [h]; simp : k ∈ s.lines)] at entry
  refine ⟨k'.r, ?_, next ▸ line_order? held⟩
  rw [split, lineAfter_append before' (same ▸ id_not_before distinct h) own, Option.some_inj.mp entry]
  rfl

theorem spanAtPin_rule (s : State) (id : Nat) (m : Bool) (before after : List Line) (l k : Line) (distinct : s.idsDistinct)
    (h : s.lines = before ++ l :: k :: after) (own : l.w.id = id) (isOpen : l.r.pinned = false) :
    let t := s.pinOne id m
    (¬ k.w.swap.bothDown ∨ k.w.spanInserted = true → t.map = s.map ∧
      (t.windowOrder? k.w.id).map WindowOrder.spanInserted = some k.w.spanInserted) ∧
    (k.w.swap.bothDown → k.w.spanInserted = false → ∃ r w, t.order? k.w.id = some r ∧ t.windowOrder? k.w.id = some w ∧
      w.spanInserted = true ∧
      t.covers .doubleSlit (r.p.getD 0) (r.p.getD 0 + (s.profile.slitter.dA : Int) - s.profile.slitter.dB)) := by
  subst own
  have found := line_find? distinct.window h
  obtain ⟨o, after', record⟩ := pinLine_after distinct.window h isOpen m
  have entry : (s.pinLine l m).windowOrder? k.w.id = some k.w :=
    (pinLine_entries found isOpen m _).trans (line_windowOrder? distinct.window (by rw [h]; simp))
  have form : s.pinOne l.w.id m = (s.pinLine l m).insertSpan ⟨k.w, o⟩ := by rw [pinOne_open found isOpen, after']
  have profile := (pinLine_pinning found isOpen m).profile
  dsimp only
  rw [form]
  refine ⟨fun none_ => ?_, fun down waits => ?_⟩
  · rw [insertSpan_none (plannedSpan_none (l := ⟨k.w, o⟩) none_ _), entry]
    exact ⟨pinLine_map s l m, rfl⟩
  · have span := plannedSpan_due (l := ⟨k.w, o⟩) down waits (s.pinLine l m)
    rw [profile] at span
    refine ⟨o, { k.w with spanInserted := true }, (order?_congr (insertSpan_book _ _) _).trans record, ?_, rfl, ?_⟩
    · rw [insertSpan_windowOrder? span, entry, Option.map_some, if_pos (beq_self_eq_true _)]
    · rw [insertSpan_some span]
      exact insertExtent_closed_covers _ _ _ _ _

/-! ### The spans of boundaries pinned already (R89, log 14) -/

/-- The pin of a start rests on the ids and the records of the lines. -/
theorem lineBefore_record_congr {ls ms : List Line} {o p : Option Line}
    (h : (ls.map fun l => (l.w.id, l.r)) = ms.map fun l => (l.w.id, l.r)) (k : o.map Line.r = p.map Line.r) :
    (lineBefore id o ls).map Line.r = (lineBefore id p ms).map Line.r := by
  induction ls generalizing ms o p with
  | nil =>
    rw [List.map_eq_nil_iff.mp h.symm]
    rfl
  | cons l ls ih =>
    cases ms with
    | nil => cases h
    | cons m ms =>
      rw [List.map_cons, List.map_cons, List.cons.injEq, Prod.mk.injEq] at h
      obtain ⟨⟨same, record⟩, rest⟩ := h
      rw [lineBefore, lineBefore, same]
      split
      · exact k
      · exact ih rest (congrArg some record)

theorem lines_records_congr (book : t.book = s.book)
    (ids : (t.plan.window.map fun w => w.id) = s.plan.window.map fun w => w.id) :
    (t.lines.map fun l => (l.w.id, l.r)) = s.lines.map fun l => (l.w.id, l.r) := by
  have form : ∀ u : State, (u.lines.map fun l => (l.w.id, l.r)) =
      (u.plan.window.map fun w => w.id).filterMap fun id => (u.order? id).map fun r => (id, r) := by
    intro u
    unfold State.lines
    rw [List.map_filterMap, List.filterMap_map]
    refine List.filterMap_congr fun w _ => ?_
    rw [Function.comp_apply]
    cases u.order? w.id <;> rfl
  rw [form, form, ids]
  refine List.filterMap_congr fun id _ => ?_
  rw [order?_congr book]

theorem startPinned_congr (book : t.book = s.book)
    (ids : (t.plan.window.map fun w => w.id) = s.plan.window.map fun w => w.id) (id : Nat) :
    t.startPinned id = s.startPinned id := by
  have same := lineBefore_record_congr (id := id) (o := none) (p := none) (lines_records_congr book ids) rfl
  have form : ∀ u : State, u.startPinned id =
      !(((lineBefore id none u.lines).map Line.r).map fun r => !r.pinned).getD false := by
    intro u
    unfold State.startPinned State.startOpen
    cases lineBefore id none u.lines <;> rfl
  rw [form, form, same]

/-- Only the map, the plan, the ports and the acts due differ between two states. -/
def SpansAlone (s t : State) : Prop := { t with map := s.map, plan := s.plan, ports := s.ports, work := s.work } = s

theorem SpansAlone.trans (h : SpansAlone s t) (k : SpansAlone t u) : SpansAlone s u := by
  unfold SpansAlone at *
  calc ({ u with map := s.map, plan := s.plan, ports := s.ports, work := s.work } : State)
      = { { u with map := t.map, plan := t.plan, ports := t.ports, work := t.work } with
          map := s.map, plan := s.plan, ports := s.ports, work := s.work } := rfl
    _ = s := by rw [k, h]

theorem insertSpan_spansAlone (s : State) (l : Line) : SpansAlone s (s.insertSpan l) := by
  cases span : s.plannedSpan l with
  | none =>
    rw [insertSpan_none span]
    rfl
  | some ab =>
    have alone := insertExtent_mapAlone (s.modifyWindow l.w.id fun w => { w with spanInserted := true })
      (.closed ab.1 ab.2 .doubleSlit)
    rw [insertSpan_some span]
    unfold MapAlone at alone
    exact (congrArg (fun v : State => { v with map := s.map, plan := s.plan, ports := s.ports, work := s.work }) alone :)

/-- The span of a boundary inserted if its start is pinned. -/
def State.insertIfPinned (s : State) (b : Line × PrevFigures) : State :=
  if s.startPinned b.1.w.id then s.insertSpan b.1 else s

/-- Whether the span of a boundary that is pinned already waits to be inserted. -/
def State.spanDue (s : State) (b : Line × PrevFigures) : Prop :=
  b.1.w.swap.bothDown ∧ b.1.w.spanInserted = false ∧ s.startPinned b.1.w.id = true

theorem insertIfPinned_waits {b : Line × PrevFigures} (h : ¬ s.spanDue b) : s.insertIfPinned b = s := by
  unfold State.insertIfPinned
  split
  · next pinned =>
    refine insertSpan_none (plannedSpan_none ?_ s)
    by_contra both
    rw [not_or, not_not, Bool.not_eq_true] at both
    exact h ⟨both.1, both.2, pinned⟩
  · rfl

theorem insertIfPinned_eq (s : State) (b : Line × PrevFigures) :
    s.insertIfPinned b = s ∨ s.insertIfPinned b = s.insertSpan b.1 := by
  unfold State.insertIfPinned
  split
  · exact .inr rfl
  · exact .inl rfl

/-- What the spans inserted at pinned boundaries leave: the records, the ids, and all but the map and the marks. -/
structure SpansKept (s t : State) : Prop where
  alone : SpansAlone s t
  pinning : Pinning s t
  book : t.book = s.book
  covers : ∀ c a b, s.covers c a b → t.covers c a b

theorem SpansKept.refl (s : State) : SpansKept s s := ⟨rfl, .refl s, rfl, fun _ _ _ h => h⟩

theorem SpansKept.trans (h : SpansKept s t) (k : SpansKept t u) : SpansKept s u :=
  ⟨h.alone.trans k.alone, h.pinning.trans k.pinning, k.book.trans h.book, fun c a b e => k.covers c a b (h.covers c a b e)⟩

theorem insertSpan_kept (s : State) (l : Line) : SpansKept s (s.insertSpan l) := by
  refine ⟨insertSpan_spansAlone s l, insertSpan_pinning s l, insertSpan_book s l, fun c a b h => ?_⟩
  cases span : s.plannedSpan l with
  | none =>
    rw [insertSpan_none span]
    exact h
  | some ab =>
    rw [insertSpan_some span]
    exact insertExtent_covers _ _ _ _ _ h

theorem insertIfPinned_kept (s : State) (b : Line × PrevFigures) : SpansKept s (s.insertIfPinned b) := by
  rcases insertIfPinned_eq s b with e | e <;> rw [e]
  · exact .refl s
  · exact insertSpan_kept s b.1

theorem insertIfPinned_other {b : Line × PrevFigures} (h : b.1.w.id ≠ id) :
    (s.insertIfPinned b).windowOrder? id = s.windowOrder? id := by
  rcases insertIfPinned_eq s b with e | e <;> rw [e]
  cases span : s.plannedSpan b.1 with
  | none => rw [insertSpan_none span]
  | some ab =>
    rw [insertSpan_windowOrder? span]
    cases found : s.windowOrder? id with
    | none => rfl
    | some w =>
      have other : ¬ (w.id == b.1.w.id) = true := fun same =>
        h ((beq_iff_eq.mp same).symm.trans (windowOrder?_id found))
      rw [Option.map_some, if_neg other]

theorem insertAll_kept (s : State) (bs : List (Line × PrevFigures)) : SpansKept s (bs.foldl State.insertIfPinned s) := by
  induction bs generalizing s with
  | nil => exact .refl s
  | cons b bs ih => exact (insertIfPinned_kept s b).trans (ih _)

theorem insertAll_others {bs : List (Line × PrevFigures)} (h : id ∉ bs.map fun b => b.1.w.id) (s : State) :
    (bs.foldl State.insertIfPinned s).windowOrder? id = s.windowOrder? id := by
  induction bs generalizing s with
  | nil => rfl
  | cons b bs ih =>
    rw [List.map_cons, List.mem_cons, not_or] at h
    exact (ih h.2 _).trans (insertIfPinned_other (Ne.symm h.1))

theorem insertAll_waits {bs : List (Line × PrevFigures)} (h : ∀ b ∈ bs, ¬ s.spanDue b) : bs.foldl State.insertIfPinned s = s := by
  induction bs with
  | nil => rfl
  | cons b bs ih =>
    rw [List.foldl_cons, insertIfPinned_waits (h b List.mem_cons_self)]
    exact ih fun b held => h b (List.mem_cons_of_mem _ held)

theorem boundary_line {b : Line × PrevFigures} (h : b ∈ s.boundaries) : b.1 ∈ s.lines := by
  obtain ⟨x, held, line⟩ := List.mem_filterMap.mp h
  obtain ⟨p, -, rfl⟩ := Option.map_eq_some_iff.mp line
  have first := List.mem_map_of_mem (f := Prod.fst) held
  rwa [map_withPrev] at first

theorem insertAll_due {b : Line × PrevFigures} (distinct : s.idsDistinct) (held : b ∈ s.boundaries) (due : s.spanDue b) :
    (s.insertPinnedSpans.windowOrder? b.1.w.id = some { b.1.w with spanInserted := true }) ∧
    s.insertPinnedSpans.covers .doubleSlit b.1.start
      (b.1.start + (s.profile.slitter.dA : Int) - s.profile.slitter.dB) := by
  obtain ⟨before, after, split⟩ := List.append_of_mem held
  have nodup := boundaries_distinct distinct.window
  rw [split, List.map_append, List.map_cons, List.nodup_append, List.nodup_cons] at nodup
  obtain ⟨-, ⟨later, -⟩, earlier⟩ := nodup
  have notBefore : b.1.w.id ∉ before.map fun b => b.1.w.id := fun m => earlier _ m _ List.mem_cons_self rfl
  generalize front : before.foldl State.insertIfPinned s = u
  have kept : SpansKept s u := front ▸ insertAll_kept s before
  have entry : u.windowOrder? b.1.w.id = some b.1.w := by
    rw [← front, insertAll_others notBefore]
    exact line_windowOrder? distinct.window (boundary_line held)
  have pinned : u.startPinned b.1.w.id = true := (startPinned_congr kept.book kept.pinning.ids _).trans due.2.2
  have span := plannedSpan_due due.1 due.2.1 u
  rw [kept.pinning.profile] at span
  have step : u.insertIfPinned b = u.insertSpan b.1 := if_pos pinned
  have form : s.insertPinnedSpans = after.foldl State.insertIfPinned (u.insertSpan b.1) := by
    have all : s.insertPinnedSpans = s.boundaries.foldl State.insertIfPinned s := rfl
    rw [all, split, List.foldl_append, front, List.foldl_cons, step]
  rw [form]
  refine ⟨?_, (insertAll_kept _ after).covers _ _ _ ?_⟩
  · rw [insertAll_others later, insertSpan_windowOrder? span, entry, Option.map_some, if_pos (beq_self_eq_true _)]
  · rw [insertSpan_some span]
    exact insertExtent_closed_covers _ _ _ _ _

theorem doubleSlitSpans_rule : Rule.DoubleSlitSpans := by
  refine ⟨fun s l => ⟨fun down waits => plannedSpan_due down waits s, fun none_ => plannedSpan_none none_ s⟩, spanAtPin_rule,
    fun s distinct => ⟨insertAll_waits, fun b held due => ?_, (insertAll_kept s _).book, (insertAll_kept s _).alone⟩⟩
  obtain ⟨entry, covers⟩ := insertAll_due distinct held due
  exact ⟨⟨_, entry, rfl⟩, covers⟩

/-- Settles O52: the cut positions, the entry into CUTTING and the spans of pinned boundaries. -/
theorem cutPositionsAreRounded : Obligations.CutPositionsAreRounded := ⟨cutPositions_rule, cutting_rule, doubleSlitSpans_rule⟩

end Sys2Proof.Machine
end

section
/-! PROOF. Settles O53: the head of the window leaving it (R71, R92), and the close test (R60, R61, R58). -/

namespace Sys2Proof.Machine

variable {s t : State} {w v : WindowOrder} {ws : List WindowOrder} {l : Line} {id : Nat} {r : OrderRec} {st : Station}

/-! ### Late swaps that lapse with the head (log 16) -/

/-- The late swap a station holds for an order lapsed. -/
def State.lapseHeld (id : Nat) (s : State) (st : Station) : State :=
  match (s.station st).late with
  | some x => if x.order == id then s.lapseSwap st x else s
  | none => s

/-- A station holds a late swap of an order. -/
def State.holdsLate (s : State) (id : Nat) (st : Station) : Bool :=
  match (s.station st).late with
  | some x => x.order == id
  | none => false

theorem holdsLate_iff (s : State) (id : Nat) (st : Station) :
    s.holdsLate id st = true ↔ ∃ x, (s.station st).late = some x ∧ x.order = id := by
  unfold State.holdsLate
  cases (s.station st).late <;> simp

theorem lapseHeld_unheld (h : s.holdsLate id st = false) : s.lapseHeld id st = s := by
  unfold State.holdsLate at h
  unfold State.lapseHeld
  split
  · rename_i x late
    rw [late] at h
    exact if_neg (ne_true_of_eq_false h)
  · rfl

theorem lapseHeld_held (h : s.holdsLate id st = true) : ∃ x, x.order = id ∧ s.lapseHeld id st = s.lapseSwap st x := by
  obtain ⟨x, late, own⟩ := (holdsLate_iff s id st).mp h
  unfold State.lapseHeld
  rw [late]
  exact ⟨x, own, if_pos (beq_iff_eq.mpr own)⟩

theorem lapseSwap_book (s : State) (st : Station) (x : LateSwap) : (s.lapseSwap st x).book = s.book :=
  (replan_book _).trans (closeClaim_mapAlone s _ _).book

theorem lapseSwap_plan (s : State) (st : Station) (x : LateSwap) :
    (s.lapseSwap st x).plan = (s.modifyWindow x.order fun w => { w with lapsed := true }).plan := by
  refine (replan_plan _).trans ?_
  have closed := (closeClaim_mapAlone s (.slitNotReady st) (((s.order? x.order).bind OrderRec.e).getD x.position)).plan
  unfold State.modifyWindow
  rw [← closed]
  rfl

theorem lapseSwap_station_other {sv : Station} (h : sv ≠ st) (x : LateSwap) : (s.lapseSwap st x).station sv = s.station sv := by
  have slitter := (closeClaim_mapAlone s (.slitNotReady st) (((s.order? x.order).bind OrderRec.e).getD x.position)).slitter
  refine (congrArg (fun m : SlitterUnit => m.stations.get sv) (replan_mapAlone _).slitter).trans ?_
  refine (PerStation.get_set_other _ _ _ _ h).trans ?_
  exact congrArg (fun m : SlitterUnit => m.stations.get sv) slitter

theorem modifyWindow_head (window : s.plan.window = w :: ws) (apart : ∀ v ∈ ws, v.id ≠ w.id) (f : WindowOrder → WindowOrder) :
    (s.modifyWindow w.id f).plan = { s.plan with window := f w :: ws } := by
  have rest : (ws.map fun v => if v.id == w.id then f v else v) = ws :=
    (List.map_congr_left fun v held => if_neg fun same => apart v held (beq_iff_eq.mp same)).trans (List.map_id' ws)
  unfold State.modifyWindow
  rw [window, List.map_cons, rest, if_pos (beq_self_eq_true _)]

theorem lapseHeld_plan (window : s.plan.window = w :: ws) (apart : ∀ v ∈ ws, v.id ≠ w.id) (st : Station) :
    (s.lapseHeld w.id st).plan = { s.plan with window := { w with lapsed := w.lapsed || s.holdsLate w.id st } :: ws } := by
  cases held : s.holdsLate w.id st with
  | false => rw [lapseHeld_unheld held, Bool.or_false, ← window]
  | true =>
    obtain ⟨x, own, form⟩ := lapseHeld_held held
    rw [form, lapseSwap_plan, own, modifyWindow_head window apart, Bool.or_true]

theorem lapseHeld_book (s : State) (id : Nat) (st : Station) : (s.lapseHeld id st).book = s.book := by
  cases held : s.holdsLate id st with
  | false => rw [lapseHeld_unheld held]
  | true =>
    obtain ⟨x, -, form⟩ := lapseHeld_held held
    rw [form, lapseSwap_book]

theorem lapseHeld_untouched (s : State) (id : Nat) (st : Station) : Untouched s (s.lapseHeld id st) := by
  cases held : s.holdsLate id st with
  | false =>
    rw [lapseHeld_unheld held]
    exact .refl s
  | true =>
    obtain ⟨x, -, form⟩ := lapseHeld_held held
    rw [form]
    exact (Untouched.refl s).lapseSwap st x

theorem holdsLate_lapseHeld_other {sv : Station} (h : sv ≠ st) (s : State) (id k : Nat) :
    (s.lapseHeld id st).holdsLate k sv = s.holdsLate k sv := by
  cases held : s.holdsLate id st with
  | false => rw [lapseHeld_unheld held]
  | true =>
    obtain ⟨x, -, form⟩ := lapseHeld_held held
    unfold State.holdsLate
    rw [form, lapseSwap_station_other h]

/-- The late swaps of both stations that an order holds, lapsed. -/
def State.lapseBoth (s : State) (id : Nat) : State := [Station.a, .b].foldl (State.lapseHeld id) s

/-- An order's swap has lapsed, or lapses when the order departs. -/
def State.lapsesAt (s : State) (w : WindowOrder) : Bool := w.lapsed || s.holdsLate w.id .a || s.holdsLate w.id .b

theorem lapsesAt_iff (s : State) (w : WindowOrder) :
    s.lapsesAt w = true ↔ w.lapsed = true ∨ ∃ st x, (s.station st).late = some x ∧ x.order = w.id := by
  simp only [State.lapsesAt, Bool.or_eq_true, holdsLate_iff]
  constructor
  · rintro ((lapsed | held) | held)
    · exact .inl lapsed
    · exact .inr ⟨_, held⟩
    · exact .inr ⟨_, held⟩
  · rintro (lapsed | ⟨st, held⟩)
    · exact .inl (.inl lapsed)
    · cases st with
      | a => exact .inl (.inr held)
      | b => exact .inr held

theorem lapseBoth_plan (window : s.plan.window = w :: ws) (apart : ∀ v ∈ ws, v.id ≠ w.id) :
    (s.lapseBoth w.id).plan = { s.plan with window := { w with lapsed := s.lapsesAt w } :: ws } := by
  have first := lapseHeld_plan window apart .a
  have second := lapseHeld_plan (s := s.lapseHeld w.id .a) (congrArg Planner.window first) apart .b
  refine second.trans ?_
  rw [first, holdsLate_lapseHeld_other (by decide)]
  rfl

theorem lapseBoth_book (s : State) (id : Nat) : (s.lapseBoth id).book = s.book :=
  (lapseHeld_book _ id .b).trans (lapseHeld_book s id .a)

theorem lapseBoth_untouched (s : State) (id : Nat) : Untouched s (s.lapseBoth id) :=
  Untouched.foldl _ (fun _ k => k.trans (lapseHeld_untouched _ id _)) _ (.refl s)

/-! ### The head leaving the window (R71, R92) -/

/-- The plan when the order of the line `l` has left it from the head, with its figures passed on. -/
def Planner.behind (p : Planner) (l : Line) (lapsed : Bool) : List WindowOrder → Planner
  | [] => { p with window := [], tail := some { l.figures with lapsed := false }, w0 := l.r.e.getD p.w0 }
  | v :: ws => { p with window := { v with prev := some { l.figures with lapsed := lapsed } } :: ws }

theorem departTarget_spliceAlone (s : State) (id : Nat) (x : Stream) : SpliceAlone s (s.departTarget id x) := by
  unfold State.departTarget State.setSlot
  split
  · split <;> rfl
  · rfl

theorem departTargets_spliceAlone (s : State) (id : Nat) :
    SpliceAlone s (Stream.all.foldl (fun t x => t.departTarget id x) s) := by
  generalize Stream.all = xs
  induction xs generalizing s with
  | nil => rfl
  | cons x xs ih => exact (departTarget_spliceAlone s id x).trans (ih _)

theorem leaveHead_form {ls : List Line} (lines : s.lines = l :: ls) (window : s.plan.window = w :: ws) : ∃ d acts, ∀ u lapsed,
    u = s.lapseBoth l.w.id → lapsed = ((u.windowOrder? l.w.id).map WindowOrder.lapsed).getD l.w.lapsed →
    s.leaveHead = (Stream.all.foldl (fun (t : State) x => t.departTarget l.w.id x)
      { u with plan := u.plan.behind l lapsed ws, dry := d }).replan.push acts := by
  unfold State.leaveHead
  rw [lines, window]
  cases ws
  all_goals
    apply Exists.intro
    apply Exists.intro
    rintro u lapsed rfl rfl
    rfl

/-- The head of the window leaves it: the book stands, and the plan is the one behind it. -/
theorem leaveHead_plan (window : s.plan.window = w :: ws) (apart : ∀ v ∈ ws, v.id ≠ w.id) (h : s.order? w.id = some r) :
    s.leaveHead.plan = s.plan.behind ⟨w, r⟩ (s.lapsesAt w) ws ∧ s.leaveHead.book = s.book ∧
    (s.part = .tracking → Task.recompute ∈ s.leaveHead.work) := by
  have lines : ∃ ls, s.lines = ⟨w, r⟩ :: ls := by
    refine ⟨ws.filterMap fun v => (s.order? v.id).map fun r => ⟨v, r⟩, ?_⟩
    unfold State.lines
    rw [window]
    exact List.filterMap_cons_some (by rw [h]; rfl)
  obtain ⟨ls, lines⟩ := lines
  have plan := lapseBoth_plan window apart
  have lapsed : (((s.lapseBoth w.id).windowOrder? w.id).map WindowOrder.lapsed).getD w.lapsed = s.lapsesAt w := by
    unfold State.windowOrder?
    rw [plan]
    dsimp only
    rw [List.find?_cons_of_pos (p := fun v : WindowOrder => v.id == w.id) (a := { w with lapsed := s.lapsesAt w }) (beq_self_eq_true w.id)]
    rfl
  obtain ⟨d, acts, form⟩ := leaveHead_form lines window
  rw [form _ _ rfl lapsed.symm]
  generalize start : ({ s.lapseBoth w.id with plan := (s.lapseBoth w.id).plan.behind ⟨w, r⟩ (s.lapsesAt w) ws, dry := d } : State) = u
  have alone := departTargets_spliceAlone u w.id
  have part : u.part = s.part := by
    rw [← start]
    exact (lapseBoth_untouched s w.id).part
  refine ⟨?_, ?_, fun tracking => ?_⟩
  · calc _ = u.plan := (replan_plan _).trans alone.plan
      _ = _ := by
        rw [← start, plan]
        cases ws <;> rfl
  · calc _ = u.book := (replan_book _).trans alone.book
      _ = _ := by
        rw [← start]
        exact lapseBoth_book s w.id
  · refine List.mem_append_left _ ?_
    have same : (Stream.all.foldl (fun t x => t.departTarget w.id x) u).part = .tracking :=
      (congrArg State.part alone :).trans (part.trans tracking)
    rw [replan_eq_due, if_pos same]
    exact List.mem_append_right _ List.mem_cons_self

theorem behind_ids (p : Planner) (l : Line) (lapsed : Bool) (ws : List WindowOrder) :
    ((p.behind l lapsed ws).window.map fun v => v.id) = ws.map fun v => v.id := by cases ws <;> rfl

/-- A departure from a state with the record of the head rewritten is one from the state before, of the figures that stand. -/
theorem departure_of_leaveHead {q : State} {o : OrderRec} (window : s.plan.window = w :: ws) (apart : ∀ v ∈ ws, v.id ≠ w.id)
    (plan : q.plan = s.plan) (slitter : q.slitter = s.slitter) (part : q.part = s.part) (h : q.order? w.id = some o)
    (others : ∀ n, n ≠ w.id → q.order? n = s.order? n) (fig : o.fig = r.fig) (finish : o.e = r.e) (station : o.station = r.station) :
    Rule.Departure s q.leaveHead w ws r := by
  obtain ⟨left, book, due⟩ := leaveHead_plan (plan.symm ▸ window : q.plan.window = w :: ws) apart h
  have lapses : q.lapsesAt w = s.lapsesAt w := by
    unfold State.lapsesAt State.holdsLate State.station
    rw [slitter]
  rw [plan, lapses] at left
  refine ⟨fun b st ends at_ => ⟨?_, ?_⟩, ?_, fun n other => ?_, fun tracking => due (part.trans tracking)⟩
  · rintro rfl
    rw [left]
    simp only [Planner.behind, Line.figures, fig, finish, station, ends, at_, Option.getD_some, and_self]
  · rintro v rest rfl
    rw [left]
    refine ⟨rfl, rfl, _, rfl, rfl, _, rfl, ?_, ?_, ?_, lapsesAt_iff s w⟩
    · exact congrArg OrderFigures.grades fig
    · exact congrArg OrderFigures.layout fig
    · simp only [Line.figures, station, at_, Option.getD_some]
  · rw [left, behind_ids]
  · have own : r.fig.id = w.id := (congrArg OrderFigures.id fig).symm.trans (order?_id h)
    rw [order?_congr book, others n (own ▸ other)]

theorem leaveHead_gone (window : s.plan.window = w :: ws) (apart : ∀ v ∈ ws, v.id ≠ w.id) (h : s.order? w.id = some r) :
    s.leaveHead.windowOrder? w.id = none := by
  rw [windowOrder?_none_iff, (leaveHead_plan window apart h).1, behind_ids]
  intro held
  obtain ⟨v, later, same⟩ := List.mem_map.mp held
  exact apart v later same

/-! ### The close test (R60, R61, R58) -/

theorem dealtWith_iff (s : State) (w : WindowOrder) (r : OrderRec) : s.dealtWith w r = true ↔
    r.pinned = true ∧ r.n.getD 0 ≤ w.cuts ∧ ∀ x ∈ s.dry.released, x.kind = .cut → x.order ≠ w.id := by
  simp only [State.dealtWith, Bool.and_eq_true, decide_eq_true_eq, Bool.not_eq_true', List.any_eq_false, beq_iff_eq, not_and, and_assoc]

/-- An order at the head closed, its notices raised, before it leaves. -/
def State.closed (s : State) (id : Nat) (r : OrderRec) : State :=
  ((s.modifyOrder id OrderRec.close).raise .closed).raiseIf (r.counts.good < r.fig.t) .short

theorem closeTest_waits (window : s.plan.window = w :: ws) (h : s.order? w.id = some r) (waits : s.dealtWith w r = false) :
    s.closeTest w.id = s := by
  unfold State.closeTest
  rw [window, List.head?_cons, h]
  dsimp only
  rw [waits, Bool.and_false, if_neg Bool.false_ne_true]

theorem closeTest_cutting (window : s.plan.window = w :: ws) (h : s.order? w.id = some r) (dealt : s.dealtWith w r = true)
    (cutting : r.phase = .cutting) : s.closeTest w.id = (s.closed w.id r).leaveHead := by
  unfold State.closeTest
  rw [window, List.head?_cons, h]
  dsimp only
  rw [dealt, cutting, beq_self_eq_true, Bool.and_self, if_pos rfl]
  rfl

theorem closeTest_cancelled (window : s.plan.window = w :: ws) (h : s.order? w.id = some r) (dealt : s.dealtWith w r = true)
    (cancelled : r.phase = .cancelled) : s.closeTest w.id = s.leaveHead := by
  unfold State.closeTest
  rw [window, List.head?_cons, h]
  dsimp only
  rw [dealt, cancelled, beq_self_eq_true, Bool.and_self, if_pos rfl]

theorem raiseIf_book (s : State) (b : Bool) (n : Notice) : (s.raiseIf b n).book = s.book := by cases b <;> rfl

theorem closed_order? (s : State) (id k : Nat) (r : OrderRec) :
    (s.closed id r).order? k = (s.modifyOrder id OrderRec.close).order? k :=
  order?_congr (raiseIf_book _ _ _) k

theorem closed_raises (classes : (s.port .planning).classes.length = 12) (id : Nat) (r : OrderRec) :
    ((s.closed id r).port .planning).rawOf 4 = true ∧
    (r.counts.good < r.fig.t → ((s.closed id r).port .planning).rawOf 5 = true) := by
  have raised := raise_raw (s.modifyOrder id OrderRec.close) .closed (classes ▸ (by decide : 4 < 12))
  have grows := ((Untouched.refl (s.modifyOrder id OrderRec.close)).raise .closed).ports .planning
  refine ⟨?_, fun short => ?_⟩
  · exact (((Untouched.refl _).raiseIf (r.counts.good < r.fig.t) .short).ports .planning).raw 4 raised
  · unfold State.closed State.raiseIf
    rw [if_pos (decide_eq_true short)]
    exact raise_raw _ .short ((grows.classCount.trans classes).symm ▸ (by decide : 5 < 12))

theorem close_of_cutting_rule (window : s.plan.window = w :: ws) (apart : ∀ v ∈ ws, v.id ≠ w.id) (h : s.order? w.id = some r) :
    (s.closed w.id r).leaveHead.order? w.id = some r.close ∧ (s.closed w.id r).leaveHead.windowOrder? w.id = none ∧
    Rule.Departure s (s.closed w.id r).leaveHead w ws r ∧
    ((s.port .planning).classes.length = 12 → ((s.closed w.id r).leaveHead.port .planning).rawOf 4 = true ∧
      (r.counts.good < r.fig.t → ((s.closed w.id r).leaveHead.port .planning).rawOf 5 = true)) := by
  have plan : (s.closed w.id r).plan = s.plan := by
    unfold State.closed State.raiseIf
    split <;> rfl
  have slitter : (s.closed w.id r).slitter = s.slitter := by
    unfold State.closed State.raiseIf
    split <;> rfl
  have part : (s.closed w.id r).part = s.part := by
    unfold State.closed State.raiseIf
    split <;> rfl
  have window' : (s.closed w.id r).plan.window = w :: ws := by rw [plan, window]
  have record : (s.closed w.id r).order? w.id = some r.close := by
    rw [closed_order?, order?_modifyOrder (f := OrderRec.close) (fun _ => rfl) h]
  have others : ∀ n, n ≠ w.id → (s.closed w.id r).order? n = s.order? n := fun n other => by
    rw [closed_order?, order?_modifyOrder_other (f := OrderRec.close) (fun _ => rfl) other]
  refine ⟨?_, leaveHead_gone window' apart record,
    departure_of_leaveHead window apart plan slitter part record others rfl rfl rfl, fun classes => ?_⟩
  · rw [order?_congr (leaveHead_plan window' apart record).2.1, record]
  · obtain ⟨four, five⟩ := closed_raises classes w.id r
    have grows := (Untouched.leaveHead (.refl (s.closed w.id r))).ports .planning
    exact ⟨grows.raw 4 four, fun short => grows.raw 5 (five short)⟩

/-- Settles O53, by the phase of the order at the head; what the departure leaves is `leaveHead_plan`. -/
theorem closeWritesTheResult : Obligations.CloseWritesTheResult := by
  rintro id w ws r s window rfl apart h
  refine ⟨dealtWith_iff s w r, closeTest_waits window h, fun dealt cutting => ?_, fun dealt cancelled => ?_⟩
  · rw [closeTest_cutting window h dealt cutting]
    exact close_of_cutting_rule window apart h
  · obtain ⟨-, book, -⟩ := leaveHead_plan window apart h
    rw [closeTest_cancelled window h dealt cancelled]
    exact ⟨(order?_congr book _).trans h, leaveHead_gone window apart h,
      departure_of_leaveHead window apart rfl rfl rfl h (fun _ _ => rfl) rfl rfl rfl⟩

end Sys2Proof.Machine
end

section
/-! PROOF. The lines of the window under a change of one record, of one entry and of the window's extent, and the stations and
swaps planned line by line (R87, R88). -/

namespace Sys2Proof.Machine

variable {s t : State} {l k m : Line} {ls before after : List Line} {id : Nat}

/-! ### Lines changed one by one -/

theorem modifyOrder_lines {f : OrderRec → OrderRec} (keeps : ∀ r, (f r).fig.id = r.fig.id) (s : State) (id : Nat) :
    (s.modifyOrder id f).lines = s.lines.map fun l => if l.w.id == id then { l with r := f l.r } else l := by
  unfold State.lines
  rw [List.map_filterMap]
  refine List.filterMap_congr fun w _ => ?_
  by_cases own : w.id = id
  · rw [own]
    cases record : s.order? id with
    | none =>
      have missing : (s.modifyOrder id f).order? id = none := by
        rw [order?_none_iff] at record ⊢
        intro r held
        obtain ⟨v, known, rfl⟩ := List.mem_map.mp held
        split
        · rw [keeps]
          exact record v known
        · exact record v known
      rw [missing]
      rfl
    | some r =>
      rw [order?_modifyOrder keeps record, Option.map_some, Option.map_some, Option.map_some, if_pos (beq_iff_eq.mpr own)]
  · rw [order?_modifyOrder_other keeps own]
    cases s.order? w.id with
    | none => rfl
    | some r => rw [Option.map_some, Option.map_some, if_neg (mt beq_iff_eq.mp own)]

theorem modifyWindow_lines {f : WindowOrder → WindowOrder} (keeps : ∀ w, (f w).id = w.id) (s : State) (id : Nat) :
    (s.modifyWindow id f).lines = s.lines.map fun l => if l.w.id == id then { l with w := f l.w } else l := by
  unfold State.lines
  change (s.plan.window.map _).filterMap _ = _
  rw [List.filterMap_map, List.map_filterMap]
  refine List.filterMap_congr fun w _ => ?_
  rw [Function.comp_apply]
  have same : (s.modifyWindow id f).order? = s.order? := rfl
  rw [same]
  by_cases own : w.id = id
  · rw [if_pos (beq_iff_eq.mpr own), keeps]
    cases s.order? w.id with
    | none => rfl
    | some r => rw [Option.map_some, Option.map_some, Option.map_some, if_pos (beq_iff_eq.mpr own)]
  · rw [if_neg (mt beq_iff_eq.mp own)]
    cases s.order? w.id with
    | none => rfl
    | some r => rw [Option.map_some, Option.map_some, if_neg (mt beq_iff_eq.mp own)]

theorem filterWindow_lines (s : State) (p : Nat → Bool) :
    ({ s with plan := { s.plan with window := s.plan.window.filter fun w => p w.id } } : State).lines =
      s.lines.filter fun l => p l.w.id := by
  change (s.plan.window.filter fun w => p w.id).filterMap (fun w => (s.order? w.id).map (Line.mk w)) =
    (s.plan.window.filterMap fun w => (s.order? w.id).map (Line.mk w)).filter fun l => p l.w.id
  rw [List.filter_filterMap, List.filterMap_filter]
  refine List.filterMap_congr fun w _ => ?_
  cases s.order? w.id with
  | none => rw [Option.map_none, ite_self]; rfl
  | some r => rw [Option.map_some, Option.filter_some]

theorem map_others (h : ∀ l ∈ ls, l.w.id ≠ id) (f : Line → Line) :
    (ls.map fun l => if l.w.id == id then f l else l) = ls := by
  refine Eq.trans (List.map_congr_left fun l held => ?_) (List.map_id' ls)
  exact if_neg (mt beq_iff_eq.mp (h l held))

/-- In lines of distinct ids a line's id is no other line's. -/
theorem apart_of_nodup (distinct : ((before ++ m :: after).map fun l => l.w.id).Nodup) :
    (∀ l ∈ before, l.w.id ≠ m.w.id) ∧ ∀ l ∈ after, l.w.id ≠ m.w.id := by
  rw [List.map_append, List.map_cons, List.nodup_append, List.nodup_cons] at distinct
  obtain ⟨-, ⟨later, -⟩, earlier⟩ := distinct
  exact ⟨fun l held => earlier _ (List.mem_map_of_mem held) _ List.mem_cons_self,
    fun l held same => later (same ▸ List.mem_map_of_mem (f := fun l : Line => l.w.id) held)⟩

/-- In lines of distinct ids a change by id is one of one line. -/
theorem map_one (distinct : ((before ++ m :: after).map fun l => l.w.id).Nodup) (f : Line → Line) :
    ((before ++ m :: after).map fun l => if l.w.id == m.w.id then f l else l) = before ++ f m :: after := by
  obtain ⟨earlier, later⟩ := apart_of_nodup distinct
  rw [List.map_append, List.map_cons, map_others earlier, map_others later, if_pos (beq_self_eq_true _)]

/-- In lines of distinct ids a removal by id is one of one line. -/
theorem filter_one (distinct : ((before ++ m :: after).map fun l => l.w.id).Nodup) :
    ((before ++ m :: after).filter fun l => l.w.id != m.w.id) = before ++ after := by
  obtain ⟨earlier, later⟩ := apart_of_nodup distinct
  have front : (before.filter fun l => l.w.id != m.w.id) = before :=
    List.filter_eq_self.mpr fun l held => bne_iff_ne.mpr (earlier l held)
  have back : (after.filter fun l => l.w.id != m.w.id) = after :=
    List.filter_eq_self.mpr fun l held => bne_iff_ne.mpr (later l held)
  rw [List.filter_append, List.filter_cons_of_neg (by simp), front, back]

/-! ### Starts and ends behind the predecessor (R78) -/

theorem shiftLines_append (prevEnd : Option Pos) (before after : List Line) (l : Line) : ∃ front e,
    shiftLines prevEnd (before ++ l :: after) = front ++ shiftLine e l :: shiftLines (shiftLine e l).r.e after := by
  induction before generalizing prevEnd with
  | nil => exact ⟨[], prevEnd, shiftLines_cons prevEnd l after⟩
  | cons b before ih =>
    obtain ⟨front, e, rest⟩ := ih (shiftLine prevEnd b).r.e
    exact ⟨shiftLine prevEnd b :: front, e, by rw [List.cons_append, shiftLines_cons, rest]; rfl⟩

theorem shiftLine_placed (isOpen : l.r.pinned = false) (b : Pos) : (shiftLine (some b) l).r.p = some (b + (l.r.gap.getD 0 : Nat)) ∧
    (shiftLine (some b) l).r.e = some (cutPosition ((shiftLine (some b) l).r.p.getD 0) l.r.fig.sf (l.r.n.getD 0)) := by
  unfold shiftLine
  rw [if_neg (by simp [isOpen])]
  exact ⟨rfl, rfl⟩

theorem shiftLine_stays {e : Option Pos} (h : l.r.pinned = true ∨ e = none) : (shiftLine e l).r.p = l.r.p := by
  unfold shiftLine
  split
  · rfl
  · next isOpen => rw [h.resolve_left isOpen]; rfl

/-! ### Stations and swaps planned line by line (R87, R88) -/

/-- What a choice of the station and the swap may change of a line. -/
structure Line.Restationed (l m : Line) : Prop where
  w : m.w = { l.w with swap := m.w.swap }
  r : m.r = { l.r with station := m.r.station }

theorem replanLine_restationed (s : State) (prev : Option PrevFigures) (l : Line) : l.Restationed (s.replanLine prev l) :=
  ⟨rfl, rfl⟩

theorem replanLines_ids (s : State) (k : Option Line) (ls : List Line) :
    ((s.replanLines k ls).map fun l => l.w.id) = ls.map fun l => l.w.id := by
  induction ls generalizing k with
  | nil => rfl
  | cons l ls ih => exact congrArg (l.w.id :: ·) (ih _)

theorem replanLines_append (s : State) (k : Option Line) (before after : List Line) (l : Line) : ∃ front prev,
    s.replanLines k (before ++ l :: after) =
      front ++ s.replanLine prev l :: s.replanLines (some (s.replanLine prev l)) after := by
  induction before generalizing k with
  | nil => exact ⟨[], _, rfl⟩
  | cons b before ih =>
    obtain ⟨front, prev, rest⟩ := ih (some (s.replanLine (prevFigures k b) b))
    refine ⟨s.replanLine (prevFigures k b) b :: front, prev, ?_⟩
    rw [List.cons_append, State.replanLines, rest]
    rfl

theorem replanLines_find? (s : State) (k : Option Line) (ls : List Line) (id : Nat) :
    ((s.replanLines k ls).find? fun l => l.w.id == id) = none ∧ (ls.find? fun l => l.w.id == id) = none ∨
    ∃ l m, ((s.replanLines k ls).find? fun l => l.w.id == id) = some m ∧ (ls.find? fun l => l.w.id == id) = some l ∧
      l.Restationed m := by
  induction ls generalizing k with
  | nil => exact .inl ⟨rfl, rfl⟩
  | cons l ls ih =>
    have same : (s.replanLine (prevFigures k l) l).w.id = l.w.id := rfl
    rw [State.replanLines, List.find?_cons, List.find?_cons, same]
    cases l.w.id == id with
    | true => exact .inr ⟨l, _, rfl, rfl, replanLine_restationed s _ l⟩
    | false => exact ih _

theorem replanLines_named (s : State) (k : Option Line) (h : ∀ l ∈ ls, l.Named) : ∀ l ∈ s.replanLines k ls, l.Named := by
  induction ls generalizing k with
  | nil => exact h
  | cons l ls ih =>
    refine List.forall_mem_cons.mpr ⟨?_, ih _ fun m held => h m (List.mem_cons_of_mem _ held)⟩
    exact h l List.mem_cons_self

theorem setSwaps_lines (distinct : (s.plan.window.map fun w => w.id).Nodup) :
    s.setSwaps.lines = s.replanLines none s.lines :=
  writeLines_lines_aligned (replanLines_named s none (lines_named s)) (replanLines_ids s none s.lines) distinct

theorem setSwaps_ids (s : State) : (s.setSwaps.plan.window.map fun w => w.id) = s.plan.window.map fun w => w.id :=
  writeLines_ids s _

/-- A record outside the window is no line's. -/
theorem setSwaps_outside (h : s.windowOrder? id = none) : s.setSwaps.order? id = s.order? id := by
  unfold State.setSwaps
  rw [writeLines_order? (replanLines_named s none (lines_named s))]
  rcases replanLines_find? s none s.lines id with ⟨missing, -⟩ | ⟨l, m, -, held, -⟩
  · rw [missing]
    cases s.order? id <;> rfl
  · rw [lines_find?_none h] at held
    cases held

theorem setSwaps_out (h : s.windowOrder? id = none) : s.setSwaps.windowOrder? id = none := by
  rw [windowOrder?_none_iff, setSwaps_ids]
  exact (windowOrder?_none_iff s id).mp h

theorem shiftPlan_lines (distinct : (s.plan.window.map fun w => w.id).Nodup) :
    s.shiftPlan.lines = shiftLines none s.lines := by
  rw [lines_congr (shiftPlan_book s) (shiftPlan_window s)]
  exact writeLines_lines_aligned (shiftLines_named none (lines_named s)) (shiftLines_ids none s.lines) distinct

/-- Behind a shift W0 is the end of the last line, where it has one. -/
theorem shiftPlan_w0 {b : Pos} (last : s.shiftPlan.lines.getLast? = some l) (ends : l.r.e = some b) : s.shiftPlan.plan.w0 = b := by
  have plan : s.shiftPlan.plan = (s.writeLines (shiftLines none s.lines)).followW0.plan := (refreshSlots_spliceAlone _).plan
  have lines : (s.writeLines (shiftLines none s.lines)).lines = s.shiftPlan.lines :=
    (lines_congr (shiftPlan_book s) (shiftPlan_window s)).symm
  rw [plan]
  unfold State.followW0
  rw [lines, last]
  dsimp only
  rw [ends]
  rfl

theorem replanLine_station (s : State) (f : PrevFigures) (l : Line) :
    (s.replanLine (some f) l).r.station = some (l.chosenStation (some f) l.r.fig.layout) := rfl

theorem chosenStation_free (h : l.w.swapReleased = false) (f : PrevFigures) (layout : Layout) :
    l.chosenStation (some f) layout = if f.layout = layout then f.station else f.station.other := by
  unfold Line.chosenStation
  rw [h]
  rfl

/-- The swap that a line is planned with against an order (R87, R88, R149). -/
def State.plannedSwap (s : State) (f : PrevFigures) (l : Line) : Swap :=
  if l.w.swapReleased && !f.lapsed then l.w.swap else s.swapAt f (l.chosenStation (some f) l.r.fig.layout) l.w.swap

theorem replanLine_swap (s : State) (f : PrevFigures) (l : Line) : (s.replanLine (some f) l).w.swap =
    if (s.plannedSwap f l).same l.w.swap then l.w.swap else s.plannedSwap f l := rfl

theorem plannedSwap_free (h : l.w.swapReleased = false) (s : State) (f : PrevFigures) :
    s.plannedSwap f l = s.swapAt f (l.chosenStation (some f) l.r.fig.layout) l.w.swap := by
  unfold State.plannedSwap
  rw [h]
  rfl

theorem swapAt_boundary {f : PrevFigures} (k : f.lapsed = false) (s : State) (st : Station) (held : Swap) :
    s.swapAt f st held = if st = f.station then {}
      else { kind := .boundary, drop := some { station := st }, lifts := [{ station := f.station }] } := by
  unfold State.swapAt
  rw [k]
  rfl

theorem station_other_ne (st : Station) : st.other ≠ st := by cases st <;> decide

/-- The swap at a boundary behind an order that has not lapsed, where none of it has been released (R87, R88). -/
theorem replanLine_boundary {f : PrevFigures} (h : f.lapsed = false) (fresh : l.w.swap = {}) (none_ : l.w.replan = none) (s : State) :
    (f.layout = l.r.fig.layout → (s.replanLine (some f) l).r.station = some f.station ∧
      (s.replanLine (some f) l).w.swap.drop = none ∧ (s.replanLine (some f) l).w.swap.lifts = []) ∧
    (f.layout ≠ l.r.fig.layout → (s.replanLine (some f) l).r.station = some f.station.other ∧
      (s.replanLine (some f) l).w.swap =
        { kind := .boundary, drop := some { station := f.station.other }, lifts := [{ station := f.station }] }) := by
  have free : l.w.swapReleased = false := by
    unfold WindowOrder.swapReleased
    rw [fresh, none_]
    rfl
  rw [replanLine_station, replanLine_swap, plannedSwap_free free, swapAt_boundary h, chosenStation_free free, fresh]
  refine ⟨fun same => ?_, fun differs => ?_⟩
  · rw [if_pos same, if_pos rfl, ite_self]
    exact ⟨rfl, rfl, rfl⟩
  · rw [if_neg differs, if_neg (station_other_ne _)]
    exact ⟨rfl, rfl⟩

end Sys2Proof.Machine
end

section
/-! PROOF. Settles O50: the order that leaves the window by a cancel and its successor (R56, R84, R90), and the requests that cancel
and discard (R55 to R57, R62). -/

namespace Sys2Proof.Machine

variable {s t u : State} {l j c k : Line} {before rest after : List Line} {id : Nat} {r : OrderRec} {x y : Stream} {v : Slot}
  {ids : List Nat}

/-! ### Slots set anew (R83) -/

/-- A slot set anew keeps its splice; its points alone may move. -/
def Slot.Moved (v v' : Slot) : Prop :=
  v' = { v with boundaryPos := v'.boundaryPos, firePoint := v'.firePoint, commitPoint := v'.commitPoint }

theorem refreshSlot_moved (h : (s.stream x).slot = some v) (y : Stream) :
    ∃ v', ((s.refreshSlot y).stream x).slot = some v' ∧ v.Moved v' := by
  unfold State.refreshSlot
  split
  · exact ⟨v, h, rfl⟩
  · next w held =>
    dsimp only
    by_cases own : x = y
    · subst own
      rw [h, Option.some_inj] at held
      subst held
      split
      · split
        all_goals
          refine ⟨_, congrArg StreamRec.slot (State.stream_setStream _ _ _), ?_⟩
          rfl
      · exact ⟨v, h, rfl⟩
    · have other : ∀ w, ((s.setSlot y w).stream x).slot = some v := fun w => by
        rw [State.setSlot, State.stream_setStream_ite, if_neg own, h]
      repeat' split
      · exact ⟨v, other _, rfl⟩
      · exact ⟨v, other _, rfl⟩
      · exact ⟨v, h, rfl⟩

theorem refreshSlots_moved (h : (s.stream x).slot = some v) :
    ∃ v', (s.refreshSlots.stream x).slot = some v' ∧ v.Moved v' := by
  have all : ∀ (ys : List Stream) (t : State) (w : Slot), (t.stream x).slot = some w → v.Moved w →
      ∃ v', ((ys.foldl State.refreshSlot t).stream x).slot = some v' ∧ v.Moved v' := by
    intro ys
    induction ys with
    | nil => exact fun t w held moved => ⟨w, held, moved⟩
    | cons y ys ih =>
      intro t w held moved
      obtain ⟨w', held', moved'⟩ := refreshSlot_moved held y
      refine ih _ w' held' ?_
      unfold Slot.Moved at *
      rw [moved', moved]
  exact all Stream.all s v h rfl

/-! ### Targets of dissolved boundaries withdrawn (R84) -/

/-- A slot holds the PLANNED target of one of some boundaries. -/
def Slot.dropped (ids : List Nat) (v : Slot) : Bool := v.state == .planned && ids.any fun i => v.target? == some i

theorem dropped_iff (ids : List Nat) (v : Slot) : v.dropped ids = true ↔
    v.state = .planned ∧ v.kind = .grade ∧ v.departed = false ∧ ∃ i ∈ ids, v.boundary = some i := by
  simp only [Slot.dropped, Bool.and_eq_true, beq_iff_eq, List.any_eq_true, target?_eq_some]
  constructor
  · rintro ⟨state, i, held, kind, stays, boundary⟩
    exact ⟨state, kind, stays, i, held, boundary⟩
  · rintro ⟨state, kind, stays, i, held, boundary⟩
    exact ⟨state, i, held, kind, stays, boundary⟩

theorem Slot.Moved.dropped {v' : Slot} (h : v.Moved v') (ids : List Nat) : v'.dropped ids = v.dropped ids := by
  unfold Slot.Moved at h
  rw [h]
  rfl

theorem dropTargets_held (h : (s.stream x).slot = some v) (k : v.dropped ids = true) :
    s.dropTargets ids x = (s.setSlot x none).push [.slotFree x] := by
  unfold State.dropTargets
  rw [h]
  exact if_pos k

theorem dropTargets_stays (h : ∀ v, (s.stream x).slot = some v → v.dropped ids = false) : s.dropTargets ids x = s := by
  unfold State.dropTargets
  split
  · next v held =>
    refine if_neg fun dropped => ?_
    exact absurd ((h v held).symm.trans dropped) nofun
  · rfl

theorem dropTargets_cases (s : State) (ids : List Nat) (x : Stream) :
    s.dropTargets ids x = s ∨ s.dropTargets ids x = (s.setSlot x none).push [.slotFree x] := by
  by_cases h : ∃ v, (s.stream x).slot = some v ∧ v.dropped ids = true
  · obtain ⟨v, held, dropped⟩ := h
    exact .inr (dropTargets_held held dropped)
  · refine .inl (dropTargets_stays fun v held => ?_)
    rw [← Bool.not_eq_true]
    exact fun dropped => h ⟨v, held, dropped⟩

/-- Only the splice part and the acts due differ, and no act is lost. -/
structure SlotsAlone (s t : State) : Prop where
  frame : { t with splice := s.splice, work := s.work } = s
  acts : ∀ a ∈ s.work, a ∈ t.work

theorem SlotsAlone.trans (h : SlotsAlone s t) (k : SlotsAlone t u) : SlotsAlone s u where
  frame := by
    calc ({ u with splice := s.splice, work := s.work } : State)
        = { { u with splice := t.splice, work := t.work } with splice := s.splice, work := s.work } := rfl
      _ = s := by rw [k.frame, h.frame]
  acts a held := k.acts a (h.acts a held)

theorem dropTargets_slotsAlone (s : State) (ids : List Nat) (x : Stream) : SlotsAlone s (s.dropTargets ids x) := by
  rcases dropTargets_cases s ids x with e | e <;> rw [e]
  · exact ⟨rfl, fun _ held => held⟩
  · exact ⟨rfl, fun _ held => List.mem_append_left _ held⟩

theorem dropTargets_other (h : x ≠ y) (s : State) (ids : List Nat) : (s.dropTargets ids y).stream x = s.stream x := by
  rcases dropTargets_cases s ids y with e | e <;> rw [e]
  exact (State.stream_setStream_ite _ _ _ _).trans (if_neg h)

/-- The PLANNED targets of some boundaries withdrawn from the slots of some streams. -/
def State.dropAll (s : State) (ids : List Nat) (xs : List Stream) : State := xs.foldl (fun t x => t.dropTargets ids x) s

theorem dropAll_slotsAlone (s : State) (ids : List Nat) (xs : List Stream) : SlotsAlone s (s.dropAll ids xs) := by
  induction xs generalizing s with
  | nil => exact ⟨rfl, fun _ held => held⟩
  | cons x xs ih => exact (dropTargets_slotsAlone s ids x).trans (ih _)

theorem dropAll_stays (h : ∀ v, (s.stream x).slot = some v → v.dropped ids = false) (xs : List Stream) :
    ((s.dropAll ids xs).stream x).slot = (s.stream x).slot := by
  induction xs generalizing s with
  | nil => rfl
  | cons y ys ih =>
    have first : (s.dropTargets ids y).stream x = s.stream x := by
      by_cases own : x = y
      · rw [own, dropTargets_stays (own ▸ h)]
      · exact dropTargets_other own s ids
    have step : s.dropAll ids (y :: ys) = (s.dropTargets ids y).dropAll ids ys := rfl
    rw [step, ih (first.symm ▸ h), first]

theorem dropAll_drops {xs : List Stream} (member : x ∈ xs) (h : (s.stream x).slot = some v) (k : v.dropped ids = true) :
    ((s.dropAll ids xs).stream x).slot = none ∧ Task.slotFree x ∈ (s.dropAll ids xs).work := by
  induction xs generalizing s with
  | nil => cases member
  | cons y ys ih =>
    have step : s.dropAll ids (y :: ys) = (s.dropTargets ids y).dropAll ids ys := rfl
    rw [step]
    by_cases own : x = y
    · subst own
      rw [dropTargets_held h k]
      have free : ((((s.setSlot x none).push [.slotFree x]).stream x)).slot = none :=
        congrArg StreamRec.slot (State.stream_setStream _ _ _)
      refine ⟨(dropAll_stays (fun w held => ?_) ys).trans free, (dropAll_slotsAlone _ ids ys).acts _ ?_⟩
      · rw [free] at held
        cases held
      · exact List.mem_append_right _ List.mem_cons_self
    · exact ih ((List.mem_cons.mp member).resolve_left own) (by rw [dropTargets_other own, h])

/-! ### The order that leaves by a cancel (R56, R90) -/

/-- The record of an order withdrawn before its start (R55, R56). -/
def OrderRec.withdrawn (r : OrderRec) : OrderRec :=
  { r with
    phase := .cancelled, blocked := .none, station := none, p := none, e := none, n := none, gap := none
    rejects := none, wasteBefore := 0, result := some (resultOf .cancelledByPlan r.fig.t 0) }

/-- A record in the place of another: its start, its gap before and its waste before (R90). -/
def OrderRec.takePlace (r v : OrderRec) : OrderRec := { v with p := r.p, gap := r.gap, wasteBefore := r.wasteBefore }

/-- A line in the place of another, the boundary at its start new (R90). -/
def Line.succeed (c k : Line) : Line := ⟨k.w.dissolve, c.r.takePlace k.r⟩

/-- The successor of an order in that order's place. -/
def State.succeed (s : State) (id : Nat) : State :=
  match s.lines.find? fun l => l.w.id == id, lineAfter id s.lines with
  | some c, some k => (s.modifyOrder k.w.id c.r.takePlace).modifyWindow k.w.id WindowOrder.dissolve
  | _, _ => s

/-- The window without an order, whose record is withdrawn. -/
def State.without (s : State) (id : Nat) : State :=
  ({ s with plan := { s.plan with window := s.plan.window.filter fun w => w.id != id } }).modifyOrder id OrderRec.withdrawn

/-- The boundaries that a cancel dissolves: the order's own and its successor's. -/
def State.dissolvedIds (s : State) (id : Nat) : List Nat := id :: ((lineAfter id s.lines).map fun l => l.w.id).toList

/-- What a plan made anew leaves of a state: all but the book, the window with W0, the splice part and the acts due. -/
structure BookAndPlanAlone (s t : State) : Prop where
  frame : { t with book := s.book, plan := s.plan, splice := s.splice, work := s.work } = s

theorem BookAndPlanAlone.trans (h : BookAndPlanAlone s t) (k : BookAndPlanAlone t u) : BookAndPlanAlone s u where
  frame := by
    calc ({ u with book := s.book, plan := s.plan, splice := s.splice, work := s.work } : State)
        = { { u with book := t.book, plan := t.plan, splice := t.splice, work := t.work } with
            book := s.book, plan := s.plan, splice := s.splice, work := s.work } := rfl
      _ = s := by rw [k.frame, h.frame]

theorem succeed_cases (s : State) (id : Nat) : s.succeed id = s ∨ ∃ c k : Line, s.succeed id =
    (s.modifyOrder k.w.id c.r.takePlace).modifyWindow k.w.id WindowOrder.dissolve := by
  unfold State.succeed
  split
  · next c k _ _ => exact .inr ⟨c, k, rfl⟩
  · exact .inl rfl

theorem without_alone (s : State) (id : Nat) : BookAndPlanAlone s ((s.succeed id).without id) := by
  rcases succeed_cases s id with e | ⟨c, k, e⟩ <;> rw [e] <;> exact ⟨rfl⟩

theorem without_splice (s : State) (id : Nat) : ((s.succeed id).without id).splice = s.splice := by
  rcases succeed_cases s id with e | ⟨c, k, e⟩ <;> rw [e] <;> rfl

theorem followW0_alone (s : State) : BookAndPlanAlone s s.followW0 := by
  unfold State.followW0
  split <;> exact ⟨rfl⟩

theorem SpliceAlone.bookAndPlanAlone (h : SpliceAlone s t) : BookAndPlanAlone s t := by
  unfold SpliceAlone at h
  refine ⟨?_⟩
  rw [← h]

theorem shiftPlan_alone (s : State) : BookAndPlanAlone s s.shiftPlan := by
  have written : BookAndPlanAlone s (s.writeLines (shiftLines none s.lines)) := ⟨rfl⟩
  exact (written.trans (followW0_alone _)).trans (refreshSlots_spliceAlone _).bookAndPlanAlone

end Sys2Proof.Machine
end

section
/-! PROOF. Settles O50, continued: what an order that leaves by a cancel leaves behind, and the requests. -/

namespace Sys2Proof.Machine

variable {s t u : State} {l j c k : Line} {before rest after : List Line} {id : Nat} {r : OrderRec} {x y : Stream} {v : Slot}
  {ids : List Nat}

/-! ### The plan behind an order that leaves by a cancel (R56, R90) -/

/-- The plan behind an order that leaves: stations, swaps, starts and W0 made anew. -/
def State.replannedWithout (s : State) (id : Nat) : State := ((s.succeed id).without id).setSwaps.shiftPlan

theorem cancelUnpinned_dropped (s : State) (id : Nat) :
    s.cancelUnpinned id = ((s.replannedWithout id).dropAll (s.dissolvedIds id) Stream.all).replan := rfl

theorem without_ids (s : State) (id : Nat) :
    ((s.without id).plan.window.map fun w => w.id) = (s.plan.window.map fun w => w.id).filter (· != id) := by
  rw [List.filter_map]
  rfl

theorem succeed_ids (s : State) (id : Nat) : ((s.succeed id).plan.window.map fun w => w.id) = s.plan.window.map fun w => w.id := by
  rcases succeed_cases s id with e | ⟨c, k, e⟩ <;> rw [e]
  unfold State.modifyWindow
  rw [List.map_map]
  refine List.map_congr_left fun w _ => ?_
  rw [Function.comp_apply]
  split <;> rfl

theorem replannedWithout_ids (s : State) (id : Nat) :
    ((s.replannedWithout id).plan.window.map fun w => w.id) = (s.plan.window.map fun w => w.id).filter (· != id) := by
  unfold State.replannedWithout
  rw [(shiftPlan_pinning _).ids, setSwaps_ids, without_ids, succeed_ids]

theorem cancelUnpinned_book (s : State) (id : Nat) : (s.cancelUnpinned id).book = (s.replannedWithout id).book := by
  rw [cancelUnpinned_dropped, replan_book]
  exact (congrArg State.book (dropAll_slotsAlone _ _ _).frame :)

theorem cancelUnpinned_plan (s : State) (id : Nat) : (s.cancelUnpinned id).plan = (s.replannedWithout id).plan := by
  rw [cancelUnpinned_dropped, replan_plan]
  exact (congrArg State.plan (dropAll_slotsAlone _ _ _).frame :)

theorem cancelUnpinned_lines (s : State) (id : Nat) : (s.cancelUnpinned id).lines = (s.replannedWithout id).lines :=
  lines_congr (cancelUnpinned_book s id) (congrArg Planner.window (cancelUnpinned_plan s id))

theorem cancelUnpinned_ids (s : State) (id : Nat) :
    ((s.cancelUnpinned id).plan.window.map fun w => w.id) = (s.plan.window.map fun w => w.id).filter (· != id) := by
  rw [cancelUnpinned_plan, replannedWithout_ids]

theorem cancelUnpinned_alone (s : State) (id : Nat) : BookAndPlanAlone s (s.cancelUnpinned id) := by
  have swaps : BookAndPlanAlone ((s.succeed id).without id) ((s.succeed id).without id).setSwaps := ⟨rfl⟩
  have replanned : BookAndPlanAlone s (s.replannedWithout id) :=
    ((without_alone s id).trans swaps).trans (shiftPlan_alone _)
  refine replanned.trans ⟨?_⟩
  rw [cancelUnpinned_dropped, replan_eq_due]
  exact (congrArg (fun v : State => { v with book := (s.replannedWithout id).book, plan := (s.replannedWithout id).plan })
    (dropAll_slotsAlone (s.replannedWithout id) (s.dissolvedIds id) Stream.all).frame :)

theorem cancelUnpinned_out (s : State) (id : Nat) : (s.cancelUnpinned id).windowOrder? id = none := by
  rw [windowOrder?_none_iff, cancelUnpinned_ids]
  simp

/-- The record of the order that leaves is withdrawn, whatever its successor took from it. -/
theorem cancelUnpinned_own (h : s.order? id = some r) : (s.cancelUnpinned id).order? id = some r.withdrawn := by
  have succeeded : ∃ v, (s.succeed id).order? id = some v ∧ v.withdrawn = r.withdrawn := by
    rcases succeed_cases s id with e | ⟨c, k, e⟩ <;> rw [e]
    · exact ⟨r, h, rfl⟩
    · by_cases own : id = k.w.id
      · exact ⟨c.r.takePlace r, own ▸ order?_modifyOrder (f := c.r.takePlace) (fun _ => rfl) (own ▸ h), rfl⟩
      · exact ⟨r, (order?_modifyOrder_other (f := c.r.takePlace) (fun _ => rfl) own s).trans h, rfl⟩
  obtain ⟨v, record, same⟩ := succeeded
  have left : ((s.succeed id).without id).order? id = some v.withdrawn := order?_modifyOrder (fun _ => rfl) record
  have out : ((s.succeed id).without id).windowOrder? id = none := by
    rw [windowOrder?_none_iff, without_ids]
    simp
  rw [order?_congr (cancelUnpinned_book s id), State.replannedWithout, (shiftPlan_pinning _).outside id (setSwaps_out out),
    setSwaps_outside out, left, same]

/-! ### The successor of the order that leaves (R90) -/

theorem without_lines (s : State) (id : Nat) : (s.without id).lines = s.lines.filter fun l => l.w.id != id := by
  unfold State.without
  rw [modifyOrder_lines (f := OrderRec.withdrawn) (fun _ => rfl), filterWindow_lines s (· != id)]
  exact map_others (fun l held => bne_iff_ne.mp (List.mem_filter.mp held).2) fun l => { l with r := l.r.withdrawn }

theorem succeed_last (h : s.lines = before ++ [c]) (own : c.w.id = id) (distinct : (s.lines.map fun l => l.w.id).Nodup) :
    s.succeed id = s ∧ s.dissolvedIds id = [id] := by
  subst own
  rw [h] at distinct
  have earlier : c.w.id ∉ before.map fun l => l.w.id := fun held => by
    obtain ⟨l, member, same⟩ := List.mem_map.mp held
    exact (apart_of_nodup distinct).1 l member same
  have none_ : lineAfter c.w.id s.lines = none := by rw [h, lineAfter_append before earlier rfl]; rfl
  unfold State.succeed State.dissolvedIds
  rw [none_]
  exact ⟨by split <;> simp_all, rfl⟩

theorem succeed_lines (h : s.lines = before ++ c :: k :: after) (own : c.w.id = id)
    (distinct : (s.lines.map fun l => l.w.id).Nodup) :
    (s.succeed id).lines = before ++ c :: c.succeed k :: after ∧ s.dissolvedIds id = [id, k.w.id] := by
  subst own
  rw [h] at distinct
  obtain ⟨front, -⟩ := apart_of_nodup distinct
  have earlier : c.w.id ∉ before.map fun l => l.w.id := fun held => by
    obtain ⟨l, member, same⟩ := List.mem_map.mp held
    exact front l member same
  have next : lineAfter c.w.id s.lines = some k := by rw [h, lineAfter_append before earlier rfl]; rfl
  have found : (s.lines.find? fun l => l.w.id == c.w.id) = some c := by
    rw [h, List.find?_append, List.find?_eq_none.mpr fun l held => mt beq_iff_eq.mp (front l held)]
    exact List.find?_cons_of_pos (p := fun l : Line => l.w.id == c.w.id) (beq_self_eq_true _)
  have form : s.succeed c.w.id = (s.modifyOrder k.w.id c.r.takePlace).modifyWindow k.w.id WindowOrder.dissolve := by
    unfold State.succeed
    rw [found, next]
  have split : before ++ c :: k :: after = (before ++ [c]) ++ k :: after := by simp
  rw [split] at distinct
  have first := map_one distinct fun l => { l with r := c.r.takePlace l.r }
  have second := map_one (before := before ++ [c]) (m := { k with r := c.r.takePlace k.r }) (after := after)
    (by simpa using distinct) fun l => { l with w := l.w.dissolve }
  refine ⟨?_, by unfold State.dissolvedIds; rw [next]; rfl⟩
  rw [form, modifyWindow_lines (f := WindowOrder.dissolve) fun _ => rfl, modifyOrder_lines (f := c.r.takePlace) fun _ => rfl, h,
    split, first]
  refine second.trans ?_
  rw [List.append_assoc]
  rfl

/-- The window's lines behind an order that leaves: the order before it, planned anew, and its successor, if it has one, in its
place behind that order. -/
theorem replannedWithout_lines (distinct : s.idsDistinct) (h : s.lines = before ++ j :: c :: rest) (own : c.w.id = id) :
    ∃ j' J front, j.Restationed j' ∧ J.w = j'.w ∧ j'.r.Shifted J.r ∧
      (rest = [] → (s.replannedWithout id).lines = front ++ [J] ∧ s.dissolvedIds id = [id]) ∧
      (∀ k after, rest = k :: after → s.dissolvedIds id = [id, k.w.id] ∧ ∃ u : State, ∃ back, (s.replannedWithout id).lines =
        front ++ J :: shiftLine J.r.e (u.replanLine (some j'.figures) (c.succeed k)) :: back) := by
  subst own
  have ids := lines_ids_nodup distinct.window
  have split : ∀ ls, before ++ j :: ls = (before ++ [j]) ++ ls := fun ls => by simp
  generalize left : (s.succeed c.w.id).without c.w.id = u
  have window : (u.plan.window.map fun w => w.id).Nodup := by
    rw [← left, without_ids, succeed_ids]
    exact distinct.window.filter _
  have lines : (s.replannedWithout c.w.id).lines = shiftLines none (u.replanLines none u.lines) := by
    unfold State.replannedWithout
    rw [left, shiftPlan_lines (setSwaps_ids u ▸ window), setSwaps_lines window]
  cases rest with
  | nil =>
    obtain ⟨same, dissolved⟩ := succeed_last (s := s) (before := before ++ [j]) (h.trans (split _)) rfl ids
    have remain : u.lines = before ++ [j] := by
      rw [h, split] at ids
      rw [← left, without_lines, same, h, split, filter_one ids, List.append_nil]
    obtain ⟨f, prev, planned⟩ := replanLines_append u none before [] j
    obtain ⟨g, e, shifted⟩ := shiftLines_append none f (u.replanLines (some (u.replanLine prev j)) []) (u.replanLine prev j)
    refine ⟨u.replanLine prev j, shiftLine e (u.replanLine prev j), g, replanLine_restationed u prev j, shiftLine_w _ _,
      shiftLine_shifted _ _, fun _ => ⟨?_, dissolved⟩, fun k after no => by cases no⟩
    rw [lines, remain, planned, shifted]
    rfl
  | cons k after =>
    obtain ⟨succeeded, dissolved⟩ := succeed_lines (s := s) (before := before ++ [j]) (h.trans (split _)) rfl ids
    have remain : u.lines = before ++ j :: c.succeed k :: after := by
      have same : (c.succeed k).w.id = k.w.id := rfl
      rw [← left, without_lines, succeeded, filter_one, ← split]
      rw [h, split] at ids
      simpa [same] using ids
    obtain ⟨f, prev, planned⟩ := replanLines_append u none before (c.succeed k :: after) j
    obtain ⟨g, e, shifted⟩ := shiftLines_append none f
      (u.replanLines (some (u.replanLine prev j)) (c.succeed k :: after)) (u.replanLine prev j)
    refine ⟨u.replanLine prev j, shiftLine e (u.replanLine prev j), g, replanLine_restationed u prev j, shiftLine_w _ _,
      shiftLine_shifted _ _, nofun, ?_⟩
    rintro k' after' same
    obtain ⟨rfl, rfl⟩ := List.cons.inj same
    rw [remain, planned, shifted, State.replanLines, shiftLines_cons] at lines
    exact ⟨dissolved, u, _, lines⟩

/-- The slots behind an order that leaves: the dissolved targets are gone, the other splices stay. -/
theorem cancelUnpinned_slots (h : (s.stream x).slot = some v) :
    (v.dropped (s.dissolvedIds id) = true →
      ((s.cancelUnpinned id).stream x).slot = none ∧ Task.slotFree x ∈ (s.cancelUnpinned id).work) ∧
    (v.dropped (s.dissolvedIds id) = false → ∃ v', ((s.cancelUnpinned id).stream x).slot = some v' ∧ v.Moved v') := by
  have start : ((((s.succeed id).without id).setSwaps.writeLines
      (shiftLines none ((s.succeed id).without id).setSwaps.lines)).followW0.stream x).slot = some v := by
    have follow : ∀ u : State, u.followW0.splice = u.splice := fun u => by
      unfold State.followW0
      split <;> rfl
    rw [stream_of_splice (follow _), ← h]
    exact congrArg StreamRec.slot (stream_of_splice (without_splice s id) x)
  obtain ⟨v', moved, same⟩ := refreshSlots_moved start
  have slot : ((s.replannedWithout id).stream x).slot = some v' := moved
  have member : x ∈ Stream.all := by cases x <;> decide
  have splice : ∀ u : State, u.replan.splice = u.splice := fun u => (replan_mapAlone u).splice
  rw [cancelUnpinned_dropped, stream_of_splice (splice _), replan_eq_due]
  refine ⟨fun dropped => ?_, fun stays => ?_⟩
  · obtain ⟨free, act⟩ := dropAll_drops member slot ((same.dropped _).trans dropped)
    exact ⟨free, List.mem_append_left _ act⟩
  · refine ⟨v', (dropAll_stays (fun w held => ?_) _).trans slot, same⟩
    rw [slot, Option.some_inj] at held
    rw [← held, same.dropped, stays]

theorem cancelUnpinned_due (h : s.part = .tracking) (id : Nat) : Task.recompute ∈ (s.cancelUnpinned id).work := by
  have part : ((s.replannedWithout id).dropAll (s.dissolvedIds id) Stream.all).part = .tracking := by
    have same := (congrArg State.part (cancelUnpinned_alone s id).frame :)
    rw [cancelUnpinned_dropped, replan_eq_due] at same
    exact same.trans h
  rw [cancelUnpinned_dropped, replan_eq_due, if_pos part]
  exact List.mem_append_right _ List.mem_cons_self

theorem mem_dissolvedIds_iff (ids : s.dissolvedIds id = id :: (rest.head?.map fun k => k.w.id).toList) (i : Nat) :
    i ∈ s.dissolvedIds id ↔ i = id ∨ ∃ k after, rest = k :: after ∧ i = k.w.id := by
  rw [ids]
  cases rest <;> simp

theorem cancelReplans_rule : Rule.CancelReplans := by
  intro s id before rest j c distinct h own
  obtain ⟨j', J, front, restationed, entry, shifts, alone, succeeded⟩ := replannedWithout_lines distinct h own
  have window : ((s.cancelUnpinned id).plan.window.map fun w => w.id).Nodup := by
    rw [cancelUnpinned_ids]
    exact distinct.window.filter _
  have ids : s.dissolvedIds id = id :: (rest.head?.map fun k => k.w.id).toList := by
    cases rest with
    | nil => exact (alone rfl).2
    | cons k after => exact (succeeded k after rfl).1
  have named : J.w.id = j.w.id := by rw [entry, restationed.w]
  have figures : J.r.fig = j.r.fig := by rw [shifts.fig, restationed.r]
  have frame := (cancelUnpinned_alone s id).frame
  refine ⟨cancelUnpinned_ids s id, ?_, ?_, fun x v held => ?_, fun tracking => cancelUnpinned_due tracking id,
    (congrArg State.map frame :), (congrArg State.slitter frame :), (congrArg State.dry frame :), (congrArg State.ports frame :)⟩
  · intro k after split
    obtain ⟨-, u, back, lines⟩ := succeeded k after split
    generalize next : u.replanLine (some j'.figures) (c.succeed k) = K at lines
    have planned : (c.succeed k).Restationed K := next ▸ replanLine_restationed u _ _
    rw [← cancelUnpinned_lines] at lines
    have first : J ∈ (s.cancelUnpinned id).lines := by rw [lines]; simp
    have second : shiftLine J.r.e K ∈ (s.cancelUnpinned id).lines := by rw [lines]; simp
    have placed := shiftLine_shifted J.r.e K
    have kept : (shiftLine J.r.e K).w = K.w := shiftLine_w _ _
    have id_ : (shiftLine J.r.e K).w.id = k.w.id := by rw [kept, planned.w]; rfl
    have fig : (shiftLine J.r.e K).r.fig = k.r.fig := by rw [placed.fig, planned.r]; rfl
    refine ⟨J.r, (shiftLine J.r.e K).r, K.w, named ▸ line_order? first, id_ ▸ line_order? second, ?_, figures, fig, ?_, ?_, ?_, ?_,
      fun isOpen b ends => ?_, fun firm => ?_, ?_, fun stays st at_ => ?_⟩
    · exact id_ ▸ kept ▸ line_windowOrder? window second
    · rw [placed.same, planned.r]; rfl
    · rw [placed.same, planned.r]; rfl
    · rw [placed.same, planned.r]; rfl
    · rw [placed.same, planned.r]; rfl
    · obtain ⟨start, finish⟩ := shiftLine_placed (l := K) ((congrArg OrderRec.pinned planned.r).trans isOpen) b
      have gap : K.r.gap = c.r.gap := by rw [planned.r]; rfl
      have sheets : (shiftLine (some b) K).r.n = K.r.n := by rw [(shiftLine_shifted (some b) K).same]
      rw [ends, finish, sheets, (shiftLine_shifted (some b) K).fig, start, gap]
      exact ⟨rfl, rfl⟩
    · have firm' : K.r.pinned = true ∨ J.r.e = none := firm.imp_left fun pinned => (congrArg OrderRec.pinned planned.r).trans pinned
      rw [shiftLine_stays firm', planned.r]
      rfl
    · exact planned.w
    · have at' : j'.r.station = some st := by rw [shifts.same] at at_; exact at_
      have layout : j'.figures.layout = j.r.fig.layout := by unfold Line.figures; rw [restationed.r]
      have station : j'.figures.station = st := by unfold Line.figures; rw [at']; rfl
      have unlapsed : j'.figures.lapsed = false := by unfold Line.figures; rw [restationed.w]; exact stays
      have boundary := replanLine_boundary (l := c.succeed k) unlapsed rfl rfl u
      have chosen : (shiftLine J.r.e K).r.station = K.r.station := by rw [placed.same]
      rw [next, layout, station] at boundary
      rw [chosen]
      exact boundary
  · rintro rfl r b record ends
    obtain ⟨lines, -⟩ := alone rfl
    have last : (s.replannedWithout id).lines.getLast? = some J := by rw [lines, List.getLast?_append]; rfl
    have member : J ∈ (s.cancelUnpinned id).lines := by rw [cancelUnpinned_lines, lines]; simp
    have same := line_order? member
    rw [named, record, Option.some_inj] at same
    rw [cancelUnpinned_plan]
    exact shiftPlan_w0 last (same ▸ ends)
  · have form : v.dropped (s.dissolvedIds id) = true ↔ v.state = .planned ∧ v.kind = .grade ∧ v.departed = false ∧
        ∃ i, v.boundary = some i ∧ (i = id ∨ ∃ k after, rest = k :: after ∧ i = k.w.id) := by
      rw [dropped_iff]
      simp only [mem_dissolvedIds_iff ids]
      simp only [and_comm (a := _ = id ∨ _)]
    obtain ⟨gone, kept⟩ := cancelUnpinned_slots (id := id) held
    exact ⟨fun dissolved => gone (form.mpr dissolved), fun stays => kept (Bool.not_eq_true _ ▸ mt form.mp stays)⟩

end Sys2Proof.Machine
end

section
/-! PROOF. Settles O50, continued: Cancel Order and Discard Order (R55 to R57, R62). -/

namespace Sys2Proof.Machine

variable {s t : State} {id : Nat} {r : OrderRec} {p : Port} {tag : Byte}

theorem resultOf_none (cause : ResultCause) (n : Nat) : resultOf cause n 0 = ⟨cause, n, 0⟩ := by
  unfold resultOf
  rw [Nat.zero_sub, Nat.sub_zero]

/-! ### A QUEUED order withdrawn (R55) -/

/-- The record of an order withdrawn from the queue (R55). -/
def OrderRec.dequeued (r : OrderRec) : OrderRec :=
  { r with
    phase := .cancelled, blocked := .none, station := none
    result := some (resultOf .cancelledByPlan r.fig.t 0) }

theorem cancelQueued_form (s : State) (id : Nat) :
    s.cancelQueued id = (State.watchQueued s (s.modifyOrder id OrderRec.dequeued)).replan := rfl

theorem cancelQueued_own (h : s.order? id = some r) : (s.cancelQueued id).order? id = some r.dequeued := by
  rw [cancelQueued_form, order?_congr (replan_book _), State.watchQueued, order?_congr (raiseIf_book _ _ _)]
  exact order?_modifyOrder (fun _ => rfl) h

theorem cancelQueued_untouched (s : State) (id : Nat) : Untouched s (s.cancelQueued id) :=
  (((Untouched.refl s).modifyOrder id OrderRec.dequeued fun _ => rfl).raiseIf _ _).replan

theorem cancelQueued_frame (s : State) (id : Nat) :
    { s.cancelQueued id with book := s.book, ports := s.ports, work := s.work } = s := by
  rw [cancelQueued_form, replan_eq_due, State.watchQueued, State.raiseIf]
  split <;> rfl

/-! ### An order cancelled after its start (R57) -/

/-- The record of an order cancelled after its start, before its end is pinned (R57). -/
def OrderRec.stopped (r : OrderRec) : OrderRec :=
  { r with phase := .cancelled, result := some (resultOf .cancelledAfterStart r.fig.t r.counts.good) }

theorem cancelAfterStart_untouched (s : State) (id : Nat) : Untouched s (s.cancelAfterStart id) :=
  (((Untouched.refl s).modifyOrder id OrderRec.stopped fun _ => rfl).pinEnd id false).replan.push [.close id]

theorem cancelAfterStart_pinning (s : State) (id : Nat) : Pinning (s.modifyOrder id OrderRec.stopped) (s.cancelAfterStart id) :=
  (pinEnd_pinning _ id false).replan.trans (.of_same rfl rfl rfl)

theorem cancelAfterStart_ids (s : State) (id : Nat) :
    ((s.cancelAfterStart id).plan.window.map fun w => w.id) = s.plan.window.map fun w => w.id :=
  (cancelAfterStart_pinning s id).ids

theorem cancelAfterStart_own (h : s.order? id = some r) : ∃ v, (s.cancelAfterStart id).order? id = some v ∧ r.stopped.Firmed v ∧
    ((s.windowOrder? id).isSome = true → v.pinned = true) := by
  obtain ⟨v, record, firmed⟩ := (cancelAfterStart_pinning s id).orders id _ (order?_modifyOrder (fun _ => rfl) h)
  refine ⟨v, record, firmed, fun window => pinEnd_pins (s := s.modifyOrder id OrderRec.stopped) window false ?_⟩
  rw [← order?_congr (replan_book _)]
  exact record

/-! ### The requests -/

theorem cancelOrderVerdict_finished (h : s.order? id = some r) (k : r.phase = .closed ∨ r.phase = .cancelled) :
    cancelOrderVerdict id s = .no .state := by
  rcases k with k | k <;> simp only [cancelOrderVerdict, h, k]

theorem cancelOrderVerdict_queued (h : s.order? id = some r) (k : r.phase = .queued) :
    cancelOrderVerdict id s = .ok fun s => s.cancelQueued id := by simp only [cancelOrderVerdict, h, k]

theorem cancelOrderVerdict_planned (h : s.order? id = some r) (k : r.phase = .planned) : cancelOrderVerdict id s =
    .ok fun s => if s.startPinned id then s.cancelAfterStart id else s.cancelUnpinned id := by
  simp only [cancelOrderVerdict, h, k]

theorem cancelOrderVerdict_cutting (h : s.order? id = some r) (k : r.phase = .cutting) :
    cancelOrderVerdict id s = .ok fun s => s.cancelAfterStart id := by simp only [cancelOrderVerdict, h, k]

theorem discardable_iff (h : s.order? id = some r) :
    s.discardable r = true ↔ r.phase = .closed ∨ (r.phase = .cancelled ∧ s.windowOrder? id = none) := by
  simp only [State.discardable, order?_id h, Bool.or_eq_true, Bool.and_eq_true, beq_iff_eq, Option.isNone_iff_eq_none]

theorem discardOrderVerdict_known (h : s.order? id = some r) :
    discardOrderVerdict id s = if s.discardable r then .ok fun s => s.removeOrder id else .no .state := by
  simp only [discardOrderVerdict, h]

theorem startPinned_withFrame (s : State) (p : Port) (f : Frame) : (s.withFrame p f).startPinned id = s.startPinned id :=
  startPinned_congr rfl rfl id

/-- Cancel Order of an order whose start is pinned (R57). -/
theorem exec_cancel_stops (known : s.order? id = some r)
    (done : exec (.cancelOrder p tag id) s = .next ((s.withFrame p (doneFrame 0x03 tag [])).cancelAfterStart id).settled) :
    ∃ u v, (exec (.cancelOrder p tag id) s = .next u.settled ∧ JoinedBy s u p (doneFrame 0x03 tag [])) ∧
      u.order? id = some v ∧ v.fig = r.fig ∧ v.phase = .cancelled ∧ v.counts = r.counts ∧
      v.result = some ⟨.cancelledAfterStart, r.fig.t - r.counts.good, r.counts.good - r.fig.t⟩ ∧
      (u.plan.window.map fun w => w.id) = (s.plan.window.map fun w => w.id) ∧
      (r.pinned = true → v.n = r.n ∧ v.e = r.e) ∧ ((s.windowOrder? id).isSome = true → v.pinned = true) ∧
      Task.close id ∈ u.work := by
  obtain ⟨v, record, firmed, pinned⟩ := cancelAfterStart_own (s := s.withFrame p (doneFrame 0x03 tag [])) known
  refine ⟨_, v, ⟨done, joinedBy_of_untouched (cancelAfterStart_untouched _ id).ports⟩, record, firmed.fig,
    firmed.phase, firmed.counts, firmed.result, cancelAfterStart_ids _ id, fun firm => ?_, pinned, List.mem_append_right _ List.mem_cons_self⟩
  rw [firmed.firm firm]
  exact ⟨rfl, rfl⟩

theorem exec_discard (heard : Heard s p 0x04) (quiet : s.work = []) (known : s.order? id = some r)
    (finished : s.discardable r = true) : exec (.discardOrder p tag id) s =
      .next { s.withFrame p (doneFrame 0x04 tag []) with book := s.book.filter fun r => r.fig.id != id } := by
  have done := exec_ok (i := .discardOrder p tag id) rfl heard ((discardOrderVerdict_known known).trans (if_pos finished))
  have idle : ((s.withFrame p (doneFrame 0x04 tag [])).removeOrder id).work = [] := (withFrame_work s p (doneFrame 0x04 tag [])).trans quiet
  rw [settled_nil _ idle] at done
  exact done

theorem cancelAndDiscard_rule : Rule.CancelAndDiscard := by
  intro p tag id s
  refine ⟨fun heard => ?_, fun heard quiet => ⟨fun unheld => ?_, fun r known => ⟨fun stands => ?_, fun finished => ?_⟩⟩⟩
  · have taken : ∀ f : State → State, cancelOrderVerdict id s = .ok f →
        exec (.cancelOrder p tag id) s = .next (f (s.withFrame p (doneFrame 0x03 tag []))).settled :=
      fun f verdict => exec_ok (i := .cancelOrder p tag id) rfl heard verdict
    refine ⟨fun unheld quiet => ?_, fun r known => ⟨?_, fun queued => ?_, fun planned isOpen => ?_, ?_⟩⟩
    · refine exec_refused .unknown rfl quiet heard ?_
      change cancelOrderVerdict id s = _
      rw [cancelOrderVerdict, unheld]
    · intro finished quiet
      exact exec_refused .state rfl quiet heard (cancelOrderVerdict_finished known finished)
    · refine ⟨_, ⟨taken _ (cancelOrderVerdict_queued known queued),
        joinedBy_of_untouched (cancelQueued_untouched _ id).ports⟩, ?_, ?_⟩
      · exact (resultOf_none .cancelledByPlan r.fig.t) ▸ cancelQueued_own (s := s.withFrame p _) known
      · exact (congrArg (fun v : State => { v with ports := s.ports }) (cancelQueued_frame _ id) :)
    · have done := taken _ (cancelOrderVerdict_planned known planned)
      rw [startPinned_withFrame, isOpen, if_neg Bool.false_ne_true] at done
      refine ⟨_, ⟨done, joinedBy_of_ports ?_⟩, ?_, cancelUnpinned_out _ id, rfl⟩
      · exact (congrArg State.ports (cancelUnpinned_alone _ id).frame :)
      · exact (resultOf_none .cancelledByPlan r.fig.t) ▸ cancelUnpinned_own (s := s.withFrame p _) known
    · rintro (cutting | ⟨planned, pinned⟩)
      · exact exec_cancel_stops known (taken _ (cancelOrderVerdict_cutting known cutting))
      · have done := taken _ (cancelOrderVerdict_planned known planned)
        rw [startPinned_withFrame, pinned, if_pos rfl] at done
        exact exec_cancel_stops known done
  · refine exec_refused .unknown rfl quiet heard ?_
    change discardOrderVerdict id s = _
    rw [discardOrderVerdict, unheld]
  · refine exec_refused .state rfl quiet heard ((discardOrderVerdict_known known).trans (if_neg ?_))
    exact mt (discardable_iff known).mp stands
  · exact exec_discard heard quiet known ((discardable_iff known).mpr finished)

/-- Settles O50: the requests, and the plan behind an order that leaves, line by line. -/
theorem ordersAreCancelledAndDiscarded : Obligations.OrdersAreCancelledAndDiscarded := ⟨cancelAndDiscard_rule, cancelReplans_rule⟩

end Sys2Proof.Machine
end

section
/-! PROOF. The count of the planner (R73, R74), the gap decision with its free count and floor (R79, R80), and the swaps (R87, R88,
R149): the parts of O51 that leave the plan as it is. -/

namespace Sys2Proof.Machine

variable {s t : State} {l : Line} {spans : List (Pos × Pos)} {x : Stream} {prev : PrevFigures} {r : OrderRec}

/-! ### The count of the rejects (R73) -/

theorem sheetSpoiled_iff (s : State) (spans : List (Pos × Pos)) (l : Line) (n : Nat) : s.sheetSpoiled spans l n = true ↔
    s.overlapped (l.cut (n - 1)) (l.cut n) = true ∨ ∃ x ∈ spans, x.1 < l.cut n ∧ l.cut (n - 1) < x.2 := by
  simp only [State.sheetSpoiled, Bool.or_eq_true, List.any_eq_true, Bool.and_eq_true, decide_eq_true_eq]

theorem rejectCount_rule : Rule.RejectCount := by
  intro s spans l n
  refine ⟨((List.range n).filter fun k => l.w.cuts ≤ k && s.sheetSpoiled spans l (k + 1)).map (· + 1), ?_, fun k => ?_, ?_⟩
  · exact (List.nodup_range.filter _).map fun a b same => Nat.succ.inj same
  · dsimp only
    rw [← sheetSpoiled_iff]
    simp only [List.mem_map, List.mem_filter, List.mem_range, Bool.and_eq_true, decide_eq_true_eq]
    constructor
    · rintro ⟨j, ⟨below, cut, spoiled⟩, rfl⟩
      exact ⟨Nat.lt_succ_of_le cut, below, spoiled⟩
    · rintro ⟨cut, below, spoiled⟩
      obtain ⟨j, rfl⟩ := Nat.exists_eq_add_one_of_ne_zero (Nat.ne_zero_of_lt cut)
      exact ⟨j, ⟨below, Nat.le_of_lt_succ cut, spoiled⟩, rfl⟩
  · rw [List.length_map]
    rfl

/-- More sheets hold no fewer rejects. -/
theorem countRejects_mono (s : State) (spans : List (Pos × Pos)) (l : Line) {m n : Nat} (h : m ≤ n) :
    s.countRejects spans l m ≤ s.countRejects spans l n := by
  unfold State.countRejects
  exact Nat.add_le_add_left ((List.range_sublist.mpr h).filter _).length_le _

/-! ### Provisional extension (R74) -/

/-- The sheets that the rejects among the first `n` ask for. -/
def State.sheetsAsked (s : State) (spans : List (Pos × Pos)) (l : Line) (n : Nat) : Nat :=
  l.r.fig.t + min (s.countRejects spans l n) l.r.fig.a

theorem sheetsAsked_mono (s : State) (spans : List (Pos × Pos)) (l : Line) {m n : Nat} (h : m ≤ n) :
    s.sheetsAsked spans l m ≤ s.sheetsAsked spans l n :=
  Nat.add_le_add_left (min_le_min_right _ (countRejects_mono s spans l h)) _

theorem sheetsAsked_le (s : State) (spans : List (Pos × Pos)) (l : Line) (n : Nat) :
    s.sheetsAsked spans l n ≤ l.r.fig.t + l.r.fig.a := Nat.add_le_add_left (min_le_right _ _) _

/-- The extension reaches the least number of sheets that is as many as its rejects ask for: each repeat gains a sheet, and the
allowance bounds them. -/
theorem extend_least (s : State) (spans : List (Pos × Pos)) (l : Line) {fuel n : Nat} (top : n ≤ l.r.fig.t + l.r.fig.a)
    (enough : l.r.fig.t + l.r.fig.a < fuel + n) :
    n ≤ s.extend spans l fuel n ∧ s.extend spans l fuel n ≤ l.r.fig.t + l.r.fig.a ∧
    s.sheetsAsked spans l (s.extend spans l fuel n) ≤ s.extend spans l fuel n ∧
    ∀ m, n ≤ m → m < s.extend spans l fuel n → ¬ s.sheetsAsked spans l m ≤ m := by
  induction fuel generalizing n with
  | zero => omega
  | succ fuel ih =>
    have bound := sheetsAsked_le s spans l n
    have step : s.extend spans l (fuel + 1) n =
        if max n (s.sheetsAsked spans l n) = n then n else s.extend spans l fuel (max n (s.sheetsAsked spans l n)) := rfl
    rw [step]
    split
    · next settled => exact ⟨le_rfl, top, by omega, by omega⟩
    · next grows =>
      have more : max n (s.sheetsAsked spans l n) = s.sheetsAsked spans l n := by omega
      rw [more] at grows ⊢
      obtain ⟨above, below, asked, least⟩ := ih bound (by omega)
      refine ⟨by omega, below, asked, fun m low high fits => ?_⟩
      by_cases early : m < s.sheetsAsked spans l n
      · have mono := sheetsAsked_mono s spans l low
        omega
      · exact least m (by omega) high fits

theorem sheets_least (s : State) (spans : List (Pos × Pos)) {n : Nat} (h : l.r.n = some n) (low : l.r.fig.t ≤ n)
    (top : n ≤ l.r.fig.t + l.r.fig.a) : n ≤ s.sheets spans l ∧ s.sheets spans l ≤ l.r.fig.t + l.r.fig.a ∧
      s.sheetsAsked spans l (s.sheets spans l) ≤ s.sheets spans l ∧
      ∀ m, n ≤ m → m < s.sheets spans l → ¬ s.sheetsAsked spans l m ≤ m := by
  have start : max (l.r.n.getD l.r.fig.t) l.r.fig.t = n := by
    rw [h]
    exact max_eq_left low
  unfold State.sheets
  rw [start]
  exact extend_least s spans l top (by omega)

theorem provisionalExtension_rule : Rule.ProvisionalExtension := by
  intro s e spans l n isOpen known low top
  obtain ⟨above, below, asked, least⟩ :=
    sheets_least (l := l.placedBehind e) s (s.spansSeen spans (l.placedBehind e)) known low top
  rw [countLine_open isOpen]
  refine ⟨_, rfl, above, below, ⟨rfl, asked, least, fun fits => ?_⟩, rfl, rfl, ?_⟩
  · by_contra more
    exact least n le_rfl (lt_of_le_of_ne above (Ne.symm more)) fits
  · rintro b rfl
    rfl

/-! ### The free count and the floor (R80) -/

theorem foldl_max_eq {f : Pos} {fs : List Pos} {b : Pos} : fs.foldl max f = b ↔ b ∈ f :: fs ∧ ∀ c ∈ f :: fs, c ≤ b := by
  have form : (f :: fs).max? = some (fs.foldl max f) := rfl
  rw [← List.max?_eq_some_iff, form, Option.some_inj]

theorem mem_gradeFires (s : State) (x : Stream) (f : Pos) : f ∈ s.gradeFires x ↔ ∃ l prev, (l, prev) ∈ s.boundaries ∧
    ((∃ v, s.slotHolds x l.w.id v ∧ v.state ≠ .fault ∧ f = v.firePoint) ∨
     ((∀ v, ¬ s.slotHolds x l.w.id v) ∧ (s.streamProfile x).active = true ∧ prev.grades.get x ≠ l.r.fig.grades.get x ∧
       l.w.targetSpent.get x = false ∧ f = l.start - s.profile.line.g - s.seamOffset x)) := by
  unfold State.gradeFires
  rw [List.mem_filterMap, Prod.exists]
  refine exists_congr fun l => exists_congr fun prev => and_congr_right fun _ => ?_
  dsimp only
  cases inSlot : s.targetInSlot x l.w.id with
  | true =>
    obtain ⟨v, held⟩ := (targetInSlot_iff s x l.w.id).mp inSlot
    have only : ∀ u, s.slotHolds x l.w.id u → u = v := fun u other => by
      have same := other.1.symm.trans held.1
      exact Option.some_inj.mp same
    rw [if_pos rfl, held.1]
    dsimp only
    constructor
    · intro fires
      split at fires
      · cases fires
      · next sound => exact .inl ⟨v, held, fun fault => sound (beq_iff_eq.mpr fault), (Option.some_inj.mp fires).symm⟩
    · rintro (⟨u, other, sound, rfl⟩ | ⟨free, -⟩)
      · rw [only u other] at sound ⊢
        exact if_neg (mt beq_iff_eq.mp sound)
      · exact absurd held (free v)
  | false =>
    have free : ∀ v, ¬ s.slotHolds x l.w.id v := fun v held =>
      absurd (inSlot.symm.trans ((targetInSlot_iff s x l.w.id).mpr ⟨v, held⟩)) nofun
    rw [if_neg Bool.false_ne_true]
    constructor
    · intro fires
      split at fires
      · next waits =>
        obtain ⟨⟨active, differs, fresh⟩, -⟩ := (targetWaits_iff s prev l x).mp waits
        exact .inr ⟨free, active, differs, fresh, (Option.some_inj.mp fires).symm⟩
      · cases fires
    · rintro (⟨v, held, -⟩ | ⟨-, active, differs, fresh, rfl⟩)
      · exact absurd held (free v)
      · rw [if_pos ((targetWaits_iff s prev l x).mpr ⟨⟨active, differs, fresh⟩, inSlot⟩)]
        rfl

theorem freeCount_none (h : ∀ f, f ∉ s.gradeFires x) : s.freeCount x = s.streamPos x := by
  unfold State.freeCount
  rw [List.eq_nil_iff_forall_not_mem.mpr h]

theorem freeCount_latest {f : Pos} (h : f ∈ s.gradeFires x) (latest : ∀ g ∈ s.gradeFires x, g ≤ f) :
    s.freeCount x = max (s.streamPos x) (f + (s.streamProfile x).doneWindow) := by
  unfold State.freeCount
  cases fires : s.gradeFires x with
  | nil =>
    rw [fires] at h
    cases h
  | cons g gs =>
    rw [fires] at h latest
    dsimp only
    rw [foldl_max_eq.mpr ⟨h, latest⟩]

theorem minStart_none (s : State) : s.minStart none =
    if s.plan.window = [] then max (max s.plan.w0 s.dry.cursor) s.knife else max s.plan.w0 s.dry.cursor := by
  unfold State.minStart State.wasteFloor
  cases s.plan.window <;> rfl

theorem freeCountAndFloor_rule : Rule.FreeCountAndFloor := by
  refine ⟨fun s x => ⟨fun none_ => freeCount_none fun f fires => none_ f ((mem_gradeFires s x f).mp fires),
    fun f fires latest => freeCount_latest ((mem_gradeFires s x f).mpr fires)
      fun g later => latest g ((mem_gradeFires s x g).mp later)⟩, fun s => ⟨minStart_none s, fun b => ?_⟩⟩
  rw [← minStart_none]
  rfl

/-! ### The gap decision (R79) -/

/-- A whole number of waste lengths is the least that is enough. -/
theorem wasteCeil_least {wg : Nat} (h : 0 < wg) (d : Int) :
    d ≤ wasteCeil d wg * wg ∧ (wasteCeil d wg = 0 ∨ ((wasteCeil d wg : Int) - 1) * wg < d) := by
  have form : wasteCeil d wg = (d.toNat + wg - 1) / wg := if_neg (Nat.ne_of_gt h)
  generalize wasteCeil d wg = q at form ⊢
  have parts := Nat.div_add_mod (d.toNat + wg - 1) wg
  have rem := Nat.mod_lt (d.toNat + wg - 1) h
  rw [← form] at parts
  have product : (q : Int) * wg = ((wg * q : Nat) : Int) := by push_cast; ring
  rw [sub_mul, one_mul, product]
  refine ⟨by omega, ?_⟩
  by_cases none_ : q = 0
  · exact .inl none_
  · have more : wg ≤ wg * q := Nat.le_mul_of_pos_right wg (Nat.pos_of_ne_zero none_)
    exact .inr (by omega)

/-- The term of a stream in the required start (R79, step 1). -/
def State.startTerm (s : State) (x : Stream) : Pos :=
  s.freeCount x + (s.streamProfile x).commitLead + s.seamOffset x + s.profile.line.g

/-- The streams that need a grade splice before an order. -/
def State.splicing (s : State) (prev : PrevFigures) (r : OrderRec) : List Stream :=
  Stream.all.filter fun x => (s.streamProfile x).active && prev.grades.get x != r.fig.grades.get x

theorem mem_splicing (s : State) (prev : PrevFigures) (r : OrderRec) (x : Stream) : x ∈ s.splicing prev r ↔
    (s.streamProfile x).active = true ∧ prev.grades.get x ≠ r.fig.grades.get x := by
  simp [State.splicing, mem_streamAll]

theorem requiredStart_max (s : State) (prev : PrevFigures) (r : OrderRec) :
    s.requiredStart prev r = ((s.splicing prev r).map s.startTerm).max? := by
  change (match (s.splicing prev r).map s.startTerm with
    | [] => none
    | t :: ts => some (ts.foldl max t)) = _
  cases (s.splicing prev r).map s.startTerm <;> rfl

theorem requiredStart_none (h : ∀ x, x ∉ s.splicing prev r) : s.requiredStart prev r = none := by
  rw [requiredStart_max, List.eq_nil_iff_forall_not_mem.mpr h]
  rfl

theorem requiredStart_greatest (h : x ∈ s.splicing prev r) : ∃ b y, s.requiredStart prev r = some b ∧ y ∈ s.splicing prev r ∧
    b = s.startTerm y ∧ ∀ z ∈ s.splicing prev r, s.startTerm z ≤ b := by
  rw [requiredStart_max]
  cases greatest : ((s.splicing prev r).map s.startTerm).max? with
  | none =>
    rw [List.max?_eq_none_iff, List.map_eq_nil_iff] at greatest
    rw [greatest] at h
    cases h
  | some b =>
    obtain ⟨held, above⟩ := List.max?_eq_some_iff.mp greatest
    obtain ⟨y, splices, rfl⟩ := List.mem_map.mp held
    exact ⟨_, y, rfl, splices, rfl, fun z other => above _ (List.mem_map_of_mem other)⟩

/-- The state that a gap decision leaves where it needs a pin (R79, step 4). -/
def State.pinLast (s : State) : State :=
  match s.plan.window.getLast? with
  | some k => s.pinEnd k.id
  | none => s

theorem pinLast_pinning (s : State) : Pinning s s.pinLast := by
  unfold State.pinLast
  split
  · exact pinEnd_pinning _ _ _
  · exact .refl s

theorem gapDecision_near (h : s.minStart (s.requiredStart prev r) ≤ s.plan.w0) : s.gapDecision prev r = (s, 0) := if_pos h

theorem gapDecision_far (h : s.plan.w0 < s.minStart (s.requiredStart prev r)) : s.gapDecision prev r = (s.pinLast,
    wasteCeil (s.pinLast.minStart (s.requiredStart prev r) - s.pinLast.plan.w0) s.pinLast.profile.line.wg) :=
  if_neg (not_le.mpr h)

theorem gapDecision_rule : Rule.GapDecision := by
  intro s prev r
  refine ⟨fun none_ => requiredStart_none fun x splices => none_ x ((mem_splicing s prev r x).mp splices), fun x needs => ?_,
    gapDecision_near, fun far => ?_⟩
  · obtain ⟨b, y, req, splices, term, greatest⟩ := requiredStart_greatest ((mem_splicing s prev r x).mpr needs)
    exact ⟨b, y, req, (mem_splicing s prev r y).mp splices, term, fun z other => greatest z ((mem_splicing s prev r z).mpr other)⟩
  · rw [gapDecision_far far]
    refine ⟨fun before k window => ?_, fun empty => ?_, fun positive => ?_⟩
    · unfold State.pinLast
      rw [window, List.getLast?_concat]
    · unfold State.pinLast
      rw [empty]
      rfl
    · obtain ⟨enough, least⟩ := wasteCeil_least (Int.natCast_pos.mp positive)
        (s.pinLast.minStart (s.requiredStart prev r) - s.pinLast.plan.w0)
      dsimp only
      rw [(pinLast_pinning s).profile]
      exact ⟨sub_le_iff_le_add'.mp enough, least.imp_right lt_sub_iff_add_lt'.mp⟩

/-! ### Stations and swaps (R87, R88, R149) -/

theorem chosenStation_released (h : l.w.swapReleased = true) (f : Option PrevFigures) (layout : Layout) :
    l.chosenStation f layout = l.r.station.getD .a := if_pos h

/-- A line's swap plans the records of the planned one, whether that replaces it or not. -/
theorem replanLine_records (s : State) (f : PrevFigures) (l : Line) :
    (s.replanLine (some f) l).w.swap.drop.map SwapRec.station = (s.plannedSwap f l).drop.map SwapRec.station ∧
    (s.replanLine (some f) l).w.swap.lifts.map SwapRec.station = (s.plannedSwap f l).lifts.map SwapRec.station := by
  rw [replanLine_swap]
  split
  · next same =>
    simp only [Swap.same, Bool.and_eq_true, beq_iff_eq] at same
    obtain ⟨⟨-, drop⟩, lifts⟩ := same
    exact ⟨drop.symm, lifts.symm⟩
  · exact ⟨rfl, rfl⟩

theorem replanLine_kept (h : l.w.swapReleased = true) {f : PrevFigures} (k : f.lapsed = false) (s : State) :
    (s.replanLine (some f) l).w.swap = l.w.swap := by
  have planned : s.plannedSwap f l = l.w.swap := by
    unfold State.plannedSwap
    rw [h, k]
    rfl
  rw [replanLine_swap, planned, ite_self]

/-- Behind a lapsed order, with nothing planned before: a DROP of the station and a LIFT of each DOWN one. -/
theorem swapAt_lapsed {f : PrevFigures} (k : f.lapsed = true) (s : State) (st : Station) :
    (s.swapAt f st {}).drop.map SwapRec.station = some st ∧
    (s.swapAt f st {}).lifts.map SwapRec.station = s.downStations := by
  have form : s.swapAt f st {} = s.swapAfterLapse st {} := by
    unfold State.swapAt
    rw [k]
    rfl
  rw [form]
  refine ⟨rfl, ?_⟩
  have owed : (s.downStations.filter fun _ => true) = s.downStations := List.filter_eq_self.mpr fun _ _ => rfl
  have lifts : (s.swapAfterLapse st {}).lifts = (s.downStations.filter fun _ => true).map fun x => { station := x } := rfl
  rw [lifts, owed, List.map_map]
  exact List.map_id' _

theorem replanLine_swaps (s : State) (l : Line) (f : PrevFigures) :
    let l' := s.replanLine (some f) l
    (l.w.swapReleased = true → l'.r.station = some (l.r.station.getD .a) ∧ (f.lapsed = false → l'.w.swap = l.w.swap)) ∧
    (l.w.swapReleased = false → f.layout = l.r.fig.layout → l'.r.station = some f.station) ∧
    (l.w.swapReleased = false → f.layout ≠ l.r.fig.layout → l'.r.station = some f.station.other) ∧
    (l.w.swapReleased = false → f.lapsed = false →
      (f.layout = l.r.fig.layout → l'.w.swap.drop = none ∧ l'.w.swap.lifts = []) ∧
      (f.layout ≠ l.r.fig.layout → l'.w.swap.drop.map SwapRec.station = some f.station.other ∧
        l'.w.swap.lifts.map SwapRec.station = [f.station])) ∧
    (f.lapsed = true → l.w.swap = {} → l'.w.swap.drop.map SwapRec.station = l'.r.station ∧
      l'.w.swap.lifts.map SwapRec.station = [Station.a, .b].filter fun x => (s.station x).state == .down) := by
  obtain ⟨drop, lifts⟩ := replanLine_records s f l
  dsimp only
  rw [replanLine_station, drop, lifts]
  refine ⟨fun released => ?_, fun free same => ?_, fun free differs => ?_, fun free stays => ?_, fun lapsed fresh => ?_⟩
  · rw [chosenStation_released released]
    exact ⟨rfl, fun stays => replanLine_kept released stays s⟩
  · rw [chosenStation_free free, if_pos same]
  · rw [chosenStation_free free, if_neg differs]
  · rw [plannedSwap_free free, swapAt_boundary stays, chosenStation_free free] at drop lifts ⊢
    refine ⟨fun same => ?_, fun differs => ?_⟩
    · rw [if_pos same, if_pos rfl] at drop lifts
      exact ⟨Option.map_eq_none_iff.mp drop, List.map_eq_nil_iff.mp lifts⟩
    · rw [if_neg differs, if_neg (station_other_ne _)]
      exact ⟨rfl, rfl⟩
  · have planned : s.plannedSwap f l = s.swapAt f (l.chosenStation (some f) l.r.fig.layout) {} := by
      unfold State.plannedSwap
      rw [lapsed, fresh, Bool.not_true, Bool.and_false]
      rfl
    rw [planned]
    exact swapAt_lapsed lapsed s _

theorem mem_swapRecs {source : Source} {kind : ActionKind} {order : Nat} {b : Pos} {rs : List SwapRec} {p : PendingRec} {st : Station}
    (h : p ∈ s.swapRecs source kind order b rs) (k : p.station = some st) :
    p.order = order ∧ p.position = b - s.stationDistance st := by
  obtain ⟨m, -, rfl⟩ := List.mem_map.mp h
  cases k
  exact ⟨rfl, rfl⟩

theorem swaps_rule : Rule.Swaps := by
  refine ⟨replanLine_swaps, fun s l p st unplanned held station => ?_⟩
  unfold State.moveRecs at held
  rw [unplanned, List.append_nil, List.mem_append] at held
  exact held.elim (fun lift => mem_swapRecs lift station) fun drop => mem_swapRecs drop station

end Sys2Proof.Machine
end

section
/-! PROOF. The pins of ends (R76) and the recipe triggers (R85). -/

namespace Sys2Proof.Machine

variable {s t : State} {l k : Line} {id : Nat} {r : OrderRec} {w : WindowOrder}

/-! ### The pin of one end, and of those before it (R76) -/

/-- The sheets that a pin gives a line counted at `n` with some rejects, its margin with them (R76, step 2). -/
def Line.finalSheets (l : Line) (m : Bool) (n rejects : Nat) : Nat :=
  max n (l.r.fig.t + min (rejects + if m = true then l.r.fig.m else 0) l.r.fig.a)

/-- A pin counts at the final start, adds the margin, and puts the end behind the sheets. -/
theorem pin_figures (isOpen : l.r.pinned = false) (s : State) (m : Bool) : ∃ n rejects,
    (s.countFinal l).r.n = some n ∧ (s.countFinal l).r.rejects = some rejects ∧
    ((s.countFinal l).pin m).r.n = some (l.finalSheets m n rejects) ∧
    ((s.countFinal l).pin m).r.e = some
      (cutPosition (((s.countFinal l).pin m).r.p.getD 0) l.r.fig.sf (l.finalSheets m n rejects)) ∧
    ∀ k b, lineBefore l.w.id none s.lines = some k → k.r.e = some b →
      ((s.countFinal l).pin m).r.p = some (b + (l.r.gap.getD 0 : Nat)) := by
  obtain ⟨o, spans, n, form, placed⟩ := countFinal_open isOpen s
  rw [form, placed]
  refine ⟨n, _, rfl, rfl, rfl, rfl, fun k b before ends => ?_⟩
  rw [before, Option.bind_some, ends]
  rfl

theorem pinLine_raises (classes : (s.port .planning).classes.length = 12) (l : Line) (m : Bool) :
    ((s.pinLine l m).port .planning).rawOf 1 = true := by
  have ports : (s.writeLines [(s.countFinal l).pin m]).shiftPlan.ports = s.ports :=
    (congrArg State.ports (shiftPlan_alone (s.writeLines [(s.countFinal l).pin m])).frame :)
  have raised := raise_raw (s.writeLines [(s.countFinal l).pin m]).shiftPlan .pinned
    (by unfold State.port at *; rw [ports]; exact classes ▸ (by decide : 1 < 12))
  unfold State.pinLine State.port at *
  rw [replan_ports]
  exact raised

theorem pinOne_raises (h : (s.lines.find? fun l => l.w.id == id) = some l) (isOpen : l.r.pinned = false)
    (classes : (s.port .planning).classes.length = 12) (m : Bool) : ((s.pinOne id m).port .planning).rawOf 1 = true := by
  rw [pinOne_open h isOpen]
  split
  · exact (((Untouched.refl _).insertSpan _).ports .planning).raw 1 (pinLine_raises classes l m)
  · exact pinLine_raises classes l m

/-- In a window of distinct ids the orders up to one are that one and those before it. -/
theorem idsThrough_split (distinct : (s.plan.window.map fun w => w.id).Nodup) {before rest : List Nat}
    (h : (s.plan.window.map fun w => w.id) = before ++ id :: rest) :
    idsThrough id s.plan.window = before ++ [id] ∧ ∀ k ∈ rest, k ∉ before ++ [id] := by
  rw [h, List.append_cons, List.nodup_append] at distinct
  obtain ⟨front, -, apart⟩ := distinct
  rw [List.nodup_append] at front
  obtain ⟨before', tail, split, rfl, ids⟩ := List.map_eq_append_iff.mp h
  obtain ⟨w, rest', rfl, own, rfl⟩ := List.map_eq_cons_iff.mp ids
  refine ⟨?_, fun k later earlier => apart _ earlier _ later rfl⟩
  rw [split, idsThrough_append (fun held => front.2.2 _ held _ List.mem_cons_self rfl) own, List.map_append, List.map_singleton, own]

theorem pinnedThrough_pinEnd (distinct : s.idsDistinct) (held : (s.windowOrder? id).isSome = true) (m : Bool) :
    (s.pinEnd id m).pinnedThrough id := by
  rintro before w rest window rfl v through r record
  have ids : (s.plan.window.map fun w => w.id) = (before.map fun w => w.id) ++ w.id :: rest.map fun w => w.id := by
    rw [← (pinEnd_pinning s w.id m).ids, window, List.map_append, List.map_cons]
  have member : v.id ∈ idsThrough w.id s.plan.window := by
    rw [(idsThrough_split distinct.window ids).1]
    simpa using List.mem_map_of_mem (f := fun w : WindowOrder => w.id) through
  have known : (s.windowOrder? v.id).isSome = true := by
    rw [windowOrder?_isSome_iff, ids]
    rcases List.mem_append.mp through with early | own
    · exact List.mem_append_left _ (List.mem_map_of_mem (f := fun w : WindowOrder => w.id) early)
    · rw [List.mem_singleton.mp own]
      simp
  obtain ⟨w', entry⟩ := Option.isSome_iff_exists.mp known
  rw [pinEnd_held held] at record
  exact pinAll_pins _ member entry record

theorem pinEnd_later (distinct : s.idsDistinct) (held : (s.windowOrder? id).isSome = true) (m : Bool) {before rest : List WindowOrder}
    (window : s.plan.window = before ++ w :: rest) (own : w.id = id) {v : WindowOrder} (later : v ∈ rest) :
    ((s.pinEnd id m).order? v.id).map OrderRec.pinned = (s.order? v.id).map OrderRec.pinned := by
  subst own
  have ids : (s.plan.window.map fun w => w.id) = (before.map fun w => w.id) ++ w.id :: rest.map fun w => w.id := by
    rw [window, List.map_append, List.map_cons]
  obtain ⟨through, apart⟩ := idsThrough_split distinct.window ids
  rw [pinEnd_held held, through]
  exact pinAll_others _ _ (apart _ (List.mem_map_of_mem (f := fun w : WindowOrder => w.id) later))

theorem pin_rule : Rule.Pin := by
  refine ⟨?_, fun s id m distinct held => ⟨pinnedThrough_pinEnd distinct held m,
    fun before w rest window own v later => pinEnd_later distinct held m window own later⟩⟩
  rintro s id m l distinct held rfl
  have found := lines_find?_some (line_windowOrder? distinct.window held) (line_order? held)
  refine ⟨fun pinned => pinOne_pinned found pinned m, fun isOpen => ?_⟩
  obtain ⟨n, rejects, sheets, count, final, finish, start⟩ := pin_figures isOpen s m
  obtain ⟨-, firmed, pinned⟩ := pin_firmed isOpen s m
  have record : (s.pinOne l.w.id m).order? l.w.id = some ((s.countFinal l).pin m).r := by
    rw [order?_congr (pinOne_book found isOpen m), pinLine_own found isOpen]
  exact ⟨n, rejects, _, sheets, count, record, firmed.fig, firmed.phase, firmed.counts, pinned, ⟨final, finish⟩, start,
    fun classes => pinOne_raises found isOpen classes m⟩

/-! ### The recipe triggers (R85) -/

theorem mem_dueTriggers (s : State) (point : Pos) (n id : Nat) : (point, n, id) ∈ s.dueTriggers ↔
    ∃ l prev e, (l, prev) ∈ s.boundaries ∧ l.w.id = id ∧
      (∃ x, (s.streamProfile x).active = true ∧ prev.grades.get x ≠ l.r.fig.grades.get x) ∧ 1 ≤ n ∧ n ≤ 12 ∧
      nth1 s.profile.entries n = some e ∧ e.enable = true ∧ nth1 l.w.triggerFired n ≠ some true ∧
      point = l.start - e.dFar - e.changeLead ∧ point ≤ s.knife := by
  unfold State.dueTriggers
  rw [List.mem_flatMap, Prod.exists]
  refine exists_congr fun l => exists_congr fun prev => ?_
  have unfired : (nth1 l.w.triggerFired n).getD false = false ↔ nth1 l.w.triggerFired n ≠ some true := by
    cases nth1 l.w.triggerFired n <;> simp
  rw [List.mem_filterMap, Prod.exists]
  simp only [Prod.exists, mem_triggersAt]
  constructor
  · rintro ⟨held, m, b, fired, ⟨change, low, high, e, entry, enabled, rfl, rfl⟩, due⟩
    split at due
    · next reached =>
      rw [Bool.and_eq_true, Bool.not_eq_true', decide_eq_true_eq] at reached
      cases due
      exact ⟨e, held, rfl, change, low, high, entry, enabled, unfired.mp reached.1, rfl, reached.2⟩
    · cases due
  · rintro ⟨e, held, rfl, change, low, high, entry, enabled, unfired', rfl, reached⟩
    refine ⟨held, n, _, _, ⟨change, low, high, e, entry, enabled, rfl, rfl⟩, if_pos ?_⟩
    rw [Bool.and_eq_true, Bool.not_eq_true', decide_eq_true_eq]
    exact ⟨unfired.mpr unfired', reached⟩

/-- One trigger fires before another: by ascending point, then by entry number (R85). -/
def firesBefore (x y : Pos × Nat × Nat) : Prop := y = x ∨ x.1 < y.1 ∨ (x.1 = y.1 ∧ x.2.1 < y.2.1)

theorem earlierTrigger_before {x y : Pos × Nat × Nat} (h : firesBefore x y) :
    earlierTrigger x y = x ∧ earlierTrigger y x = x := by
  unfold earlierTrigger
  rcases h with rfl | sooner | ⟨level, lower⟩
  · simp
  · simp [sooner, not_lt.mpr (le_of_lt sooner)]
  · simp [level, le_of_lt lower, not_le.mpr lower]

theorem earlierTrigger_eq (x y : Pos × Nat × Nat) : earlierTrigger x y = x ∨ earlierTrigger x y = y := by
  unfold earlierTrigger
  repeat' split
  · exact .inl rfl
  · exact .inr rfl
  · exact .inl rfl
  · exact .inr rfl

theorem foldl_earlierTrigger {x y : Pos × Nat × Nat} {ts : List (Pos × Nat × Nat)} (held : x ∈ y :: ts)
    (first : ∀ z ∈ y :: ts, firesBefore x z) : ts.foldl earlierTrigger y = x := by
  induction ts generalizing y with
  | nil => exact (List.mem_singleton.mp held).symm
  | cons z ts ih =>
    obtain ⟨beforeY, beforeZ, rest⟩ : firesBefore x y ∧ firesBefore x z ∧ ∀ w ∈ ts, firesBefore x w := by
      simpa only [List.forall_mem_cons] using first
    refine ih ?_ (List.forall_mem_cons.mpr ⟨?_, rest⟩)
    · rcases List.mem_cons.mp held with rfl | later
      · rw [(earlierTrigger_before beforeZ).1]
        exact List.mem_cons_self
      · rcases List.mem_cons.mp later with rfl | last
        · rw [(earlierTrigger_before beforeY).2]
          exact List.mem_cons_self
        · exact List.mem_cons_of_mem _ last
    · rcases earlierTrigger_eq y z with e | e <;> rw [e]
      · exact beforeY
      · exact beforeZ

/-- The plan with a trigger marked as fired and its entry's change pending, before its boundary is pinned (R85, acts 1 and 3). -/
def State.markTrigger (s : State) (n id : Nat) : State :=
  let t := s.modifyWindow id fun w => { w with triggerFired := modify1 w.triggerFired n fun _ => true }
  ({ t with plan := { t.plan with pendingChange := modify1 t.plan.pendingChange n fun _ => some id } }).raise .stationChange

theorem fireTrigger_none (h : s.dueTriggers = []) : s.fireTrigger = s := by
  unfold State.fireTrigger
  rw [h]

theorem fireTrigger_first {x : Pos × Nat × Nat} (held : x ∈ s.dueTriggers) (first : ∀ z ∈ s.dueTriggers, firesBefore x z) :
    s.fireTrigger = ((s.markTrigger x.2.1 x.2.2).pinStart x.2.2).push [.triggers] := by
  unfold State.fireTrigger
  cases due : s.dueTriggers with
  | nil =>
    rw [due] at held
    cases held
  | cons y ts =>
    rw [due] at held first
    dsimp only
    rw [foldl_earlierTrigger held first]
    rfl

theorem markTrigger_ids (s : State) (n id : Nat) :
    ((s.markTrigger n id).plan.window.map fun w => w.id) = s.plan.window.map fun w => w.id := by
  have form : (s.markTrigger n id).plan.window =
      s.plan.window.map fun w => if w.id == id then { w with triggerFired := modify1 w.triggerFired n fun _ => true } else w := rfl
  rw [form, List.map_map]
  refine List.map_congr_left fun w _ => ?_
  rw [Function.comp_apply]
  split <;> rfl

theorem markTrigger_distinct (h : s.idsDistinct) (n id : Nat) : (s.markTrigger n id).idsDistinct :=
  ⟨h.book, (markTrigger_ids s n id).symm ▸ h.window⟩

theorem markTrigger_known {n : Nat} (h : l ∈ s.lines) : ∃ m ∈ (s.markTrigger n id).lines, m.w.id = l.w.id := by
  have same : ((s.markTrigger n id).lines.map fun l => l.w.id) = s.lines.map fun l => l.w.id :=
    lines_ids_congr (markTrigger_ids s n id) fun _ => rfl
  exact List.mem_map.mp (same ▸ List.mem_map_of_mem (f := fun l : Line => l.w.id) h)

/-- Behind the pin of a start the order in front of it, where the window holds it, is PINNED (R75). -/
theorem pinnedBefore_pinStart (distinct : s.idsDistinct) (h : l ∈ s.lines) : (s.pinStart l.w.id).pinnedBefore l.w.id := by
  intro before v w rest window own r record
  have pins := pinStart_pinning s l.w.id
  obtain ⟨o, known⟩ : ∃ o, (s.pinStart l.w.id).order? w.id = some o := by
    rw [own]
    obtain ⟨o, record, -⟩ := pins.orders _ _ (line_order? h)
    exact ⟨o, record⟩
  have lines : (s.pinStart l.w.id).lines = (before.filterMap fun v => ((s.pinStart l.w.id).order? v.id).map (Line.mk v)) ++
      ⟨v, r⟩ :: ⟨w, o⟩ :: rest.filterMap fun v => ((s.pinStart l.w.id).order? v.id).map (Line.mk v) := by
    have all : (s.pinStart l.w.id).lines =
      (s.pinStart l.w.id).plan.window.filterMap fun v => ((s.pinStart l.w.id).order? v.id).map (Line.mk v) := rfl
    rw [all, window, List.filterMap_append, List.filterMap_cons_some (by rw [record]; rfl),
      List.filterMap_cons_some (by rw [known]; rfl)]
  obtain ⟨before', k, m, after', split, -, front, back⟩ := lines_neighbours pins.lines_ids.symm lines
  dsimp only at front back
  have apart := id_not_before (before := before' ++ [k]) (l := m) (after := after') distinct.window (split.trans (by simp))
  rw [back, own] at apart
  have neighbour : lineBefore l.w.id none s.lines = some k := by
    rw [split, lineBefore_append before' none apart (back.trans own)]
  have form : s.pinStart l.w.id = s.pinEnd v.id := by
    unfold State.pinStart
    rw [neighbour]
    exact congrArg s.pinEnd front
  have held : (s.windowOrder? v.id).isSome = true := front ▸ line_windowOrder?_isSome (by rw [split]; simp)
  rw [form] at record
  exact pinEnd_pins held true record

theorem nth1_isSome {α : Type} {l : List α} {n : Nat} (low : 1 ≤ n) (high : n ≤ l.length) : (nth1 l n).isSome = true := by
  obtain ⟨k, rfl⟩ := Nat.exists_eq_add_one_of_ne_zero (Nat.ne_of_gt low)
  exact (congrArg Option.isSome (List.getElem?_eq_getElem high)).trans rfl

theorem nth1_modify1_same {α : Type} {l : List α} {n : Nat} (low : 1 ≤ n) (high : n ≤ l.length) (v : α) :
    nth1 (modify1 l n fun _ => v) n = some v := by
  obtain ⟨x, held⟩ := Option.isSome_iff_exists.mp (nth1_isSome low high)
  rw [nth1_modify1_const, if_pos rfl, held]
  rfl

theorem nth1_modify1_other {α : Type} {l : List α} {n m : Nat} (h : m ≠ n) (v : α) :
    nth1 (modify1 l n fun _ => v) m = nth1 l m := by rw [nth1_modify1_const, if_neg h]

theorem markTrigger_entry {n : Nat} (h : s.windowOrder? id = some w) : (s.markTrigger n id).windowOrder? id =
    some { w with triggerFired := modify1 w.triggerFired n fun _ => true } := by
  have entry := modifyWindow_windowOrder? s id id
    (f := fun w => { w with triggerFired := modify1 w.triggerFired n fun _ => true }) fun _ => rfl
  refine Eq.trans entry ?_
  rw [h, Option.map_some, if_pos (beq_iff_eq.mpr (windowOrder?_id h))]

theorem fireTrigger_rule {point : Pos} {n : Nat} (held : (point, n, id) ∈ s.dueTriggers)
    (first : ∀ z ∈ s.dueTriggers, firesBefore (point, n, id) z) :
    (s.plan.pendingChange.length = 12 → nth1 s.fireTrigger.plan.pendingChange n = some (some id)) ∧
    (∀ m, m ≠ n → nth1 s.fireTrigger.plan.pendingChange m = nth1 s.plan.pendingChange m) ∧
    (∀ w, s.windowOrder? id = some w → w.triggerFired.length = 12 →
      ∃ w', s.fireTrigger.windowOrder? id = some w' ∧ nth1 w'.triggerFired n = some true) ∧
    (s.idsDistinct → s.fireTrigger.pinnedBefore id) ∧
    ((s.port .wet).classes.length = 13 → (s.fireTrigger.port .wet).rawOf 8 = true) := by
  obtain ⟨l, prev, e, boundary, rfl, -, low, high, -⟩ := (mem_dueTriggers s point n id).mp held
  have pins := pinStart_pinning (s.markTrigger n l.w.id) l.w.id
  have pending : s.fireTrigger.plan.pendingChange = modify1 s.plan.pendingChange n fun _ => some l.w.id := by
    rw [fireTrigger_first held first]
    exact (congrArg Planner.pendingChange pins.plan :)
  rw [pending]
  refine ⟨fun twelve => nth1_modify1_same low (twelve ▸ high) _, fun m other => nth1_modify1_other other _,
    fun w entry twelve => ?_, fun distinct => ?_, fun classes => ?_⟩
  · obtain ⟨v, found, same⟩ := pins.entries _ _ (markTrigger_entry entry)
    refine ⟨v, ?_, ?_⟩
    · rw [fireTrigger_first held first]
      exact found
    · rw [same]
      exact nth1_modify1_same low (twelve ▸ high) _
  · obtain ⟨m, member, same⟩ := markTrigger_known (n := n) (id := l.w.id) (boundary_line boundary)
    have before := pinnedBefore_pinStart (markTrigger_distinct distinct n l.w.id) member
    rw [same] at before
    rw [fireTrigger_first held first]
    exact before
  · have raised : ((s.markTrigger n l.w.id).port .wet).rawOf 8 = true :=
      raise_raw _ .stationChange (classes ▸ (by decide : 8 < 13))
    rw [fireTrigger_first held first]
    exact (((Untouched.refl (s.markTrigger n l.w.id)).pinStart l.w.id).ports .wet).raw 8 raised

theorem triggers_rule : Rule.Triggers := fun s => ⟨mem_dueTriggers s, fireTrigger_none, fun _ _ _ held first =>
  fireTrigger_rule held fun z later => first z.1 z.2.1 z.2.2 later⟩

end Sys2Proof.Machine
end

section
/-! PROOF. Settles O51: the filling of the window (R70, R49, R78, R79, R88), with the rules of the files before. -/

namespace Sys2Proof.Machine

variable {s t u : State} {l : Line} {id waste : Nat} {r o : OrderRec} {prev : Option PrevFigures} {st : Station}

/-! ### A QUEUED order blocked (R50, R70) -/

theorem block_own (h : s.order? r.fig.id = some r) (cause : Blocked) (st : Option Station) :
    (s.block r cause st).order? r.fig.id = some { r with blocked := cause, station := st } := by
  unfold State.block
  rw [order?_congr (raiseIf_book _ _ _)]
  exact order?_modifyOrder (f := fun r => { r with blocked := cause, station := st }) (fun _ => rfl) h

theorem block_raises (h : r.blocked = .none) (classes : (s.port .planning).classes.length = 12) (cause : Blocked)
    (st : Option Station) : ((s.block r cause st).port .planning).rawOf 6 = true := by
  unfold State.block State.raiseIf
  rw [h, if_pos (by decide)]
  exact raise_raw _ .blocked (classes ▸ (by decide : 6 < 12))

theorem block_bookAlone (s : State) (r : OrderRec) (cause : Blocked) (st : Option Station) : BookAlone s (s.block r cause st) := by
  unfold State.block State.raiseIf
  split <;> rfl

theorem BookAlone.plan (h : BookAlone s t) : t.plan = s.plan := (congrArg State.plan h :)

/-! ### An order taken in and its gap before (R70, R78, R79) -/

/-- The record of an order as it is taken into the window. -/
def OrderRec.planned (r : OrderRec) (st : Station) : OrderRec := { r with phase := .planned, blocked := .none, station := some st }

/-- The state with an order's record PLANNED, before its gap decision. -/
def State.takeIn (s : State) (r : OrderRec) (st : Station) : State :=
  State.watchQueued s (s.modifyOrder r.fig.id fun r => r.planned st)

theorem takeOrder_form (s : State) (r : OrderRec) (prev : Option PrevFigures) (st : Station) : ∃ hasGap,
    s.takeOrder r prev st = ((((s.takeIn r st).entryGap r prev).1.joinWindow r.fig.id prev st
      ((s.takeIn r st).entryGap r prev).2).countEntered r.fig.id hasGap) := ⟨_, rfl⟩

theorem takeIn_own (h : s.order? r.fig.id = some r) (st : Station) : (s.takeIn r st).order? r.fig.id = some (r.planned st) := by
  unfold State.takeIn State.watchQueued
  rw [order?_congr (raiseIf_book _ _ _)]
  exact order?_modifyOrder (f := fun r => r.planned st) (fun _ => rfl) h

theorem takeIn_bookAlone (s : State) (r : OrderRec) (st : Station) : BookAlone s (s.takeIn r st) := by
  unfold State.takeIn State.watchQueued State.raiseIf
  split <;> rfl

theorem takeIn_untouched (s : State) (r : OrderRec) (st : Station) : Untouched s (s.takeIn r st) :=
  ((Untouched.refl s).modifyOrder r.fig.id (fun r => r.planned st) fun _ => rfl).raiseIf _ _

theorem entryGap_pinning (s : State) (r : OrderRec) (prev : Option PrevFigures) : Pinning s (s.entryGap r prev).1 := by
  cases prev with
  | none => exact .refl s
  | some f =>
    rcases le_or_gt (s.minStart (s.requiredStart f r)) s.plan.w0 with near | far
    · have form : s.entryGap r (some f) = (s, 0) := gapDecision_near near
      rw [form]
      exact .refl s
    · have form : (s.entryGap r (some f)).1 = s.pinLast := congrArg Prod.fst (gapDecision_far far)
      rw [form]
      exact pinLast_pinning s

/-- The first point of the waste grid behind W0 that is not less than W0, L and the last waste cut released (R78, log 12). -/
theorem firstGap_least (h : 0 < s.profile.line.wg) {b : Pos} (start : b = s.plan.w0 + (s.firstGap * s.profile.line.wg : Nat)) :
    max s.knife (max s.plan.w0 s.dry.cursor) ≤ b ∧
    (b = s.plan.w0 ∨ b - s.profile.line.wg < max s.knife (max s.plan.w0 s.dry.cursor)) := by
  have same : max s.knife (max s.plan.w0 s.dry.cursor) = max (s.wasteFloor s.plan.w0) s.knife := max_comm _ _
  obtain ⟨enough, least⟩ := wasteCeil_least h (max (s.wasteFloor s.plan.w0) s.knife - s.plan.w0)
  have form : s.firstGap = wasteCeil (max (s.wasteFloor s.plan.w0) s.knife - s.plan.w0) s.profile.line.wg := rfl
  rw [same, start]
  rw [← form] at enough least
  push_cast
  refine ⟨sub_le_iff_le_add'.mp enough, least.imp (fun none_ => by simp [none_]) fun short => ?_⟩
  rw [sub_mul, one_mul] at short
  have below := lt_sub_iff_add_lt'.mp short
  rw [← add_sub_assoc] at below
  exact below

/-! ### An order joining the window (R70) -/

/-- The record of an order that joins the window behind its gap, before its count. -/
def OrderRec.joined (r : OrderRec) (gap waste : Nat) (p : Pos) : OrderRec :=
  { r with gap := some gap, wasteBefore := waste, p := some p, n := some r.fig.t }

/-- The entry of an order that joins the window. -/
def State.entry (s : State) (id : Nat) (prev : Option PrevFigures) (st : Station) : WindowOrder :=
  { id := id, firstPlaced := prev.isNone, prev := if s.plan.window.isEmpty then prev else none
    gapCuts := s.dry.wasteCuts, swap := s.entrySwap st prev }

/-- The line of an order that joins the window. -/
def State.joinedLine (s : State) (id : Nat) (o : OrderRec) (prev : Option PrevFigures) (st : Station) (waste : Nat) : Line :=
  ⟨s.entry id prev st, o.joined (waste * s.profile.line.wg) waste (s.plan.w0 + (waste * s.profile.line.wg : Nat))⟩

theorem joinWindow_window (s : State) (id : Nat) (prev : Option PrevFigures) (st : Station) (waste : Nat) :
    (s.joinWindow id prev st waste).plan.window = s.plan.window ++ [s.entry id prev st] := rfl

theorem joinWindow_own (h : s.order? id = some o) (prev : Option PrevFigures) (st : Station) (waste : Nat) :
    (s.joinWindow id prev st waste).order? id = some (s.joinedLine id o prev st waste).r :=
  order?_modifyOrder (f := fun r => r.joined (waste * s.profile.line.wg) waste (s.plan.w0 + (waste * s.profile.line.wg : Nat)))
    (fun _ => rfl) h

theorem joinWindow_entry (h : s.windowOrder? id = none) (prev : Option PrevFigures) (st : Station) (waste : Nat) :
    (s.joinWindow id prev st waste).windowOrder? id = some (s.entry id prev st) := by
  unfold State.windowOrder? at *
  rw [joinWindow_window, List.find?_append, h]
  exact List.find?_cons_of_pos (p := fun w : WindowOrder => w.id == id) (a := s.entry id prev st) (beq_self_eq_true id)

/-- The order that has joined has one line. -/
theorem joinWindow_lines (out : s.windowOrder? id = none) (h : s.order? id = some o) (prev : Option PrevFigures) (st : Station)
    (waste : Nat) : ((s.joinWindow id prev st waste).lines.filter fun l => l.w.id == id) = [s.joinedLine id o prev st waste] := by
  have absent := (windowOrder?_none_iff s id).mp out
  unfold State.lines
  rw [joinWindow_window, List.filterMap_append, List.filter_append]
  have before : ((s.plan.window.filterMap fun w => ((s.joinWindow id prev st waste).order? w.id).map (Line.mk w)).filter
      fun l => l.w.id == id) = [] := by
    rw [List.filter_eq_nil_iff]
    intro l held own
    obtain ⟨w, member, line⟩ := List.mem_filterMap.mp held
    obtain ⟨r, -, rfl⟩ := Option.map_eq_some_iff.mp line
    exact absent (beq_iff_eq.mp own ▸ List.mem_map_of_mem (f := fun w : WindowOrder => w.id) member)
  rw [before, List.nil_append, List.filterMap_cons_some (b := s.joinedLine id o prev st waste)]
  · rw [List.filterMap_nil]
    exact List.filter_cons_of_pos (p := fun l : Line => l.w.id == id) (beq_self_eq_true id)
  · exact congrArg (Option.map (Line.mk (s.entry id prev st))) (joinWindow_own h prev st waste)

/-! ### The order that has joined counted (R74, R49) -/

/-- The state with an order's line counted, before the notices of its entry. -/
def State.counted (s : State) (l : Line) : State :=
  (s.writeLines [s.countLine none (s.spansUpTo l.w.id s.lines) l]).followW0

theorem countEntered_form (h : (s.lines.filter fun l => l.w.id == id) = [l]) (own : l.w.id = id) (hasGap : Bool) :
    s.countEntered id hasGap = ((((s.counted l).raiseIf hasGap .gap).raise .planned).startCutting id).replan := by
  unfold State.countEntered State.counted
  rw [h, own]
  rfl

theorem counted_own (isOpen : l.r.pinned = false) (named : l.Named) (h : s.order? l.w.id = some l.r) :
    ∃ n rejects, (s.counted l).order? l.w.id = some { l.r with
        p := some l.start, n := some n, e := some (l.cut n), rejects := some rejects } ∧
      (l.r.n = some l.r.fig.t → l.r.fig.t ≤ n ∧ n ≤ l.r.fig.t + l.r.fig.a) := by
  obtain ⟨spans, form⟩ : ∃ spans, s.countLine none (s.spansUpTo l.w.id s.lines) l =
      s.withSheets spans (l.placedBehind none) (s.sheets spans (l.placedBehind none)) :=
    ⟨_, countLine_open isOpen s none _⟩
  refine ⟨s.sheets spans (l.placedBehind none), s.countRejects spans (l.placedBehind none) (s.sheets spans (l.placedBehind none)),
    ?_, fun least => ?_⟩
  · unfold State.counted
    rw [order?_congr (followW0_book _), writeLines_order?, h, form]
    · have found : ([s.withSheets spans (l.placedBehind none) (s.sheets spans (l.placedBehind none))].find?
          fun m => m.w.id == l.w.id) = some (s.withSheets spans (l.placedBehind none) (s.sheets spans (l.placedBehind none))) :=
        List.find?_cons_of_pos (p := fun m : Line => m.w.id == l.w.id) (beq_self_eq_true l.w.id)
      rw [found]
      rfl
    · intro m held
      rw [List.mem_singleton.mp held, form]
      exact named
  · obtain ⟨low, high, -⟩ := sheets_least (l := l.placedBehind none) s spans (n := l.r.fig.t) least le_rfl (Nat.le_add_right _ _)
    exact ⟨low, high⟩

theorem counted_entry (isOpen : l.r.pinned = false) (h : s.windowOrder? l.w.id = some l.w) :
    (s.counted l).windowOrder? l.w.id = some l.w := by
  have entry : (s.countLine none (s.spansUpTo l.w.id s.lines) l).w = l.w := by
    rw [countLine_open isOpen]
    rfl
  have found : ([s.countLine none (s.spansUpTo l.w.id s.lines) l].find? fun m => m.w.id == l.w.id) =
      some (s.countLine none (s.spansUpTo l.w.id s.lines) l) :=
    List.find?_cons_of_pos (p := fun m : Line => m.w.id == l.w.id) (beq_iff_eq.mpr (congrArg WindowOrder.id entry))
  have follow : (s.counted l).windowOrder? l.w.id =
      (s.writeLines [s.countLine none (s.spansUpTo l.w.id s.lines) l]).windowOrder? l.w.id := by
    unfold State.windowOrder? State.counted
    rw [window_followW0]
  rw [follow, writeLines_windowOrder?, h, found]
  exact congrArg some entry

theorem counted_ids (s : State) (l : Line) :
    ((s.counted l).plan.window.map fun w => w.id) = s.plan.window.map fun w => w.id := by
  unfold State.counted
  rw [window_followW0]
  exact writeLines_ids s _

theorem counted_alone (s : State) (l : Line) : BookAndPlanAlone s (s.counted l) := by
  have written : BookAndPlanAlone s (s.writeLines [s.countLine none (s.spansUpTo l.w.id s.lines) l]) := ⟨rfl⟩
  exact written.trans (followW0_alone _)

/-- The notices of an entry, and the test for CUTTING (R49, R70). -/
def State.announce (s : State) (id : Nat) (hasGap : Bool) : State :=
  (((s.raiseIf hasGap .gap).raise .planned).startCutting id).replan

theorem announce_order? (s : State) (id : Nat) (hasGap : Bool) :
    (s.announce id hasGap).order? id = (s.order? id).map fun r => r.reached s.knife := by
  have raised : ∀ u : State, (u.raise .planned).knife = u.knife ∧ (u.raise .planned).book = u.book := fun u => ⟨rfl, rfl⟩
  have gap : (s.raiseIf hasGap .gap).knife = s.knife := by cases hasGap <;> rfl
  unfold State.announce
  rw [order?_congr (replan_book _), startCutting_order?, (raised _).1, gap, order?_congr (raised _).2, order?_congr (raiseIf_book _ _ _)]
  simp only [if_true]

theorem announce_plan (s : State) (id : Nat) (hasGap : Bool) : (s.announce id hasGap).plan = s.plan := by
  have cut : ∀ u : State, (u.startCutting id).plan = u.plan := fun u => by
    have alone := startCutting_bookAlone u id
    unfold BookAlone at alone
    exact (congrArg State.plan alone :)
  unfold State.announce
  rw [replan_plan, cut]
  cases hasGap <;> rfl

theorem announce_raises (classes : (s.port .planning).classes.length = 12) (h : s.order? id = some r) (hasGap : Bool) :
    ((s.announce id hasGap).port .planning).rawOf 0 = true ∧
    (r.phase = .planned ∧ r.p.getD 0 ≤ s.knife → ((s.announce id hasGap).port .planning).rawOf 3 = true) := by
  have knife : ((s.raiseIf hasGap .gap).raise .planned).knife = s.knife := by cases hasGap <;> rfl
  have gapped := ((Untouched.refl s).raiseIf hasGap .gap).ports .planning
  have twelve := gapped.classCount.trans classes
  have raised := raise_raw (s.raiseIf hasGap .gap) .planned (twelve ▸ (by decide : 0 < 12))
  have record : ((s.raiseIf hasGap .gap).raise .planned).order? id = some r := (order?_congr (raiseIf_book s _ _) id).trans h
  have grows := ((Untouched.refl (s.raiseIf hasGap .gap)).raise .planned).ports .planning
  have cut := ((Untouched.refl ((s.raiseIf hasGap .gap).raise .planned)).startCutting id).ports .planning
  unfold State.announce
  have ports : ∀ u : State, u.replan.port .planning = u.port .planning := fun u => by
    unfold State.port
    rw [replan_ports]
  rw [ports]
  exact ⟨cut.raw 0 raised, fun reached => startCutting_raises record (knife.symm ▸ reached) (grows.classCount.trans twelve)⟩

/-! ### An order taken into the window (R70) -/

theorem entry_first (s : State) (id : Nat) (st : Station) : (s.entry id none st).swap.drop.map SwapRec.station = some .a ∧
    (s.entry id none st).swap.lifts.map SwapRec.station = s.downStations := by
  refine ⟨rfl, ?_⟩
  have lifts : (s.entry id none st).swap.lifts = s.downStations.map fun x => { station := x } := rfl
  rw [lifts, List.map_map]
  exact List.map_id' _

/-- The line of an order as the gap decision leaves it, before its count. -/
def State.takenLine (s : State) (r : OrderRec) (prev : Option PrevFigures) (st : Station) : Line :=
  ((s.takeIn r st).entryGap r prev).1.joinedLine r.fig.id (r.planned st) prev st ((s.takeIn r st).entryGap r prev).2

/-- The record of an order that has entered is that of its line, counted and tried for CUTTING. -/
theorem takeOrder_record (h : s.order? r.fig.id = some r) (out : s.windowOrder? r.fig.id = none) (isOpen : r.pinned = false)
    (prev : Option PrevFigures) (st : Station) : ∃ n rejects o,
      o = { (s.takenLine r prev st).r with
        p := some (s.takenLine r prev st).start, n := some n, e := some ((s.takenLine r prev st).cut n), rejects := some rejects } ∧
      (s.takeOrder r prev st).order? r.fig.id = some (o.reached s.knife) ∧ r.fig.t ≤ n ∧ n ≤ r.fig.t + r.fig.a ∧
      (s.takeOrder r prev st).windowOrder? r.fig.id = some (s.takenLine r prev st).w ∧
      ((s.takeOrder r prev st).plan.window.map fun v => v.id) = (s.plan.window.map fun v => v.id) ++ [r.fig.id] ∧
      ((s.port .planning).classes.length = 12 → ((s.takeOrder r prev st).port .planning).rawOf 0 = true ∧
        (o.phase = .planned ∧ o.p.getD 0 ≤ s.knife → ((s.takeOrder r prev st).port .planning).rawOf 3 = true)) := by
  obtain ⟨hasGap, form⟩ := takeOrder_form s r prev st
  have takenIn := takeIn_bookAlone s r st
  have outside : (s.takeIn r st).windowOrder? r.fig.id = none := by
    unfold State.windowOrder?
    rw [takenIn.plan]
    exact out
  have pins := entryGap_pinning (s.takeIn r st) r prev
  generalize line : s.takenLine r prev st = L
  unfold State.takenLine at line
  have untouched := Untouched.joinWindow (((takeIn_untouched s r st)).entryGap r prev) r.fig.id prev st
    ((s.takeIn r st).entryGap r prev).2
  generalize ((s.takeIn r st).entryGap r prev) = g at form pins line untouched
  obtain ⟨u, waste⟩ := g
  dsimp only at form pins line untouched
  have known : u.order? r.fig.id = some (r.planned st) := (pins.outside _ outside).trans (takeIn_own h st)
  have gone := pins.out outside
  have knife : (u.joinWindow r.fig.id prev st waste).knife = s.knife := by
    have first : u.knife = (s.takeIn r st).knife := (congrArg State.knife pins.frame :)
    exact first.trans takenIn.knife
  have ids : (u.plan.window.map fun w => w.id) = s.plan.window.map fun w => w.id := by
    rw [pins.ids, takenIn.plan]
  have record := joinWindow_own known prev st waste
  have entry := joinWindow_entry gone prev st waste
  have alone := joinWindow_lines gone known prev st waste
  rw [line] at record alone
  have own : L.w.id = r.fig.id := by rw [← line]; rfl
  have named : L.Named := by
    unfold Line.Named
    rw [own, ← line]
    rfl
  have unpinned : L.r.pinned = false := by rw [← line]; exact isOpen
  have least : L.r.n = some L.r.fig.t := by rw [← line]; rfl
  have fig : L.r.fig = r.fig := by rw [← line]; rfl
  have counted := counted_alone (u.joinWindow r.fig.id prev st waste) L
  have countedKnife : ((u.joinWindow r.fig.id prev st waste).counted L).knife = s.knife :=
    (congrArg State.knife counted.frame :).trans knife
  have ports : ((u.joinWindow r.fig.id prev st waste).counted L).port = (u.joinWindow r.fig.id prev st waste).port :=
    (congrArg State.port counted.frame :)
  obtain ⟨n, rejects, final, bounds⟩ := counted_own unpinned named (own ▸ record)
  have stays := counted_entry (s := u.joinWindow r.fig.id prev st waste) (l := L) unpinned
    (by rw [own, entry, ← line]; rfl)
  rw [own] at final stays
  have announced : s.takeOrder r prev st = ((u.joinWindow r.fig.id prev st waste).counted L).announce r.fig.id hasGap :=
    form.trans (countEntered_form alone own hasGap)
  rw [announced]
  refine ⟨n, rejects, _, rfl, ?_, (fig ▸ bounds least).1, (fig ▸ bounds least).2, ?_, ?_, fun classes => ?_⟩
  · rw [announce_order?, final, countedKnife]
    rfl
  · unfold State.windowOrder?
    rw [announce_plan]
    exact stays
  · rw [announce_plan, counted_ids, joinWindow_window, List.map_append, ids]
    rfl
  · have twelve := (untouched.ports .planning).classCount.trans classes
    obtain ⟨zero, three⟩ := announce_raises (ports ▸ twelve) final hasGap
    exact ⟨zero, fun reached => three (countedKnife ▸ reached)⟩

/-! ### The filling of the window (R70) -/

theorem fillOne_full (h : 6 ≤ s.plan.window.length) : s.fillOne = s := if_neg (not_lt.mpr h)

theorem fillOne_none (h : ∀ r ∈ s.book, r.phase ≠ .queued) : s.fillOne = s := by
  have missing : (s.book.find? fun r => r.phase == .queued) = none :=
    List.find?_eq_none.mpr fun r held => mt beq_iff_eq.mp (h r held)
  unfold State.fillOne
  rw [missing]
  exact ite_self s

/-- The filling with the first QUEUED record. -/
theorem fillOne_first {before after : List OrderRec} (room : s.plan.window.length < 6) (book : s.book = before ++ r :: after)
    (first : ∀ x ∈ before, x.phase ≠ .queued) (queued : r.phase = .queued) : s.fillOne =
      if !s.profile.formatPasses r.fig then s.block r .format none
      else if !(s.station (chooseStation s.entryPrev r.fig.layout)).canPlace r.fig.layout then
        s.block r .heads (some (chooseStation s.entryPrev r.fig.layout))
      else s.takeOrder r s.entryPrev (chooseStation s.entryPrev r.fig.layout) := by
  have found : (s.book.find? fun r => r.phase == .queued) = some r := by
    rw [book, List.find?_append, List.find?_eq_none.mpr fun x held => mt beq_iff_eq.mp (first x held)]
    exact List.find?_cons_of_pos (p := fun r : OrderRec => r.phase == .queued) (beq_iff_eq.mpr queued)
  unfold State.fillOne
  rw [found]
  exact if_pos room

theorem reached_same (o : OrderRec) (knife : Pos) : o.reached knife = { o with phase := (o.reached knife).phase } := by
  unfold OrderRec.reached
  split <;> rfl

theorem reached_phase {knife : Pos} (h : o.phase = .planned) :
    (o.reached knife).phase = if o.p.getD 0 ≤ knife then .cutting else .planned := by
  unfold OrderRec.reached
  by_cases reached : o.p.getD 0 ≤ knife
  · rw [if_pos ⟨h, reached⟩, if_pos reached]
  · rw [if_neg fun both => reached both.2, if_neg reached, h]

/-- The gap of an order placed without a predecessor (R78, log 12). -/
theorem entryGap_first (h : 0 < s.profile.line.wg) (r : OrderRec) (st : Station) {b : Pos}
    (start : b = ((s.takeIn r st).entryGap r none).1.plan.w0 + (((s.takeIn r st).entryGap r none).2 * s.profile.line.wg : Nat)) :
    ((s.takeIn r st).entryGap r none).1.plan.w0 = s.plan.w0 ∧ max s.knife (max s.plan.w0 s.dry.cursor) ≤ b ∧
    (b = s.plan.w0 ∨ b - s.profile.line.wg < max s.knife (max s.plan.w0 s.dry.cursor)) := by
  have takenIn := takeIn_bookAlone s r st
  have profile : (s.takeIn r st).profile = s.profile := (congrArg State.profile takenIn :)
  have dry : (s.takeIn r st).dry = s.dry := (congrArg State.dry takenIn :)
  have least := firstGap_least (s := s.takeIn r st) (b := b) (profile ▸ h) (by rw [profile]; exact start)
  rw [takenIn.knife, takenIn.plan, dry, profile] at least
  exact ⟨congrArg Planner.w0 takenIn.plan, least⟩

/-- The figures of an order that has entered, but for its phase: its gap decision's waste, its start behind that, its count. -/
structure State.Entered (s : State) (r : OrderRec) (prev : Option PrevFigures) (st : Station) (n : Nat) (o : OrderRec) : Prop where
  fig : o.fig = r.fig
  blocked : o.blocked = .none
  station : o.station = some st
  waste : o.wasteBefore = ((s.takeIn r st).entryGap r prev).2
  gap : o.gap = some (o.wasteBefore * s.profile.line.wg)
  start : o.p = some (((s.takeIn r st).entryGap r prev).1.plan.w0 +
    (((s.takeIn r st).entryGap r prev).2 * s.profile.line.wg : Nat))
  sheets : o.n = some n
  finish : o.e = some (cutPosition (o.p.getD 0) r.fig.sf n)

theorem entered_of_takenLine (s : State) (r : OrderRec) (prev : Option PrevFigures) (st : Station) (n rejects : Nat) :
    s.Entered r prev st n { (s.takenLine r prev st).r with
      p := some (s.takenLine r prev st).start, n := some n, e := some ((s.takenLine r prev st).cut n), rejects := some rejects } := by
  have profile : ((s.takeIn r st).entryGap r prev).1.profile = s.profile :=
    (entryGap_pinning _ r _).profile.trans (congrArg State.profile (takeIn_bookAlone s r st) :)
  refine ⟨rfl, rfl, rfl, rfl, ?_, ?_, rfl, rfl⟩
  · rw [← profile]
    rfl
  · rw [← profile]
    rfl

theorem State.Entered.reached {n : Nat} (h : s.Entered r prev st n o) (knife : Pos) :
    s.Entered r prev st n (o.reached knife) := by
  rw [reached_same]
  exact ⟨h.fig, h.blocked, h.station, h.waste, h.gap, h.start, h.sheets, h.finish⟩

theorem reached_start (o : OrderRec) (knife : Pos) : (o.reached knife).p = o.p := by rw [reached_same]

theorem filling_rule : Rule.Filling := by
  intro s
  refine ⟨fun h => h.elim fillOne_full fillOne_none,
    fun before after r book first queued isOpen room distinct out => ?_⟩
  have known : s.order? r.fig.id = some r := order?_of_mem distinct.book (by rw [book]; simp)
  have filled := fillOne_first room book first queued
  dsimp only
  generalize chooseStation s.entryPrev r.fig.layout = st at filled ⊢
  refine ⟨fun unfit => ?_, fun format heads => ?_, fun format fits => ?_⟩
  · rw [unfit] at filled
    rw [filled]
    exact ⟨block_own known _ _, fun unblocked classes => block_raises unblocked classes _ _, block_bookAlone s r _ _⟩
  · rw [format, heads] at filled
    rw [filled]
    exact ⟨block_own known _ _, fun unblocked classes => block_raises unblocked classes _ _, block_bookAlone s r _ _⟩
  · rw [format, fits] at filled
    have taken : s.fillOne = s.takeOrder r s.entryPrev st := filled
    obtain ⟨n, rejects, o, form, record, low, high, entry, ids, raised⟩ := takeOrder_record known out isOpen s.entryPrev st
    have planned : o.phase = .planned := by rw [form]; rfl
    have entered := (form ▸ entered_of_takenLine s r s.entryPrev st n rejects : s.Entered r s.entryPrev st n o).reached s.knife
    have phase := reached_phase (knife := s.knife) planned
    rw [taken]
    rw [← reached_start o s.knife] at phase
    refine ⟨_, _, n, record, entry, ids, entered.fig, phase, entered.blocked, entered.station, entered.gap,
      ⟨entered.waste, entered.start, fun prev known => ?_, fun none_ positive b start => ?_⟩, entered.sheets, low, high, entered.finish,
      fun none_ => ?_, fun classes => ⟨(raised classes).1, fun cutting => (raised classes).2 ⟨planned, ?_⟩⟩⟩
    · rw [known]
      rfl
    · rw [entered.start, Option.some_inj] at start
      rw [none_] at start ⊢
      exact entryGap_first positive r st start.symm
    · have swap := entry_first (s.takeIn r st) r.fig.id st
      have down : (s.takeIn r st).downStations = s.downStations := (congrArg State.downStations (takeIn_bookAlone s r st) :)
      rw [down] at swap
      rw [none_]
      exact swap
    · by_contra waits
      rw [reached_start, if_neg waits] at phase
      cases phase.symm.trans cutting

/-- Settles O51, one rule for each of the planner's acts. -/
theorem provisionalExtensionStaysWithinTheAllowance : Obligations.ProvisionalExtensionStaysWithinTheAllowance :=
  ⟨provisionalExtension_rule, rejectCount_rule, pin_rule, gapDecision_rule, freeCountAndFloor_rule, triggers_rule, filling_rule,
    swaps_rule⟩

end Sys2Proof.Machine
end

section
/-! PROOF. The three requests that take: Read Station Changes, Take Actions and Take Tool Moves (R86, R135, R161), and O40. -/

namespace Sys2Proof.Machine

variable {s : State} {i : Instr}

/-- A request that its rule carries out behind its reply, making no act due: the change is the whole of what follows. -/
theorem exec_done_quiet {p : Port} {kind : Nat} {tag : Byte} {load payload : List Byte} {after : State → State}
    (h : requestFrame i = some ⟨p, kind, tag, load⟩) (heard : Heard s p kind) (v : verdictOf i s = .done payload id after)
    (quiet : s.work = []) (idle : ∀ u : State, (after u).work = u.work) :
    exec i s = .next (after (s.withFrame p (doneFrame kind tag payload))) := by
  rw [exec_done h heard v]
  exact congrArg _ (settled_nil _ ((idle _).trans ((withFrame_work s p _).trans quiet)))

/-! ### Take Actions (R161) -/

/-- Among elements of distinct keys, those whose key is none of the first `n` are the ones behind them. -/
theorem filter_beyond_take {α : Type} {key : α → Nat} {l : List α} (distinct : (l.map key).Nodup) (n : Nat) :
    (l.filter fun x => !((l.take n).map key).contains (key x)) = l.drop n := by
  rw [← List.take_append_drop n l, List.map_append, List.nodup_append] at distinct
  obtain ⟨-, -, apart⟩ := distinct
  conv_lhs => rw [← List.take_append_drop n l, List.filter_append]
  have front : ((l.take n).filter fun x => !(((l.take n ++ l.drop n).take n).map key).contains (key x)) = [] := by
    rw [List.take_append_drop]
    refine List.filter_eq_nil_iff.mpr fun x held => ?_
    simpa using List.mem_map_of_mem (f := key) held
  have behind : ((l.drop n).filter fun x => !(((l.take n ++ l.drop n).take n).map key).contains (key x)) = l.drop n := by
    rw [List.take_append_drop]
    refine List.filter_eq_self.mpr fun x held => ?_
    have absent : key x ∉ (l.take n).map key := fun same =>
      apart _ same _ (List.mem_map_of_mem held) rfl
    simpa using absent
  rw [front, behind, List.nil_append]

/-- A record becomes taken when its number is among those given (R161). -/
def ActionRec.takeIn (qs : List Nat) (r : ActionRec) : ActionRec := if qs.contains r.sequence then { r with taken := true } else r

theorem DryList.take_released (d : DryList) :
    d.take.released = d.released.map (ActionRec.takeIn (d.toTake.map ActionRec.sequence)) := rfl

theorem takeIn_taken (qs : List Nat) (r : ActionRec) : (r.takeIn qs).taken = (r.taken || qs.contains r.sequence) := by
  unfold ActionRec.takeIn
  split
  · next given => rw [given, Bool.or_true]
  · next other => rw [Bool.eq_false_iff.mpr other, Bool.or_false]

/-- What is untaken behind a take was untaken before and is not given; it stands as it did. -/
theorem takeIn_untaken (qs : List Nat) (l : List ActionRec) :
    ((l.map (ActionRec.takeIn qs)).filter fun r => !r.taken) =
      (l.filter fun r => !r.taken).filter fun r => !qs.contains r.sequence := by
  have untaken : (fun r : ActionRec => !r.taken) ∘ ActionRec.takeIn qs = fun r => !qs.contains r.sequence && !r.taken :=
    funext fun r => by rw [Function.comp_apply, takeIn_taken, Bool.not_or, Bool.and_comm]
  rw [List.filter_map, List.filter_filter, untaken]
  refine (List.map_congr_left fun r kept => if_neg fun given => ?_).trans (List.map_id' _)
  have free := (List.mem_filter.mp kept).2
  rw [given] at free
  cases free

/-- The records given are no longer untaken, and all others stay as they are. -/
theorem take_untaken {d : DryList} (distinct : (d.released.map ActionRec.sequence).Nodup) :
    (d.take.released.filter fun r => !r.taken) = (d.released.filter fun r => !r.taken).drop 4 := by
  rw [DryList.take_released, takeIn_untaken]
  exact filter_beyond_take (distinct.sublist (List.filter_sublist.map _)) 4

/-- Taking changes the taken bits alone. -/
theorem take_bits (d : DryList) : d.take.released.map (fun (r : ActionRec) => { r with taken := true }) =
    d.released.map fun (r : ActionRec) => { r with taken := true } := by
  rw [DryList.take_released, List.map_map]
  refine List.map_congr_left fun r _ => ?_
  rw [Function.comp_apply, ActionRec.takeIn]
  split <;> rfl

/-! ### Take Tool Moves (R135) -/

theorem takeFirst_untaken (n : Nat) (ms : List MoveEntry) :
    ((takeFirst n ms).filter fun m => !m.taken) = (ms.filter fun m => !m.taken).drop n := by
  induction n, ms using takeFirst.induct with
  | case1 ms => simp [takeFirst]
  | case2 n => simp [takeFirst]
  | case3 n m ms taken ih => simp [takeFirst, taken, ih]
  | case4 n m ms untaken ih => simp [takeFirst, untaken, ih]

theorem takeFirst_bits (n : Nat) (ms : List MoveEntry) : (takeFirst n ms).map (fun (m : MoveEntry) => { m with taken := true }) =
    ms.map fun (m : MoveEntry) => { m with taken := true } := by
  induction n, ms using takeFirst.induct with
  | case1 ms => simp [takeFirst]
  | case2 n => simp [takeFirst]
  | case3 n m ms taken ih => simp [takeFirst, taken, ih]
  | case4 n m ms untaken ih => simp [takeFirst, untaken, ih]

/-- Settles O40. -/
theorem takesGiveAndMark : Obligations.TakesGiveAndMark := by
  refine fun p tag s quiet => ⟨fun heard => ?_, fun heard distinct =>
      ⟨State.takeActions (s.withFrame p _), ?_, rfl, take_untaken distinct, take_bits s.dry, rfl⟩,
    fun heard => ⟨State.takeToolMoves (s.withFrame p _), ?_, rfl, takeFirst_untaken 6 s.slitter.moves,
      takeFirst_bits 6 s.slitter.moves⟩⟩
  · exact exec_done_quiet (i := .readStationChanges p tag) (after := State.takeChanges) rfl heard rfl quiet fun _ => rfl
  · exact exec_done_quiet (i := .takeActions p tag) (after := State.takeActions) rfl heard rfl quiet fun _ => rfl
  · exact exec_done_quiet (i := .takeToolMoves p tag) (after := State.takeToolMoves) rfl heard rfl quiet fun _ => rfl

end Sys2Proof.Machine
end

section
/-! PROOF. The pending plan (R71, R72, R78, R88, R147, R154), release order (R156) and the sequence numbers (R155). -/

namespace Sys2Proof.Machine

variable {s t : State} {l : Line} {p x y z : PendingRec}

/-! ### Pending LIFTs and DROPs (R88, R147) -/

/-- The pending record of a swap record that is placed at a point of the plan. -/
def State.pendingMove (s : State) (source : Source) (kind : ActionKind) (order : Nat) (place : Pos) (r : SwapRec) : PendingRec :=
  { kind := kind, source := source, position := place - s.stationDistance r.station, order := order
    station := some r.station, overrun := r.overrun }

theorem mem_swapRecs_iff (s : State) (source : Source) (kind : ActionKind) (order : Nat) (place : Pos) (rs : List SwapRec)
    (p : PendingRec) : p ∈ s.swapRecs source kind order place rs ↔
      ∃ r ∈ rs, r.status = .pending ∧ p = s.pendingMove source kind order place r := by
  unfold State.swapRecs
  rw [List.mem_map]
  constructor
  · rintro ⟨r, kept, rfl⟩
    obtain ⟨held, pending⟩ := List.mem_filter.mp kept
    exact ⟨r, held, eq_of_beq pending, rfl⟩
  · rintro ⟨r, held, pending, rfl⟩
    exact ⟨r, List.mem_filter.mpr ⟨held, beq_iff_eq.mpr pending⟩, rfl⟩

theorem mem_moveRecs (s : State) (l : Line) (p : PendingRec) : p ∈ s.moveRecs l ↔
    (∃ r ∈ l.w.swap.lifts, r.status = .pending ∧ p = s.pendingMove .swap .lift l.w.id l.start r) ∨
    (∃ r, l.w.swap.drop = some r ∧ r.status = .pending ∧ p = s.pendingMove .swap .drop l.w.id l.start r) ∨
    ∃ pair, l.w.replan = some pair ∧
      ((∃ r, pair.lift = some r ∧ r.status = .pending ∧ p = s.pendingMove .replan .lift l.w.id pair.x r) ∨
        (pair.drop.status = .pending ∧ p = s.pendingMove .replan .drop l.w.id pair.x pair.drop)) := by
  unfold State.moveRecs
  cases l.w.replan with
  | none => simp [mem_swapRecs_iff]
  | some pair => simp [mem_swapRecs_iff]

theorem pendingMoves_rule : Rule.PendingMoves := mem_moveRecs

/-- The records of a line's swaps are LIFTs and DROPs, of its order and none of its cuts. -/
theorem moveRec_facts (h : p ∈ s.moveRecs l) : p.order = l.w.id ∧ p.kind ≠ .cut ∧ p.source ≠ .cuts := by
  rcases (mem_moveRecs s l p).mp h with ⟨r, -, -, rfl⟩ | ⟨r, -, -, rfl⟩ | ⟨pair, -, ⟨r, -, -, rfl⟩ | ⟨-, rfl⟩⟩ <;>
    exact ⟨rfl, nofun, nofun⟩

/-! ### The pending plan (R71, R72, R78, R154) -/

theorem mem_gapRec (s : State) (l : Line) (p : PendingRec) : p ∈ s.gapRec l ↔ l.w.gapCuts < l.r.wasteBefore ∧ p =
    { kind := .cut, source := .gap, order := l.w.id
      position := l.start - (l.r.gap.getD 0 : Nat) + ((l.w.gapCuts : Int) + 1) * s.profile.line.wg } := by
  unfold State.gapRec
  split
  · next more => simp [more]
  · next none => simp [none]

theorem mem_cutRec (l : Line) (p : PendingRec) : p ∈ l.cutRec ↔ l.w.cuts < l.r.n.getD 0 ∧ p =
    { kind := .cut, source := .cuts, order := l.w.id, sheet := some (l.w.cuts + 1)
      position := cutPosition l.start l.r.fig.sf (l.w.cuts + 1) } := by
  unfold Line.cutRec
  split
  · next more => simp [more, Line.cut]
  · next none => simp [none]

theorem wasteRec_eq (s : State) : s.wasteRec =
    { kind := .cut, source := .waste, order := 0
      position := s.plan.w0 + ((s.dry.wasteCuts : Int) + 1) * s.profile.line.wg } := by
  unfold State.wasteRec
  push_cast
  rfl

theorem candidates_setup (h : s.part = .setup) : s.candidates = [] := if_neg (by simp [State.tracking, h])

theorem candidates_tracking (h : p ∈ s.candidates) : s.part = .tracking := by
  cases part : s.part with
  | setup => rw [candidates_setup part] at h; cases h
  | tracking => rfl

theorem mem_candidates (tracking : s.part = .tracking) (p : PendingRec) : p ∈ s.candidates ↔
    (∃ x ∈ s.dry.strays, p = x.pendingRec) ∨ (∃ l ∈ s.lines, p ∈ s.moveRecs l) ∨ (∃ l ∈ s.lines, p ∈ s.gapRec l) ∨
      (∃ l ∈ s.lines, p ∈ l.cutRec) ∨ p = s.wasteRec := by
  have form : s.candidates = s.dry.strays.map StrayLift.pendingRec ++
      s.lines.flatMap (fun l => s.moveRecs l ++ s.gapRec l ++ l.cutRec) ++ [s.wasteRec] :=
    if_pos (by simp [State.tracking, tracking])
  simp only [form, List.mem_append, List.mem_map, List.mem_flatMap, List.mem_singleton, and_or_left, exists_or, or_assoc,
    eq_comm (b := p)]

theorem pendingPlan_rule : Rule.PendingPlan := by
  intro s p wg
  refine ⟨candidates_setup, fun tracking => ?_⟩
  rw [mem_candidates tracking]
  simp only [mem_gapRec, mem_cutRec, wasteRec_eq]
  rfl

/-- A cut of the pending plan names no station. -/
theorem candidate_station (h : p ∈ s.candidates) (cut : p.kind = .cut) : p.station = none := by
  rcases (mem_candidates (candidates_tracking h) p).mp h with
    ⟨x, -, rfl⟩ | ⟨l, -, move⟩ | ⟨l, -, gap⟩ | ⟨l, -, own⟩ | rfl
  · cases cut
  · obtain ⟨-, kind, -⟩ := moveRec_facts move
    exact absurd cut kind
  · rw [((mem_gapRec s l p).mp gap).2]
  · rw [((mem_cutRec l p).mp own).2]
  · rfl

/-- A cut of an order is one of an order that the window holds. -/
theorem candidate_line (h : p ∈ s.candidates) (own : p.source = .cuts) : ∃ l ∈ s.lines, l.w.id = p.order := by
  rcases (mem_candidates (candidates_tracking h) p).mp h with
    ⟨x, -, rfl⟩ | ⟨l, -, move⟩ | ⟨l, -, gap⟩ | ⟨l, held, cut⟩ | rfl
  · cases own
  · obtain ⟨-, -, source⟩ := moveRec_facts move
    exact absurd own source
  · rw [((mem_gapRec s l p).mp gap).2] at own; cases own
  · exact ⟨l, held, by rw [((mem_cutRec l p).mp cut).2]⟩
  · cases own

/-- What a pending plan is made of is neither in the map nor in the ports nor in the acts due. -/
theorem candidates_mapAlone (h : MapAlone s t) : t.candidates = s.candidates := by
  unfold MapAlone at h
  rw [← h]
  rfl

/-! ### Release order (R156) -/

theorem after_iff (x y : PendingRec) : x.after y = true ↔ y.position < x.position ∨ (x.position = y.position ∧
    (y.kind.rank < x.kind.rank ∨ (x.kind.rank = y.kind.rank ∧ x.station = some .b ∧ y.station = some .a))) := by
  unfold PendingRec.after
  by_cases place : x.position = y.position
  · by_cases rank : x.kind.rank = y.kind.rank
    · simp [place, rank]
    · simp [place, rank]
  · simp [place]

theorem after_irrefl (x : PendingRec) : x.after x = false := by
  rw [Bool.eq_false_iff, Ne, after_iff]
  rintro (h | ⟨-, h | ⟨-, b, a⟩⟩)
  · exact lt_irrefl _ h
  · exact lt_irrefl _ h
  · rw [a] at b; cases b

theorem after_trans (h : x.after y = true) (k : y.after z = true) : x.after z = true := by
  rw [after_iff] at *
  have apart : ¬ (y.station = some .b ∧ y.station = some .a) := fun ⟨b, a⟩ => by rw [a] at b; cases b
  grind

/-- Of two records the fold keeps the one that comes first. -/
def PendingRec.earlier (m y : PendingRec) : PendingRec := if m.after y then y else m

theorem earlier_cases (x y : PendingRec) :
    (x.earlier y = x ∧ x.after y = false) ∨ (x.earlier y = y ∧ x.after y = true) := by
  unfold PendingRec.earlier
  cases x.after y with
  | false => exact .inl ⟨rfl, rfl⟩
  | true => exact .inr ⟨rfl, rfl⟩

/-- Nothing comes before a record that comes before one that it does not come before. -/
theorem after_false_of (back : y = x ∨ x.after y = true) (h : x.after z = false) : y.after z = false := by
  rcases back with rfl | before
  · exact h
  · rw [Bool.eq_false_iff]
    exact fun later => Bool.false_ne_true (h.symm.trans (after_trans before later))

/-- The fold ends at one of the records, at or before the one it begins with, and none of them comes before it. -/
theorem foldl_earlier (x : PendingRec) (xs : List PendingRec) :
    (xs.foldl PendingRec.earlier x = x ∨ x.after (xs.foldl PendingRec.earlier x) = true) ∧
    xs.foldl PendingRec.earlier x ∈ x :: xs ∧ ∀ y ∈ x :: xs, (xs.foldl PendingRec.earlier x).after y = false := by
  induction xs generalizing x with
  | nil => exact ⟨.inl rfl, List.mem_cons_self, fun y held => List.mem_singleton.mp held ▸ after_irrefl x⟩
  | cons v xs ih =>
    obtain ⟨back, held, first⟩ := ih (x.earlier v)
    rw [List.foldl_cons]
    generalize xs.foldl PendingRec.earlier (x.earlier v) = r at back held first
    rcases earlier_cases x v with ⟨kept, notBefore⟩ | ⟨moved, before⟩
    · rw [kept] at back held first
      refine ⟨back, ?_, fun y mem => ?_⟩
      · exact (List.mem_cons.mp held).elim (fun own => own ▸ List.mem_cons_self)
          fun later => List.mem_cons_of_mem _ (List.mem_cons_of_mem _ later)
      · rcases List.mem_cons.mp mem with rfl | mem
        · exact first _ List.mem_cons_self
        · rcases List.mem_cons.mp mem with rfl | mem
          · exact after_false_of back notBefore
          · exact first y (List.mem_cons_of_mem _ mem)
    · rw [moved] at back held first
      have behind : x.after r = true := back.elim (fun same => same ▸ before) (after_trans before)
      refine ⟨.inr behind, List.mem_cons_of_mem _ held, fun y mem => ?_⟩
      rcases List.mem_cons.mp mem with rfl | mem
      · exact after_false_of (.inr behind) (after_irrefl _)
      · exact first y mem

theorem firstOf_mem {ps : List PendingRec} (h : firstOf ps = some p) : p ∈ ps ∧ ∀ y ∈ ps, p.after y = false := by
  cases ps with
  | nil => cases h
  | cons x xs =>
    obtain ⟨-, held, first⟩ := foldl_earlier x xs
    cases h
    exact ⟨held, first⟩

theorem rank_le_iff (k m : ActionKind) : k.rank ≤ m.rank ↔ k = .lift ∨ (k = .drop ∧ m ≠ .lift) ∨ m = .cut := by
  cases k <;> cases m <;> decide

theorem releaseOrder_rule : Rule.ReleaseOrder := by
  refine fun ps p h => ⟨(firstOf_mem h).1, fun y held => ?_⟩
  have notAfter := (firstOf_mem h).2 y held
  rw [Bool.eq_false_iff, Ne, after_iff, not_or, not_and, not_or, not_lt, not_lt] at notAfter
  obtain ⟨near, level⟩ := notAfter
  rcases lt_or_eq_of_le near with before | same
  · exact .inl before
  · obtain ⟨rank, stations⟩ := level same
    exact .inr ⟨same, (rank_le_iff _ _).mp rank, fun kind both => stations ⟨congrArg _ kind, both⟩⟩

/-! ### Sequence numbers (R155) -/

/-- A record as a release gives it out: with the number that is next, and untaken (R155, R156). -/
def State.numbered (s : State) (r : ActionRec) : ActionRec := { r with sequence := s.dry.sequence, taken := false }

theorem joinReleased_dry (s : State) (r : ActionRec) :
    (s.joinReleased r).dry = { s.dry.advance with released := s.dry.released ++ [s.numbered r] } := by
  unfold State.joinReleased State.raiseIf
  dsimp only
  split <;> rfl

theorem advance_last {d : DryList} (h : d.sequence = 4294967295) : d.advance = { d with sequence := 1, wrapped := true } :=
  if_pos h

theorem advance_next {d : DryList} (h : d.sequence ≠ 4294967295) : d.advance = { d with sequence := d.sequence + 1 } :=
  if_neg h

/-- The counter's advance leaves the rest of the Dry Action List alone. -/
theorem advance_eq (d : DryList) : d.advance = { d with sequence := d.advance.sequence, wrapped := d.advance.wrapped } := by
  by_cases last : d.sequence = 4294967295
  · rw [advance_last last]
  · rw [advance_next last]

theorem sequenceCounter_rule : Rule.SequenceCounter := by
  intro s r t
  have dry : t.dry = _ := joinReleased_dry s r
  rw [dry]
  refine ⟨rfl, fun last => ?_, fun more => ?_⟩
  · rw [advance_last last]
    exact ⟨rfl, rfl⟩
  · rw [advance_next more]
    exact ⟨rfl, rfl⟩

theorem numbersGivenOut_rule : Rule.NumbersGivenOut := by
  intro d q positive
  have below : q < d.sequence ↔ q ≤ d.sequence - 1 := by omega
  unfold DryList.givenOut
  simp only [Bool.or_eq_true, Bool.and_eq_true, decide_eq_true_eq, below]

/-- The sequence counter stands, with its wrapped flag. -/
def CounterKept (s t : State) : Prop := t.dry.sequence = s.dry.sequence ∧ t.dry.wrapped = s.dry.wrapped

theorem CounterKept.trans {u : State} (h : CounterKept s t) (k : CounterKept t u) : CounterKept s u :=
  ⟨k.1.trans h.1, k.2.trans h.2⟩

theorem clearLineVerdict_keepsCounter (s : State) : (clearLineVerdict s).Does CounterKept := by
  unfold clearLineVerdict
  split
  · refine .done (fun _ => ⟨rfl, rfl⟩) fun u => ?_
    obtain ⟨-, -, -, dry, -⟩ := clearLine_blocks u
    exact ⟨(congrArg DryList.sequence dry :), (congrArg DryList.wrapped dry :)⟩
  · exact .no _

theorem releaseLineVerdict_keepsCounter (s : State) : (releaseLineVerdict s).Does CounterKept := by
  unfold releaseLineVerdict
  split
  · exact .no _
  · split
    · exact .refuse _ _
    · exact .done (fun _ => ⟨rfl, rfl⟩) fun _ => ⟨rfl, rfl⟩

theorem takeRequest_counter {v : Verdict} (h : v.Does CounterKept) (s : State) (port : Port) (tag : Byte) (kind : Nat) :
    CounterKept s (s.takeRequest port tag kind v) :=
  State.takeRequest_does CounterKept.trans ⟨rfl, rfl⟩ (fun _ _ => ⟨rfl, rfl⟩) h

/-- A request's row out of reset: the request is taken, and the acts follow (R180). -/
theorem exec_takes {i : Instr} {port : Port} {kind : Nat} {tag : Byte} {load : List Byte}
    (h : requestFrame i = some ⟨port, kind, tag, load⟩) (running : s.resetAsserted = false) :
    exec i s = .next (s.takeRequest port tag kind (verdictOf i s)).settled := by
  have asserted : i ≠ .resetAssert := by rintro rfl; cases h
  have released : ∀ v, i ≠ .resetRelease v := by rintro v rfl; cases h
  rw [exec_settles i s asserted released running, actOf_request i s h]

theorem sequenceAcrossStates_rule : Rule.SequenceAcrossStates := by
  intro port tag s running
  obtain ⟨clearSequence, clearWrapped⟩ := takeRequest_counter (clearLineVerdict_keepsCounter s) s port tag 0x09
  obtain ⟨releaseSequence, releaseWrapped⟩ := takeRequest_counter (releaseLineVerdict_keepsCounter s) s port tag 0x08
  exact ⟨_, _, exec_takes (i := .clearLine port tag) rfl running, exec_takes (i := .releaseLine port tag) rfl running,
    clearSequence, clearWrapped, releaseSequence, releaseWrapped⟩

end Sys2Proof.Machine
end

section
/-! PROOF. The release test (R156 to R159): the record of a released cut, LIFT or DROP, and what its release leaves. -/

namespace Sys2Proof.Machine

variable {s t u : State} {p : PendingRec} {st : Station} {w : WindowOrder} {r : OrderRec} {c : ActionRec}

/-! ### What a release leaves alone -/

/-- Nothing but the Dry Action List, the plan, the ports and the acts due has changed. -/
def DryAlone (s t : State) : Prop := { t with dry := s.dry, plan := s.plan, ports := s.ports, work := s.work } = s

theorem DryAlone.refl (s : State) : DryAlone s s := rfl

theorem DryAlone.trans (h : DryAlone s t) (k : DryAlone t u) : DryAlone s u := by
  unfold DryAlone at *
  calc ({ u with dry := s.dry, plan := s.plan, ports := s.ports, work := s.work } : State)
      = { { u with dry := t.dry, plan := t.plan, ports := t.ports, work := t.work } with
          dry := s.dry, plan := s.plan, ports := s.ports, work := s.work } := rfl
    _ = { t with dry := s.dry, plan := s.plan, ports := s.ports, work := s.work } := by rw [k]
    _ = s := h

theorem DryAlone.part (h : DryAlone s t) : t.part = s.part := (congrArg State.part h :)

theorem replan_dryAlone (s : State) : DryAlone s s.replan := by
  rcases s.replan_eq with e | e <;> rw [e] <;> rfl

theorem replan_dry (s : State) : s.replan.dry = s.dry := (replan_mapAlone s).dry

theorem joinReleased_dryAlone (s : State) (c : ActionRec) : DryAlone s (s.joinReleased c) := by
  unfold State.joinReleased State.raiseIf
  dsimp only
  split <;> rfl

theorem joinReleased_plan (s : State) (c : ActionRec) : (s.joinReleased c).plan = s.plan := by
  unfold State.joinReleased State.raiseIf
  dsimp only
  split <;> rfl

theorem joinReleased_work (s : State) (c : ActionRec) : (s.joinReleased c).work = s.work := raiseIf_work _ _ _

/-- A record that joins where every other is taken raises ACTIONS_READY (R160). -/
theorem joinReleased_raises (taken : ∀ x ∈ s.dry.released, x.taken = true) (classes : (s.port .dry).classes.length = 10)
    (c : ActionRec) : ((s.joinReleased c).port .dry).rawOf 0 = true := by
  have first : (s.dry.untaken == 0) = true := by
    unfold DryList.untaken
    rw [List.filter_eq_nil_iff.mpr fun x held => by simp [taken x held]]
    rfl
  unfold State.joinReleased
  rw [first]
  exact raise_raw { s with dry := _ } .actionsReady (classes.symm ▸ (by decide : 0 < 10))

/-! ### A record of the window changed, and a cut that leaves the pending plan -/

/-- The window's entry of an order changed. -/
theorem modifyWindow_own {id : Nat} {f : WindowOrder → WindowOrder} (keeps : ∀ w, (f w).id = w.id)
    (h : s.windowOrder? id = some w) : (s.modifyWindow id f).windowOrder? id = some (f w) := by
  rw [modifyWindow_windowOrder? s id id keeps, h, Option.map_some, if_pos (beq_iff_eq.mpr (windowOrder?_id h))]

theorem passCut_dryAlone (s : State) (p : PendingRec) : DryAlone s (s.passCut p) := by
  unfold State.passCut
  split <;> rfl

theorem passCut_ports (s : State) (p : PendingRec) : (s.passCut p).ports = s.ports := by
  unfold State.passCut
  split <;> rfl

theorem passCut_work (s : State) (p : PendingRec) : (s.passCut p).work = s.work := by
  unfold State.passCut
  split <;> rfl

/-- Of the Dry Action List a cut that passes changes the count of the waste cuts beyond W0 alone (R71). -/
theorem passCut_dry (s : State) (p : PendingRec) : (s.passCut p).dry =
    { s.dry with wasteCuts := if p.source = .waste then s.dry.wasteCuts + 1 else s.dry.wasteCuts } := by
  unfold State.passCut
  cases p.source <;> rfl

theorem passCut_gap (source : p.source = .gap) (h : s.windowOrder? p.order = some w) :
    (s.passCut p).windowOrder? p.order = some { w with gapCuts := w.gapCuts + 1 } := by
  unfold State.passCut
  rw [source]
  exact modifyWindow_own (fun _ => rfl) h

theorem passCut_cuts (source : p.source = .cuts) (h : s.windowOrder? p.order = some w) :
    (s.passCut p).windowOrder? p.order = some { w with cuts := w.cuts + 1 } := by
  unfold State.passCut
  rw [source]
  exact modifyWindow_own (fun _ => rfl) h

/-! ### The record that a cut's release makes (R158, R159) -/

/-- A waste cut, and a cut of a cancelled order, is WASTE. -/
theorem dispose_waste (h : p.source ≠ .cuts ∨ ∃ r, s.order? p.order = some r ∧ r.phase = .cancelled) :
    s.dispose p = (.waste, [], false) := by
  refine if_pos ?_
  rw [Bool.or_eq_true]
  rcases h with other | ⟨r, known, cancelled⟩
  · exact .inl (bne_iff_ne.mpr other)
  · exact .inr (by rw [known, Option.map_some, cancelled]; rfl)

/-- Any other cut is a REJECT when it ends a merged sheet or one that the map spoils, and GOOD when it does neither. -/
theorem dispose_running (source : p.source = .cuts) (known : s.order? p.order = some r) (runs : r.phase ≠ .cancelled) :
    s.dispose p =
      if s.dry.merge = true then (.reject, s.causesOver s.dry.cursor p.position, true)
      else if s.overlapped s.dry.cursor p.position = true then (.reject, s.causesOver s.dry.cursor p.position, false)
      else (.good, [], false) := by
  refine if_neg ?_
  rw [source, known, Option.map_some, Option.getD_some, beq_eq_false_iff_ne.mpr runs]
  nofun

/-- A cut's record as it is given out. -/
def State.cutReleased (s : State) (p : PendingRec) : ActionRec := s.numbered (s.cutAction p)

theorem cutReleased_disposed (s : State) (p : PendingRec) : (s.cutReleased p).disposition = some (s.dispose p).1 ∧
    (s.cutReleased p).merged = (s.dispose p).2.2 ∧ (s.cutReleased p).causes = (s.dispose p).2.1 := ⟨rfl, rfl, rfl⟩

theorem cutReleased_waste (h : p.source ≠ .cuts ∨ ∃ r, s.order? p.order = some r ∧ r.phase = .cancelled) :
    (s.cutReleased p).disposition = some .waste ∧ (s.cutReleased p).merged = false ∧ (s.cutReleased p).causes = [] := by
  have disposed := cutReleased_disposed s p
  rwa [dispose_waste h] at disposed

theorem cutReleased_running (source : p.source = .cuts) (known : s.order? p.order = some r) (runs : r.phase ≠ .cancelled) :
    (s.dry.merge = true → (s.cutReleased p).disposition = some .reject ∧ (s.cutReleased p).merged = true ∧
      (s.cutReleased p).causes = s.causesOver s.dry.cursor p.position) ∧
    (s.dry.merge = false → s.overlapped s.dry.cursor p.position = true → (s.cutReleased p).disposition = some .reject ∧
      (s.cutReleased p).merged = false ∧ (s.cutReleased p).causes = s.causesOver s.dry.cursor p.position) ∧
    (s.dry.merge = false → s.overlapped s.dry.cursor p.position = false → (s.cutReleased p).disposition = some .good ∧
      (s.cutReleased p).merged = false ∧ (s.cutReleased p).causes = []) := by
  have disposed := cutReleased_disposed s p
  rw [dispose_running source known runs] at disposed
  refine ⟨fun merge => ?_, fun merge spoiled => ?_, fun merge sound => ?_⟩
  · rwa [if_pos merge] at disposed
  · rwa [if_neg (ne_true_of_eq_false merge), if_pos spoiled] at disposed
  · rwa [if_neg (ne_true_of_eq_false merge), if_neg (ne_true_of_eq_false sound)] at disposed

theorem cutReleased_lastOfOrder (source : p.source = .cuts) (known : s.order? p.order = some r) :
    (s.cutReleased p).lastOfOrder = true ↔ p.sheet = r.n := by
  change (p.source == .cuts && p.sheet == (s.order? p.order).bind OrderRec.n) = true ↔ _
  rw [source, known]
  exact beq_iff_eq

/-- A GOOD sheet has its place in its stack. -/
theorem cutReleased_good (window : s.windowOrder? p.order = some w) (known : s.order? p.order = some r)
    (good : (s.cutReleased p).disposition = some .good) :
    (s.cutReleased p).stackNumber = some w.stackNumber ∧ (s.cutReleased p).sheetInStack = some (w.stackCount + 1) ∧
    ((s.cutReleased p).lastOfStack = true ↔ r.fig.q ≤ w.stackCount + 1) := by
  have good : (s.dispose p).1 = .good := Option.some.inj good
  unfold State.cutReleased State.numbered State.cutAction
  dsimp only
  rw [good, window, known]
  exact ⟨rfl, rfl, decide_eq_true_iff⟩

/-- No other sheet has one. -/
theorem cutReleased_spoiled (h : (s.cutReleased p).disposition ≠ some .good) :
    (s.cutReleased p).stackNumber = none ∧ (s.cutReleased p).sheetInStack = none ∧ (s.cutReleased p).lastOfStack = false := by
  have spoiled : ((s.dispose p).1 == .good) = false := beq_eq_false_iff_ne.mpr fun e => h (congrArg some e)
  unfold State.cutReleased State.numbered State.cutAction
  dsimp only
  rw [spoiled]
  exact ⟨rfl, rfl, rfl⟩

/-! ### The stack of an order (R159) -/

theorem releaseCut_cuts (w : WindowOrder) (d : Disposition) (q : Nat) :
    (w.releaseCut d q).id = w.id ∧ (w.releaseCut d q).cuts = w.cuts ∧ (w.releaseCut d q).rejectsOverrun = w.rejectsOverrun ∧
    (w.releaseCut d q).rejectsReleased = if d = .reject then w.rejectsReleased + 1 else w.rejectsReleased := by
  cases d with
  | good => unfold WindowOrder.releaseCut; dsimp only; split <;> exact ⟨rfl, rfl, rfl, rfl⟩
  | reject => exact ⟨rfl, rfl, rfl, rfl⟩
  | waste => exact ⟨rfl, rfl, rfl, rfl⟩

theorem releaseCut_spoiled (w : WindowOrder) {d : Disposition} (h : d ≠ .good) (q : Nat) :
    (w.releaseCut d q).stackNumber = w.stackNumber ∧ (w.releaseCut d q).stackCount = w.stackCount := by
  cases d with
  | good => exact absurd rfl h
  | reject => exact ⟨rfl, rfl⟩
  | waste => exact ⟨rfl, rfl⟩

theorem releaseCut_full {q : Nat} (h : q ≤ w.stackCount + 1) :
    (w.releaseCut .good q) = { w with stackNumber := w.stackNumber + 1, stackCount := 0 } := if_pos h

theorem releaseCut_grows {q : Nat} (h : ¬ q ≤ w.stackCount + 1) :
    (w.releaseCut .good q) = { w with stackCount := w.stackCount + 1 } := if_neg h

/-! ### A cut released -/

/-- A cut's record joined, the release cursor moved on, and no sheet to merge any more (R158). -/
def State.cutJoined (s : State) (p : PendingRec) : State :=
  { s.joinReleased (s.cutAction p) with
    dry := { (s.joinReleased (s.cutAction p)).dry with cursor := p.position, merge := false } }

/-- A cut joined, with the counts and the stack of its order (R159, R73). -/
def State.cutStacked (s : State) (p : PendingRec) : State :=
  if p.source == .cuts then
    (s.cutJoined p).modifyWindow p.order fun w =>
      w.releaseCut (s.dispose p).1 (((s.order? p.order).map fun r => r.fig.q).getD 1)
  else s.cutJoined p

theorem releaseCut_form (s : State) (p : PendingRec) :
    s.releaseCut p = ((s.cutStacked p).passCut p).replan.push [.release] := rfl

theorem cutStacked_dryAlone (s : State) (p : PendingRec) : DryAlone s (s.cutStacked p) := by
  have joined : DryAlone s (s.cutJoined p) := joinReleased_dryAlone s (s.cutAction p)
  unfold State.cutStacked
  split
  · exact joined
  · exact joined

theorem cutStacked_dry (s : State) (p : PendingRec) : (s.cutStacked p).dry = { s.dry.advance with
    released := s.dry.released ++ [s.cutReleased p], cursor := p.position, merge := false } := by
  have joined : (s.cutJoined p).dry = { (s.joinReleased (s.cutAction p)).dry with cursor := p.position, merge := false } := rfl
  rw [joinReleased_dry] at joined
  unfold State.cutStacked
  split
  · exact joined
  · exact joined

theorem cutStacked_ports (s : State) (p : PendingRec) : (s.cutStacked p).ports = (s.joinReleased (s.cutAction p)).ports := by
  unfold State.cutStacked
  split <;> rfl

theorem cutStacked_work (s : State) (p : PendingRec) : (s.cutStacked p).work = s.work := by
  have joined : (s.cutJoined p).work = s.work := joinReleased_work s (s.cutAction p)
  unfold State.cutStacked
  split
  · exact joined
  · exact joined

theorem cutJoined_windowOrder? (s : State) (p : PendingRec) (id : Nat) : (s.cutJoined p).windowOrder? id = s.windowOrder? id :=
  windowOrder?_congr (t := s.cutJoined p) (joinReleased_plan s (s.cutAction p)) id

theorem releaseCut_dryAlone (s : State) (p : PendingRec) : DryAlone s (s.releaseCut p) :=
  ((cutStacked_dryAlone s p).trans (passCut_dryAlone _ p)).trans (replan_dryAlone _)

theorem releaseCut_dry (s : State) (p : PendingRec) : (s.releaseCut p).dry = { s.dry.advance with
    released := s.dry.released ++ [s.cutReleased p], cursor := p.position, merge := false
    wasteCuts := if p.source = .waste then s.dry.wasteCuts + 1 else s.dry.wasteCuts } := by
  have counted : s.dry.advance.wasteCuts = s.dry.wasteCuts := by rw [advance_eq]
  rw [releaseCut_form]
  change ((s.cutStacked p).passCut p).replan.dry = _
  rw [replan_dry, passCut_dry, cutStacked_dry, counted]

theorem releaseCut_ports (s : State) (p : PendingRec) : (s.releaseCut p).ports = (s.joinReleased (s.cutAction p)).ports := by
  rw [releaseCut_form]
  change ((s.cutStacked p).passCut p).replan.ports = _
  rw [replan_ports, passCut_ports, cutStacked_ports]

theorem releaseCut_work (tracking : s.part = .tracking) (p : PendingRec) :
    (s.releaseCut p).work = s.work ++ [.recompute, .release] := by
  have part : ((s.cutStacked p).passCut p).part = .tracking :=
    ((cutStacked_dryAlone s p).trans (passCut_dryAlone _ p)).part.trans tracking
  rw [releaseCut_form, State.work_push, replan_work_tracking part, passCut_work, cutStacked_work, List.append_assoc]
  rfl

theorem releaseCut_windowOrder? (s : State) (p : PendingRec) (id : Nat) :
    (s.releaseCut p).windowOrder? id = ((s.cutStacked p).passCut p).windowOrder? id :=
  windowOrder?_congr (t := s.releaseCut p) (replan_plan _) id

theorem releaseCut_gap (source : p.source = .gap) (h : s.windowOrder? p.order = some w) :
    (s.releaseCut p).windowOrder? p.order = some { w with gapCuts := w.gapCuts + 1 } := by
  have stacked : s.cutStacked p = s.cutJoined p := if_neg (by rw [source]; nofun)
  rw [releaseCut_windowOrder?, stacked]
  exact passCut_gap source ((cutJoined_windowOrder? s p _).trans h)

theorem releaseCut_own (source : p.source = .cuts) (h : s.windowOrder? p.order = some w) (known : s.order? p.order = some r) :
    (s.releaseCut p).windowOrder? p.order = some { w.releaseCut (s.dispose p).1 r.fig.q with
      cuts := (w.releaseCut (s.dispose p).1 r.fig.q).cuts + 1 } := by
  have stacked : s.cutStacked p = (s.cutJoined p).modifyWindow p.order fun w => w.releaseCut (s.dispose p).1 r.fig.q := by
    refine (if_pos (beq_iff_eq.mpr source)).trans ?_
    rw [known]
    rfl
  rw [releaseCut_windowOrder?, stacked]
  exact passCut_cuts source (modifyWindow_own (fun v => (releaseCut_cuts v _ _).1) ((cutJoined_windowOrder? s p _).trans h))

/-- What a released cut leaves of its order's entry: one cut more, and the stack as its disposition has it (R159, R73). -/
theorem releaseCut_stack (source : p.source = .cuts) (h : s.windowOrder? p.order = some w) (known : s.order? p.order = some r) :
    ∃ v, (s.releaseCut p).windowOrder? p.order = some v ∧ v.cuts = w.cuts + 1 ∧ v.rejectsOverrun = w.rejectsOverrun ∧
      v.rejectsReleased =
        (if (s.cutReleased p).disposition = some .reject then w.rejectsReleased + 1 else w.rejectsReleased) ∧
      ((s.cutReleased p).disposition ≠ some .good → v.stackNumber = w.stackNumber ∧ v.stackCount = w.stackCount) ∧
      ((s.cutReleased p).lastOfStack = true → v.stackNumber = w.stackNumber + 1 ∧ v.stackCount = 0) ∧
      ((s.cutReleased p).disposition = some .good → (s.cutReleased p).lastOfStack = false →
        v.stackNumber = w.stackNumber ∧ v.stackCount = w.stackCount + 1) := by
  have disposed := (cutReleased_disposed s p).1
  obtain ⟨-, cuts, overrun, released⟩ := releaseCut_cuts w (s.dispose p).1 r.fig.q
  refine ⟨_, releaseCut_own source h known, congrArg (· + 1) cuts, overrun, ?_, fun spoiled => ?_, fun last => ?_,
    fun good more => ?_⟩
  · refine released.trans ?_
    rw [disposed]
    simp only [Option.some.injEq]
  · exact releaseCut_spoiled w (fun e => spoiled (disposed.trans (congrArg some e))) _
  · have good : (s.cutReleased p).disposition = some .good := by
      by_contra spoiled
      obtain ⟨-, -, notLast⟩ := cutReleased_spoiled spoiled
      rw [notLast] at last
      cases last
    obtain ⟨-, -, lastIff⟩ := cutReleased_good h known good
    have full := lastIff.mp last
    rw [Option.some.inj (disposed.symm.trans good), releaseCut_full full]
    exact ⟨rfl, rfl⟩
  · obtain ⟨-, -, lastIff⟩ := cutReleased_good h known good
    have room := mt lastIff.mpr (ne_true_of_eq_false more)
    rw [Option.some.inj (disposed.symm.trans good), releaseCut_grows room]
    exact ⟨rfl, rfl⟩

/-! ### A LIFT or DROP released (R157) -/

/-- The record that a LIFT's or DROP's release makes. -/
def State.moveAction (s : State) (p : PendingRec) : ActionRec :=
  { kind := p.kind, sequence := 0, position := p.position, deadline := s.deadline p.position
    station := p.station, order := p.order }

theorem releaseMove_dryAlone (s : State) (p : PendingRec) : DryAlone s (s.releaseMove p) :=
  joinReleased_dryAlone s (s.moveAction p)

theorem releaseMove_dry (s : State) (p : PendingRec) : (s.releaseMove p).dry = { s.dry.advance with
    released := s.dry.released ++ [s.numbered (s.moveAction p)]
    strays := s.dry.strays.filter fun x => x.pendingRec != p } := by
  have form : (s.releaseMove p).dry = { (s.joinReleased (s.moveAction p)).dry with
      strays := (s.joinReleased (s.moveAction p)).dry.strays.filter fun x => x.pendingRec != p } := rfl
  rw [form, joinReleased_dry, advance_eq]

theorem releaseMove_work (s : State) (p : PendingRec) : (s.releaseMove p).work = s.work ++ [.release] :=
  congrArg (· ++ [Task.release]) (joinReleased_work s (s.moveAction p))

theorem gateMove_released (h : p.kind = .lift ∨ (p.kind = .drop ∧ p.station = some st ∧ s.readyFor st p.order = true)) :
    s.gateMove p = s.releaseMove p := by
  unfold State.gateMove
  rcases h with lift | ⟨drop, station, ready⟩
  · rw [lift]
  · rw [drop, station]
    exact if_pos ready

theorem gateMove_late (drop : p.kind = .drop) (station : p.station = some st) (h : s.readyFor st p.order = false) :
    s.gateMove p = (s.takeLateSwap st p.order (p.source == .replan)).push [.release] := by
  unfold State.gateMove
  rw [drop, station]
  exact if_neg (ne_true_of_eq_false h)

/-! ### The test (R156, R157) -/

theorem mayRelease_iff (s : State) (p : PendingRec) : s.mayRelease p = true ↔
    p.position ≤ s.knife + s.profile.line.h ∧ p.position ≤ 2 ^ 40 - 1 ∧ s.dry.released.length < 16 := by
  unfold State.mayRelease
  simp only [Bool.and_eq_true, decide_eq_true_eq, and_assoc]
  rfl

theorem releaseTest_waits (first : firstOf s.candidates = some p) (h : ¬ s.mayRelease p = true) : s.releaseTest = s := by
  unfold State.releaseTest
  rw [first]
  exact if_neg h

theorem releaseTest_cut (first : firstOf s.candidates = some p) (may : s.mayRelease p = true) (cut : p.kind = .cut) :
    s.releaseTest = if s.finalOpen p then (s.pinEnd p.order).push [.release] else s.releaseCut p := by
  unfold State.releaseTest
  rw [first]
  dsimp only
  rw [if_pos may, cut]

theorem releaseTest_move (first : firstOf s.candidates = some p) (may : s.mayRelease p = true) (move : p.kind ≠ .cut) :
    s.releaseTest = if s.startOpen p.order then (s.pinStart p.order).push [.release] else s.gateMove p := by
  unfold State.releaseTest
  rw [first]
  dsimp only
  rw [if_pos may]
  cases kind : p.kind with
  | cut => exact absurd kind move
  | lift => rfl
  | drop => rfl

/-- A record joins the released set, with what its pending record gives it. -/
def State.Joins (s t : State) (p : PendingRec) (c : ActionRec) : Prop :=
  t.dry.released = s.dry.released ++ [c] ∧ c.sequence = s.dry.sequence ∧ c.taken = false ∧
    c.kind = p.kind ∧ c.position = p.position ∧ c.deadline = max p.position s.knife + (s.profile.line.execTolerance : Int) ∧
    c.station = p.station ∧
    ((∀ x ∈ s.dry.released, x.taken = true) → (s.port .dry).classes.length = 10 → (t.port .dry).rawOf 0 = true)

theorem releaseCut_joins (cut : p.kind = .cut) (station : p.station = none) : s.Joins (s.releaseCut p) p (s.cutReleased p) := by
  refine ⟨congrArg DryList.released (releaseCut_dry s p), rfl, rfl, cut.symm, rfl, rfl, station.symm, fun taken classes => ?_⟩
  have port : (s.releaseCut p).port .dry = (s.joinReleased (s.cutAction p)).port .dry :=
    congrArg (PerPort.get · .dry) (releaseCut_ports s p)
  rw [port]
  exact joinReleased_raises taken classes _

theorem releaseMove_joins (s : State) (p : PendingRec) : s.Joins (s.releaseMove p) p (s.numbered (s.moveAction p)) :=
  ⟨congrArg DryList.released (releaseMove_dry s p), rfl, rfl, rfl, rfl, rfl, rfl, fun taken classes =>
    joinReleased_raises taken classes (s.moveAction p)⟩

theorem releaseTest_rule : Rule.ReleaseTest := by
  intro s p first t may deadline joins
  have held := (firstOf_mem first).1
  have tracking := candidates_tracking held
  refine ⟨fun waits => releaseTest_waits first (mt (mayRelease_iff s p).mp waits), fun now cut pins => ?_,
    fun now move pins => ?_, fun now cut pinned => ?_, fun st now station pinned gate => ?_,
    fun st now drop station pinned late => ?_⟩
  · exact (releaseTest_cut first ((mayRelease_iff s p).mpr now) cut).trans (if_pos pins)
  · exact (releaseTest_move first ((mayRelease_iff s p).mpr now) move).trans (if_pos pins)
  · have form : t = s.releaseCut p :=
      (releaseTest_cut first ((mayRelease_iff s p).mpr now) cut).trans (if_neg (ne_true_of_eq_false pinned))
    have dry := releaseCut_dry s p
    have joined : s.Joins t p (s.cutReleased p) := form ▸ releaseCut_joins cut (candidate_station held cut)
    refine ⟨s.cutReleased p, joined, ?_⟩
    rw [form]
    refine ⟨rfl, rfl, ?_, congrArg DryList.cursor dry, congrArg DryList.merge dry, releaseCut_work tracking p,
      congrArg DryList.wasteCuts dry, fun w source => releaseCut_gap source, cutReleased_waste, fun r w source known window => ?_,
      releaseCut_dryAlone s p⟩
    · exact ite_congr (beq_iff_eq (a := p.source)).eq (fun _ => rfl) fun _ => rfl
    · exact ⟨cutReleased_running source known, cutReleased_lastOfOrder source known, cutReleased_good window known,
        cutReleased_spoiled, releaseCut_stack source window known⟩
  · have move : p.kind ≠ .cut := fun cut => by rw [candidate_station held cut] at station; cases station
    have form : t = s.releaseMove p :=
      ((releaseTest_move first ((mayRelease_iff s p).mpr now) move).trans (if_neg (ne_true_of_eq_false pinned))).trans
        (gateMove_released (gate.imp_right fun ⟨drop, ready⟩ => ⟨drop, station, ready⟩))
    have cursor : s.dry.advance.cursor = s.dry.cursor := by rw [advance_eq]
    have joined : s.Joins t p (s.numbered (s.moveAction p)) := form ▸ releaseMove_joins s p
    refine ⟨_, joined, ?_⟩
    rw [form]
    exact ⟨rfl, (congrArg DryList.cursor (releaseMove_dry s p)).trans cursor, releaseMove_work s p,
      releaseMove_dryAlone s p⟩
  · have move : p.kind ≠ .cut := by rw [drop]; nofun
    exact ((releaseTest_move first ((mayRelease_iff s p).mpr now) move).trans (if_neg (ne_true_of_eq_false pinned))).trans
      (gateMove_late drop station late)

end Sys2Proof.Machine
end

section
/-! PROOF. Settles O41: records whose deadline passes (R164), overruns (R165 to R167), with the rules of the files before. -/

namespace Sys2Proof.Machine

variable {s t u : State} {p : PendingRec} {st : Station} {w : WindowOrder} {o : OrderRec} {r : ActionRec} {id : Nat}

/-! ### A released record declared unconfirmed (R164) -/

theorem moveStation_drop (kind : r.kind = .drop) (station : r.station = some st) : s.moveStation r = s.dropStation st := by
  unfold State.moveStation
  rw [kind, station]

theorem moveStation_lift (kind : r.kind = .lift) (station : r.station = some st) : s.moveStation r = s.liftStation st := by
  unfold State.moveStation
  rw [kind, station]

theorem moveStation_dry (s : State) (r : ActionRec) : (s.moveStation r).dry = s.dry := by
  unfold State.moveStation
  split
  · exact (dropStation_cases _ _).1
  · exact liftStation_dry _ _
  · rfl

/-- A DOWN station that is lifted is DOWN no more (R144). -/
theorem liftStation_raised (down : (s.station st).state = .down) : ((s.liftStation st).station st).state ≠ .down := by
  obtain ⟨-, -, idle, setup⟩ := liftStation_down down
  cases demand : (s.station st).demand with
  | none => rw [idle demand]; nofun
  | some d => exact (setup d demand).1

/-- An order's counts with one unconfirmed cut more (R59). -/
def OrderCounts.addUnconfirmed (c : OrderCounts) : OrderCounts := { c with unconfirmed := bump c.unconfirmed }

/-- A record taken from the released set without a report: a cut is counted, a station is moved (R164). -/
def State.unconfirmed (s : State) (r : ActionRec) : State :=
  if r.kind == .cut then (s.dropReleased r.sequence).countOrder r.order OrderCounts.addUnconfirmed
  else (s.dropReleased r.sequence).moveStation r

theorem unconfirmed_cut (h : r.kind = .cut) :
    s.unconfirmed r = (s.dropReleased r.sequence).countOrder r.order OrderCounts.addUnconfirmed := if_pos (beq_iff_eq.mpr h)

theorem unconfirmed_move (h : r.kind ≠ .cut) : s.unconfirmed r = (s.dropReleased r.sequence).moveStation r :=
  if_neg (mt beq_iff_eq.mp h)

theorem unconfirmed_dry (s : State) (r : ActionRec) : (s.unconfirmed r).dry = (s.dropReleased r.sequence).dry := by
  by_cases cut : r.kind = .cut
  · rw [unconfirmed_cut cut, countOrder_frame]
  · rw [unconfirmed_move cut]
    exact moveStation_dry _ r

theorem unconfirmed_untouched (s : State) (r : ActionRec) : Untouched s (s.unconfirmed r) := by
  unfold State.unconfirmed
  split
  · exact ((Untouched.refl s).dropReleased _).countOrder _ _
  · exact ((Untouched.refl s).dropReleased _).moveStation _

theorem declare_none (h : ∀ x ∈ s.dry.released, s.knife ≤ x.deadline) : s.declare = s := by
  have none : (s.dry.released.find? fun x => x.deadline < s.knife) = none :=
    List.find?_eq_none.mpr fun x held => by simpa using h x held
  unfold State.declare
  rw [none]

theorem declare_first {before after : List ActionRec} (released : s.dry.released = before ++ r :: after)
    (early : ∀ x ∈ before, s.knife ≤ x.deadline) (late : r.deadline < s.knife) :
    s.declare = ((s.unconfirmed r).raise .actionUnconfirmed).push (afterRemoval r ++ [.declare]) := by
  have found : (s.dry.released.find? fun x => x.deadline < s.knife) = some r := by
    rw [released]
    exact List.find?_eq_some_iff_append.mpr
      ⟨decide_eq_true late, before, after, rfl, fun x held => by simpa using early x held⟩
  unfold State.declare
  rw [found]
  rfl

/-- A notice raised at last, before acts are made due, has its raw flag set. -/
theorem rawOf_push_raise (grown : Untouched s u) (n : Notice) (acts : List Task)
    (room : n.number < (s.port n.port).classes.length) : (((u.raise n).push acts).port n.port).rawOf n.number = true :=
  raise_raw u n ((grown.ports n.port).classCount.symm ▸ room)

theorem declareTest_rule : Rule.DeclareTest := by
  intro s t
  refine ⟨declare_none, fun before after r released early late => ?_⟩
  have form : t = ((s.unconfirmed r).raise .actionUnconfirmed).push (afterRemoval r ++ [.declare]) :=
    declare_first released early late
  rw [form]
  refine ⟨unconfirmed_dry s r, fun classes => ?_, fun cut => ?_, fun st drop station => ?_, fun st lift station up => ?_,
    fun st lift station down => ?_⟩
  · exact rawOf_push_raise (unconfirmed_untouched s r) .actionUnconfirmed _ (classes.symm ▸ (by decide : 2 < 10))
  · have book := unconfirmed_cut (s := s) cut
    have frame : s.unconfirmed r = { s.dropReleased r.sequence with book := (s.unconfirmed r).book } := by
      rw [book]
      exact countOrder_frame _ _ _
    refine ⟨?_, fun gone => ?_, fun w o window known => ?_, ?_⟩
    · have work : (s.unconfirmed r).work = s.work := (congrArg State.work frame :)
      change (s.unconfirmed r).work ++ (afterRemoval r ++ [.declare]) = _
      rw [work, afterRemoval_cut cut]
      simp
    · exact (congrArg State.book (book.trans (countOrder_left _ gone)) :)
    · refine ⟨_, (congrArg (State.order? · r.order) book).trans (countOrder_held _ window known), rfl, rfl, rfl⟩
    · exact (congrArg (fun v : State => { v with dry := s.dry, book := s.book, ports := s.ports, work := s.work }) frame :)
  · have moved := (unconfirmed_move (s := s) (by rw [drop]; nofun)).trans (moveStation_drop drop station)
    obtain ⟨-, down, -⟩ := dropStation_cases (s.dropReleased r.sequence) st
    exact (congrArg (fun v : State => (v.station st).state) moved).trans down
  · have moved := (unconfirmed_move (s := s) (by rw [lift]; nofun)).trans (moveStation_lift lift station)
    exact (congrArg State.slitter (moved.trans (liftStation_up up)) :)
  · have moved := (unconfirmed_move (s := s) (by rw [lift]; nofun)).trans (moveStation_lift lift station)
    change ((s.unconfirmed r).station st).state ≠ .down
    rw [moved]
    exact liftStation_raised down

/-! ### A cut dropped (R166) -/

/-- An order's counts with one dropped cut more (R59). -/
def OrderCounts.addDropped (c : OrderCounts) : OrderCounts := { c with dropped := bump c.dropped }

/-- A window order with one cut more dropped at an overrun (R73). -/
def WindowOrder.addOverrun (w : WindowOrder) : WindowOrder := { w with rejectsOverrun := w.rejectsOverrun + 1 }

/-- A cut that passes unreleased, counted as dropped where it is an order's (R166). -/
def State.cutDropped (s : State) (p : PendingRec) : State :=
  if p.source == .cuts then
    ((s.passCut p).countOrder p.order OrderCounts.addDropped).modifyWindow p.order WindowOrder.addOverrun
  else s.passCut p

/-- The merged sheet grows (R166). -/
def State.mergeOn (s : State) : State := { s with dry := { s.dry with merge := true } }

theorem dropCut_form (s : State) (p : PendingRec) : s.dropCut p =
    (s.cutDropped p).mergeOn.replan.push (if p.source == .cuts then [.close p.order] else []) := rfl

theorem cutDropped_other (h : p.source ≠ .cuts) : s.cutDropped p = s.passCut p := if_neg (mt beq_iff_eq.mp h)

theorem cutDropped_own (h : p.source = .cuts) : s.cutDropped p =
    ((s.passCut p).countOrder p.order OrderCounts.addDropped).modifyWindow p.order WindowOrder.addOverrun :=
  if_pos (beq_iff_eq.mpr h)

/-- Of the state a dropped cut changes its order, its order's place in the window, and the Dry Action List. -/
theorem cutDropped_frame (s : State) (p : PendingRec) :
    { s.cutDropped p with book := s.book, plan := s.plan, dry := s.dry } = s := by
  have passed : { s.passCut p with book := s.book, plan := s.plan, dry := s.dry } = s := by
    unfold State.passCut
    cases p.source <;> rfl
  by_cases own : p.source = .cuts
  · rw [cutDropped_own own, countOrder_frame]
    exact passed
  · rw [cutDropped_other own]
    exact passed

theorem cutDropped_dry (s : State) (p : PendingRec) : (s.cutDropped p).dry =
    { s.dry with wasteCuts := if p.source = .waste then s.dry.wasteCuts + 1 else s.dry.wasteCuts } := by
  by_cases own : p.source = .cuts
  · rw [cutDropped_own own, countOrder_frame]
    exact passCut_dry s p
  · rw [cutDropped_other own]
    exact passCut_dry s p

theorem dropCut_dry (s : State) (p : PendingRec) : (s.dropCut p).dry =
    { s.dry with merge := true, wasteCuts := if p.source = .waste then s.dry.wasteCuts + 1 else s.dry.wasteCuts } := by
  have merged : (s.cutDropped p).mergeOn.dry = { (s.cutDropped p).dry with merge := true } := rfl
  rw [cutDropped_dry] at merged
  exact (replan_dry _).trans merged

theorem dropCut_map (s : State) (p : PendingRec) : (s.dropCut p).map = s.map :=
  (replan_map _).trans (congrArg State.map (cutDropped_frame s p) :)

theorem dropCut_book (s : State) (p : PendingRec) : (s.dropCut p).book = (s.cutDropped p).book := replan_book _

theorem dropCut_plan (s : State) (p : PendingRec) : (s.dropCut p).plan = (s.cutDropped p).plan := replan_plan _

theorem dropCut_work (tracking : s.part = .tracking) (p : PendingRec) :
    (s.dropCut p).work = s.work ++ [.recompute] ++ if p.source = .cuts then [.close p.order] else [] := by
  have part : (s.cutDropped p).mergeOn.part = .tracking := (congrArg State.part (cutDropped_frame s p) :).trans tracking
  have work : (s.cutDropped p).mergeOn.work = s.work := (congrArg State.work (cutDropped_frame s p) :)
  rw [dropCut_form, State.work_push, replan_work_tracking part, work]
  simp only [beq_iff_eq]

theorem passCut_book (s : State) (p : PendingRec) : (s.passCut p).book = s.book := by
  unfold State.passCut
  cases p.source <;> rfl

theorem dropCut_book_other (h : p.source ≠ .cuts) (s : State) : (s.dropCut p).book = s.book := by
  rw [dropCut_book, cutDropped_other h, passCut_book]

theorem dropCut_gap (source : p.source = .gap) (h : s.windowOrder? p.order = some w) :
    (s.dropCut p).windowOrder? p.order = some { w with gapCuts := w.gapCuts + 1 } := by
  rw [windowOrder?_congr (dropCut_plan s p), cutDropped_other (by rw [source]; nofun)]
  exact passCut_gap source h

/-- A dropped cut of an order: it counts as dropped and as a reject, and the next cut of the order takes its place (R166). -/
theorem dropCut_own (source : p.source = .cuts) (h : s.windowOrder? p.order = some w) (known : s.order? p.order = some o) :
    (s.dropCut p).order? p.order = some (o.recount OrderCounts.addDropped) ∧
    (s.dropCut p).windowOrder? p.order = some { w with cuts := w.cuts + 1, rejectsOverrun := w.rejectsOverrun + 1 } := by
  have passed := passCut_cuts source h
  rw [order?_congr (dropCut_book s p), windowOrder?_congr (dropCut_plan s p), cutDropped_own source]
  constructor
  · exact countOrder_held _ passed ((order?_congr (passCut_book s p) _).trans known)
  · refine modifyWindow_own (f := WindowOrder.addOverrun) (fun _ => rfl)
      ((windowOrder?_congr (s := s.passCut p) ?_ _).trans passed)
    rw [countOrder_frame]

/-! ### The end of a final cut's order pinned before it is dropped (R76, R166) -/

theorem modifyWindow_ids {f : WindowOrder → WindowOrder} (keeps : ∀ w, (f w).id = w.id) (s : State) (id : Nat) :
    ((s.modifyWindow id f).plan.window.map fun w => w.id) = s.plan.window.map fun w => w.id := by
  unfold State.modifyWindow
  rw [List.map_map]
  refine List.map_congr_left fun w _ => ?_
  rw [Function.comp_apply]
  split
  · exact keeps w
  · rfl

theorem passCut_ids (s : State) (p : PendingRec) :
    ((s.passCut p).plan.window.map fun w => w.id) = s.plan.window.map fun w => w.id := by
  unfold State.passCut
  cases p.source with
  | gap => exact modifyWindow_ids (f := fun w => { w with gapCuts := w.gapCuts + 1 }) (fun _ => rfl) s p.order
  | cuts => exact modifyWindow_ids (f := fun w => { w with cuts := w.cuts + 1 }) (fun _ => rfl) s p.order
  | waste => rfl
  | swap => rfl
  | replan => rfl
  | stray => rfl

theorem dropCut_ids (s : State) (p : PendingRec) :
    ((s.dropCut p).plan.window.map fun w => w.id) = s.plan.window.map fun w => w.id := by
  rw [dropCut_plan]
  by_cases own : p.source = .cuts
  · rw [cutDropped_own own, modifyWindow_ids (f := WindowOrder.addOverrun) fun _ => rfl, countOrder_frame]
    exact passCut_ids s p
  · rw [cutDropped_other own]
    exact passCut_ids s p

/-- Counting an order changes no end state. -/
theorem countOrder_pinned (s : State) (id k : Nat) (f : OrderCounts → OrderCounts) :
    ((s.countOrder id f).order? k).map OrderRec.pinned = (s.order? k).map OrderRec.pinned := by
  have unmoved : ((fun r : OrderRec => r.fig.id == k) ∘ fun r => if r.fig.id == id then r.recount f else r) =
      fun r => r.fig.id == k := by
    funext r
    rw [Function.comp_apply]
    split <;> rfl
  have firm : (OrderRec.pinned ∘ fun r => if r.fig.id == id then r.recount f else r) = OrderRec.pinned := by
    funext r
    rw [Function.comp_apply]
    split <;> rfl
  unfold State.countOrder
  split
  · unfold State.order? State.modifyOrder
    rw [List.find?_map, unmoved, Option.map_map, firm]
  · rfl

theorem dropCut_pinned (s : State) (p : PendingRec) (id : Nat) :
    ((s.dropCut p).order? id).map OrderRec.pinned = (s.order? id).map OrderRec.pinned := by
  rw [order?_congr (dropCut_book s p)]
  by_cases own : p.source = .cuts
  · rw [cutDropped_own own]
    exact (countOrder_pinned (s.passCut p) p.order id _).trans (congrArg _ (order?_congr (passCut_book s p) id))
  · rw [cutDropped_other own, order?_congr (passCut_book s p)]

/-- Which ends are PINNED rests on the window's ids and the end states of the book. -/
theorem pinnedThrough_congr (ids : (t.plan.window.map fun w => w.id) = s.plan.window.map fun w => w.id)
    (pinned : ∀ k, (t.order? k).map OrderRec.pinned = (s.order? k).map OrderRec.pinned) (h : s.pinnedThrough id) :
    t.pinnedThrough id := by
  rintro before w rest window rfl v through r known
  rw [window, List.map_append, List.map_cons] at ids
  obtain ⟨front, back, split, fronts, backs⟩ := List.map_eq_append_iff.mp ids.symm
  obtain ⟨x, rest', rfl, same, -⟩ := List.map_eq_cons_iff.mp backs
  have early : v.id ∈ (front ++ [x]).map fun w => w.id := by
    rw [List.map_append, fronts, List.map_singleton, same, ← List.map_singleton, ← List.map_append]
    exact List.mem_map_of_mem (f := fun w : WindowOrder => w.id) through
  obtain ⟨y, held, own⟩ := List.mem_map.mp early
  have standing := pinned v.id
  rw [known, ← own] at standing
  obtain ⟨o, found, same'⟩ := Option.map_eq_some_iff.mp standing.symm
  rw [← same']
  exact h front x rest' split same y held o found

/-! ### A LIFT that L has passed (R167) -/

/-- A LIFT that has outlasted its order's place in the window, marked when it is the one that L has passed (R167). -/
def StrayLift.markOverrun (x : StrayLift) (p : PendingRec) : StrayLift :=
  if x.pendingRec = p then { x with overrun := true } else x

/-- A LIFT marked overrun in the pending plan (R167). -/
def State.markOverrun (s : State) (p : PendingRec) : State :=
  State.modifyWindow { s with dry := { s.dry with strays := s.dry.strays.map fun x => x.markOverrun p } } p.order
    fun w => w.markOverrun p

theorem overrunLift_up (h : (s.station st).state ≠ .down) : s.overrunLift p st = s.markOverrun p :=
  if_neg (mt beq_iff_eq.mp h)

theorem overrunLift_down (h : (s.station st).state = .down) : s.overrunLift p st =
    (s.markOverrun p).insertExtent (.opened (p.position + s.stationDistance st) .toolLost (.toolLost st)) :=
  if_pos (beq_iff_eq.mpr h)

theorem overrunLift_mapAlone (s : State) (p : PendingRec) (st : Station) : MapAlone (s.markOverrun p) (s.overrunLift p st) := by
  by_cases down : (s.station st).state = .down
  · rw [overrunLift_down down]
    exact insertExtent_mapAlone _ _
  · rw [overrunLift_up down]
    exact .refl _

theorem markOverrun_id (w : WindowOrder) (p : PendingRec) : (w.markOverrun p).id = w.id := by
  unfold WindowOrder.markOverrun
  cases p.source <;> rfl

/-- A pending LIFT's swap record is marked. -/
theorem markOverrun_rec {r : SwapRec} (station : p.station = some r.station) (pending : r.status = .pending) :
    (if some r.station == p.station && r.status == .pending then { r with overrun := true } else r) =
      { r with overrun := true } := if_pos (by rw [station, pending]; simp)

/-- The LIFT of a replanned pair is marked in its pair. -/
theorem markOverrun_replan {pair : Replan} {r : SwapRec} (replan : w.replan = some pair) (planned : pair.lift = some r)
    (source : p.source = .replan) (station : p.station = some r.station) (pending : r.status = .pending) :
    (w.markOverrun p).replan = some { pair with lift := some { r with overrun := true } } := by
  unfold WindowOrder.markOverrun
  rw [source]
  dsimp only
  rw [replan, Option.map_some, planned, Option.map_some, markOverrun_rec station pending]

/-- A line of the window stands in it with its LIFT marked. -/
theorem markOverrun_line {l : Line} (h : l ∈ s.lines) (own : p.order = l.w.id) :
    (⟨l.w.markOverrun p, l.r⟩ : Line) ∈ (s.markOverrun p).lines := by
  obtain ⟨held, known⟩ := (mem_lines s l).mp h
  refine (mem_lines _ _).mpr ⟨List.mem_map.mpr ⟨l.w, held, if_pos (beq_iff_eq.mpr own.symm)⟩, ?_⟩
  exact (congrArg s.order? (markOverrun_id l.w p)).trans known

/-- A LIFT of the pending plan stands in it with its mark (R167). -/
theorem markOverrun_candidate (h : p ∈ s.candidates) (lift : p.kind = .lift) :
    { p with overrun := true } ∈ (s.markOverrun p).candidates := by
  have tracking := candidates_tracking h
  rw [mem_candidates (s := s.markOverrun p) tracking]
  rcases (mem_candidates tracking p).mp h with
    ⟨x, held, rfl⟩ | ⟨l, held, move⟩ | ⟨l, -, gap⟩ | ⟨l, -, own⟩ | rfl
  · exact .inl ⟨{ x with overrun := true }, List.mem_map.mpr ⟨x, held, if_pos rfl⟩, rfl⟩
  · refine .inr (.inl ⟨_, markOverrun_line held (moveRec_facts move).1, (mem_moveRecs _ _ _).mpr ?_⟩)
    rcases (mem_moveRecs s l p).mp move with
      ⟨r, planned, pending, rfl⟩ | ⟨r, -, -, rfl⟩ | ⟨pair, replan, ⟨r, planned, pending, rfl⟩ | ⟨-, rfl⟩⟩
    · exact .inl ⟨_, List.mem_map.mpr ⟨r, planned, markOverrun_rec rfl pending⟩, pending, rfl⟩
    · cases lift
    · exact .inr (.inr ⟨_, markOverrun_replan replan planned rfl rfl pending,
        .inl ⟨{ r with overrun := true }, rfl, pending, rfl⟩⟩)
    · cases lift
  · rw [((mem_gapRec s l p).mp gap).2] at lift; cases lift
  · rw [((mem_cutRec l p).mp own).2] at lift; cases lift
  · cases lift

/-! ### The first record that L has passed (R165) -/

/-- The records of the pending plan that L has passed and that are not yet taken as overruns. -/
def State.passed (s : State) : List PendingRec := s.candidates.filter fun p => !p.overrun && decide (p.position < s.knife)

/-- A state with its overrun taken: ACTION_OVERRUN raised, and the test due again (R165). -/
def State.overrunTaken (s : State) : State := (s.raise .actionOverrun).push [.overrun]

theorem overrunTaken_plan (s : State) : s.overrunTaken.plan = s.plan := rfl

theorem overrunTaken_book (s : State) : s.overrunTaken.book = s.book := rfl

theorem overrunTaken_dry (s : State) : s.overrunTaken.dry = s.dry := rfl

theorem overrunTaken_map (s : State) : s.overrunTaken.map = s.map := rfl

theorem overrunTaken_work (s : State) : s.overrunTaken.work = s.work ++ [.overrun] := rfl

theorem overrunTaken_order? (s : State) (id : Nat) : s.overrunTaken.order? id = s.order? id := rfl

theorem overrunTaken_windowOrder? (s : State) (id : Nat) : s.overrunTaken.windowOrder? id = s.windowOrder? id := rfl

theorem overrunTaken_mapAlone (s : State) : MapAlone s s.overrunTaken := rfl

theorem overrun_none (h : s.passed = []) : s.overrun = s := by
  have none : firstOf s.passed = none := by rw [h]; rfl
  unfold State.passed at none
  unfold State.overrun
  rw [none]

theorem overrun_first (h : firstOf s.passed = some p) : s.overrun = (s.overrunRec p).overrunTaken := by
  unfold State.passed at h
  unfold State.overrun
  rw [h]
  rfl

theorem overrunRec_lift (lift : p.kind = .lift) (station : p.station = some st) : s.overrunRec p = s.overrunLift p st := by
  unfold State.overrunRec
  rw [lift, station]

theorem overrunRec_drop (drop : p.kind = .drop) (station : p.station = some st) :
    s.overrunRec p = (s.takeLateSwap st p.order (p.source == .replan)).settleSwap st := by
  unfold State.overrunRec
  rw [drop, station]

theorem overrunRec_cut (cut : p.kind = .cut) :
    s.overrunRec p = (if s.finalOpen p then s.pinEnd p.order else s).dropCut p := by
  unfold State.overrunRec
  rw [cut]

/-- A final cut whose order's end is OPEN is one of an order that the window holds. -/
theorem finalOpen_held (h : p ∈ s.candidates) (isOpen : s.finalOpen p = true) : (s.windowOrder? p.order).isSome = true := by
  unfold State.finalOpen at isOpen
  obtain ⟨source, -⟩ := Bool.and_eq_true_iff.mp isOpen
  obtain ⟨l, held, own⟩ := candidate_line h (beq_iff_eq.mp source)
  exact own ▸ line_windowOrder?_isSome held

theorem overrun_rule : Rule.Overrun := by
  intro s passed t
  refine ⟨overrun_none, fun p first => ?_⟩
  have held : p ∈ s.candidates := (List.mem_filter.mp (firstOf_mem first).1).1
  have tracking := candidates_tracking held
  have form : t = (s.overrunRec p).overrunTaken := overrun_first first
  rw [form]
  refine ⟨fun classes => ?_, fun cut pinned => ?_, fun cut isOpen => ?_, fun st lift station => ?_, fun st drop station => ?_⟩
  · exact rawOf_push_raise ((Untouched.refl s).overrunRec p) .actionOverrun _ (classes.symm ▸ (by decide : 1 < 10))
  · have dropped : s.overrunRec p = s.dropCut p := by rw [overrunRec_cut cut, pinned, if_neg Bool.false_ne_true]
    rw [dropped, overrunTaken_dry, overrunTaken_map, overrunTaken_book, overrunTaken_work, dropCut_dry, dropCut_work tracking]
    refine ⟨rfl, rfl, rfl, rfl, dropCut_map s p, fun other => ⟨dropCut_book_other other s, ?_⟩, rfl,
      fun w source window => (overrunTaken_windowOrder? _ _).trans (dropCut_gap source window), fun source => ?_,
      fun o w source known window => ?_⟩
    · rw [if_neg other]
      simp
    · rw [if_pos source]
      simp
    · obtain ⟨counted, moved⟩ := dropCut_own source window known
      exact ⟨_, _, (overrunTaken_order? _ _).trans counted, (overrunTaken_windowOrder? _ _).trans moved, rfl, rfl, rfl, rfl⟩
  · have dropped : s.overrunRec p = (s.pinEnd p.order).dropCut p := by rw [overrunRec_cut cut, isOpen, if_pos rfl]
    rw [dropped, overrunTaken_dry, dropCut_dry, (pinEnd_pinning s p.order true).dry]
    refine ⟨rfl, rfl, rfl, fun distinct => ?_⟩
    refine pinnedThrough_congr (s := s.pinEnd p.order) ?_ (fun k => ?_)
      (pinnedThrough_pinEnd distinct (finalOpen_held held isOpen) true)
    · rw [overrunTaken_plan, dropCut_ids]
    · rw [overrunTaken_order?, dropCut_pinned]
  · have alone := (overrunLift_mapAlone s p st).trans (overrunTaken_mapAlone _)
    rw [overrunRec_lift lift station]
    refine ⟨?_, (congrArg DryList.released alone.dry :), alone.slitter, fun up => ?_, fun down => ?_⟩
    · rw [candidates_mapAlone alone]
      exact markOverrun_candidate held lift
    · rw [overrunTaken_map, overrunLift_up up]
      rfl
    · unfold State.opensClaim
      rw [overrunTaken_map, overrunLift_down down]
      exact insertExtent_opened _ _ _ _
  · rw [overrunRec_drop drop station]
    rfl

/-- Settles O41, rule by rule: the pending plan and its order, the numbers, the release test, the declaration, the overrun. -/
theorem sequenceNumbersRunOn : Obligations.SequenceNumbersRunOn :=
  ⟨pendingMoves_rule, pendingPlan_rule, sequenceCounter_rule, numbersGivenOut_rule, sequenceAcrossStates_rule,
    releaseOrder_rule, releaseTest_rule, declareTest_rule, overrun_rule⟩

end Sys2Proof.Machine
end

section
/-! PROOF. The stand link (R99 to R101): polls, the scan, the transaction that a free link starts and how it ends; O17, O18 and
O19. -/

namespace Sys2Proof.Machine

variable {s t u : State} {x y : Stream} {o : StandOutputs}

/-! ### Updates of a stream's record -/

theorem PerStream.set_get {α : Type} (p : PerStream α) (x : Stream) : p.set x (p.get x) = p := by
  cases x <;> rfl

theorem PerStream.set_set {α : Type} (p : PerStream α) (x : Stream) (v w : α) : (p.set x v).set x w = p.set x w := by
  cases x <;> rfl

theorem setStream_setStream (s : State) (x : Stream) (r v : StreamRec) : (s.setStream x r).setStream x v = s.setStream x v := by
  unfold State.setStream
  simp only [PerStream.set_set]

theorem setStream_self (s : State) (x : Stream) : s.setStream x (s.stream x) = s := by
  unfold State.setStream State.stream
  rw [PerStream.set_get]

theorem stream_setStream_other (s : State) (r : StreamRec) (h : y ≠ x) : (s.setStream x r).stream y = s.stream y :=
  (State.stream_setStream_ite _ _ _ _).trans (if_neg h)

theorem raiseIf_splice (s : State) (b : Bool) (n : Notice) : (s.raiseIf b n).splice = s.splice := (raiseIf_mapAlone s b n).splice

/-! ### Polls and the scan (R99) -/

theorem pendRead_stream (s : State) (x y : Stream) :
    (s.pendRead x).stream y = { s.stream y with readPending := (s.stream y).readPending || x == y } := by
  by_cases h : y = x
  · subst h
    simp [State.pendRead]
  · have other : (x == y) = false := beq_eq_false_iff_ne.mpr (Ne.symm h)
    simp [State.pendRead, stream_setStream_other s _ h, other]

theorem foldl_pendRead_stream (xs : List Stream) (s : State) (y : Stream) : (xs.foldl State.pendRead s).stream y =
    { s.stream y with readPending := (s.stream y).readPending || xs.contains y } := by
  induction xs generalizing s with
  | nil => simp
  | cons x xs ih =>
    rw [List.foldl_cons, ih, pendRead_stream, List.contains_cons, Bool.or_assoc, Bool.beq_comm]

theorem foldl_pendRead_link (xs : List Stream) (s : State) : (xs.foldl State.pendRead s).splice.link = s.splice.link := by
  induction xs generalizing s with
  | nil => rfl
  | cons x xs ih => exact ih _

theorem foldl_pendRead_spliceAlone (xs : List Stream) (s : State) : SpliceAlone s (xs.foldl State.pendRead s) := by
  induction xs generalizing s with
  | nil => rfl
  | cons x xs ih => exact SpliceAlone.trans (t := s.pendRead x) rfl (ih _)

theorem mem_stream_all (x : Stream) : x ∈ Stream.all := by
  cases x <;> decide

theorem activeStreams_contains (p : Profile) (x : Stream) : p.activeStreams.contains x = (p.streams.get x).active := by
  unfold Profile.activeStreams
  rw [List.contains_eq_mem, Bool.eq_iff_iff, decide_eq_true_iff, List.mem_filter]
  exact and_iff_right (mem_stream_all x)

theorem poll_stream (s : State) (x : Stream) : s.poll.stream x =
    { s.stream x with readPending := (s.stream x).readPending || (s.streamProfile x).active } := by
  unfold State.poll
  rw [foldl_pendRead_stream, activeStreams_contains]
  rfl

theorem poll_link (s : State) : s.poll.splice.link = { s.splice.link with poll := 0 } := foldl_pendRead_link _ _

theorem poll_spliceAlone (s : State) : SpliceAlone s s.poll :=
  SpliceAlone.trans (t := s.setLink { s.splice.link with poll := 0 }) rfl (foldl_pendRead_spliceAlone _ _)

theorem scanTo_spliceAlone (s : State) (x : Option Stream) : SpliceAlone s (s.scanTo x) := by
  cases x with
  | none => rfl
  | some y => rfl

/-- The interrupt at a level it already has changes nothing (log 41). -/
theorem setInterrupt_same (s : State) : s.setInterrupt s.splice.link.interrupt = s := if_pos rfl

/-- A change of the interrupt sets the scan anew: at the first active stream when asserted, and nowhere otherwise (R99). -/
theorem setInterrupt_changed {b : Bool} (h : b ≠ s.splice.link.interrupt) : s.setInterrupt b =
    (s.setLink { s.splice.link with interrupt := b, samples := 0, scan := none }).scanTo
      (if b = true then s.profile.activeStreams.head? else none) := by
  unfold State.setInterrupt
  rw [if_neg h]
  cases b with
  | true => rfl
  | false => rfl

/-- A command of the stand link that only changes the splice block, with no act due, answers its own change. -/
theorem exec_spliceAlone (i : Instr) (asserted : i ≠ .resetAssert) (released : ∀ v, i ≠ .resetRelease v)
    (running : s.resetAsserted = false) (quiet : s.work = []) (h : SpliceAlone s (actOf i s)) : exec i s = .next (actOf i s) :=
  exec_quiet i s asserted released running (((congrArg State.work h :) : (actOf i s).work = s.work).trans quiet)

/-- Settles O17. -/
theorem pollAndInterruptMakeReadsPending : Obligations.PollAndInterruptMakeReadsPending := by
  intro s running quiet
  refine ⟨⟨s.poll, ?_, poll_link s, poll_stream s, poll_spliceAlone s⟩, ?_, fun b changed => ?_⟩
  · exact exec_spliceAlone .standPoll nofun nofun running quiet (poll_spliceAlone s)
  · have same : actOf (.standInterruptChange s.splice.link.interrupt) s = s := setInterrupt_same s
    have done := exec_spliceAlone (.standInterruptChange s.splice.link.interrupt) nofun nofun running quiet (same.symm ▸ .refl s)
    rw [done, same]
  · have scan := setInterrupt_changed changed
    have alone : SpliceAlone s (s.setInterrupt b) := by
      rw [scan]
      exact SpliceAlone.trans (t := s.setLink { s.splice.link with interrupt := b, samples := 0, scan := none }) rfl
        (scanTo_spliceAlone _ _)
    refine ⟨s.setInterrupt b, exec_spliceAlone (.standInterruptChange b) nofun nofun running quiet alone, ?_, fun x => ?_, alone⟩
    · rw [scan, State.scanTo_link]
      rfl
    · rw [scan, State.scanTo_stream]
      rfl

/-! ### The transaction that a free link starts (R99) -/

/-- A write of a stream may start: the stream is active, its write is pending, and its link is sound. -/
def State.writeDue (s : State) (x : Stream) : Prop :=
  (s.streamProfile x).active = true ∧ (s.stream x).writePending = true ∧ (s.stream x).linkFault = false

/-- A read of a stream may start: the stream is active and its read is pending. -/
def State.readDue (s : State) (x : Stream) : Prop := (s.streamProfile x).active = true ∧ (s.stream x).readPending = true

/-- The first of some streams in ascending number that a test holds for is the lowest. -/
theorem find?_lowest {p : Stream → Bool} {xs : List Stream} (sorted : xs.Pairwise fun y z => y.number < z.number) (mem : x ∈ xs)
    (h : p x = true) (least : ∀ y, p y = true → x.number ≤ y.number) : xs.find? p = some x := by
  induction xs with
  | nil => cases mem
  | cons y xs ih =>
    obtain ⟨below, sorted⟩ := List.pairwise_cons.mp sorted
    rcases List.mem_cons.mp mem with rfl | behind
    · rw [List.find?_cons_of_pos h]
    · have other : ¬ p y = true := fun k => absurd (below x behind) (Nat.not_lt.mpr (least y k))
      rw [List.find?_cons_of_neg other]
      exact ih sorted behind

theorem stream_all_sorted : Stream.all.Pairwise fun y z => y.number < z.number := by decide

/-- The test by which the lowest write is found. -/
theorem writeDue_iff : ((s.streamProfile x).active && (s.stream x).writePending && !(s.stream x).linkFault) = true ↔
    s.writeDue x := by
  simp [State.writeDue, and_assoc]

theorem readDue_iff : ((s.streamProfile x).active && (s.stream x).readPending) = true ↔ s.readDue x := Bool.and_eq_true_iff

theorem nextTransaction_write (due : s.writeDue x) (least : ∀ y, s.writeDue y → x.number ≤ y.number) :
    s.nextTransaction = some ⟨x, true, 0, s.standOutputs x⟩ := by
  have first := find?_lowest stream_all_sorted (mem_stream_all x)
    (p := fun y => (s.streamProfile y).active && (s.stream y).writePending && !(s.stream y).linkFault) (writeDue_iff.mpr due)
    fun y k => least y (writeDue_iff.mp k)
  unfold State.nextTransaction
  dsimp only
  rw [first]

theorem nextTransaction_read (noWrite : ∀ y, ¬ s.writeDue y) (due : s.readDue x)
    (least : ∀ y, s.readDue y → x.number ≤ y.number) : s.nextTransaction = some ⟨x, false, 0, {}⟩ := by
  have none_ : (Stream.all.find? fun y => (s.streamProfile y).active && (s.stream y).writePending && !(s.stream y).linkFault) =
      none := List.find?_eq_none.mpr fun y _ k => noWrite y (writeDue_iff.mp k)
  have first := find?_lowest stream_all_sorted (mem_stream_all x)
    (p := fun y => (s.streamProfile y).active && (s.stream y).readPending) (readDue_iff.mpr due) fun y k => least y (readDue_iff.mp k)
  unfold State.nextTransaction
  dsimp only
  rw [none_, first]

theorem nextTransaction_none (h : ∀ y, ¬ s.writeDue y ∧ ¬ s.readDue y) : s.nextTransaction = none := by
  rw [← Option.not_isSome_iff_eq_none, nextTransaction_isSome]
  rintro ⟨y, active, ⟨pending, sound⟩ | pending⟩
  · exact (h y).1 ⟨active, pending, sound⟩
  · exact (h y).2 ⟨active, pending⟩

theorem linkStart_busy (h : s.splice.link.busy ≠ none) : s.linkStart = s := by
  obtain ⟨v, busy⟩ := Option.ne_none_iff_exists'.mp h
  unfold State.linkStart
  rw [busy]

theorem linkStart_idle (h : s.nextTransaction = none) : s.linkStart = s := by
  unfold State.linkStart
  rw [h]
  split
  · next k => cases k
  · rfl

theorem linkStart_starts {v : Transaction} (free : s.splice.link.busy = none) (h : s.nextTransaction = some v) :
    s.linkStart = s.startTransaction v := by
  unfold State.linkStart
  rw [free, h]

/-- At the start of a transaction the pending mark of its write is cleared; a read's stays (log 20). -/
theorem startTransaction_stream (s : State) (v : Transaction) (y : Stream) : (s.startTransaction v).stream y =
    { s.stream y with writePending := (s.stream y).writePending && !(v.write && v.stream == y) } := by
  by_cases h : y = v.stream
  · subst h
    simp [State.startTransaction]
  · have other : (v.stream == y) = false := beq_eq_false_iff_ne.mpr (Ne.symm h)
    simp [State.startTransaction, stream_setStream_other s _ h, other]

theorem startTransaction_read (s : State) (x : Stream) (n : Nat) (o : StandOutputs) :
    s.startTransaction ⟨x, false, n, o⟩ = s.setLink { s.splice.link with busy := some ⟨x, false, n, o⟩ } := by
  unfold State.startTransaction
  simp only [Bool.not_false, Bool.and_true]
  rw [setStream_self]

/-- Settles O18. -/
theorem freeLinkStartsTheNextTransaction : Obligations.FreeLinkStartsTheNextTransaction := by
  intro s running quiet
  have starts (alone : SpliceAlone s s.linkStart) : exec .standTransactionStart s = .next s.linkStart :=
    exec_spliceAlone .standTransactionStart nofun nofun running quiet alone
  have idles (same : s.linkStart = s) : exec .standTransactionStart s = .next s := by
    rw [starts (same.symm ▸ .refl s), same]
  refine ⟨fun busy => idles (linkStart_busy busy), fun idle => idles (linkStart_idle (nextTransaction_none idle)),
    fun x free due least => ?_, fun x free noWrite due least => ?_⟩
  · have start := linkStart_starts free (nextTransaction_write due least)
    have alone : SpliceAlone s s.linkStart := start ▸ rfl
    refine ⟨s.linkStart, starts alone, ?_, fun y => ?_, alone⟩
    · rw [start]
      rfl
    · rw [start, startTransaction_stream]
      rfl
  · have start := linkStart_starts free (nextTransaction_read noWrite due least)
    rw [starts (start ▸ rfl), start, startTransaction_read]
    rfl

/-! ### The end of a transaction (R99, R101) -/

/-- LINK_FAULT cleared; the deferred-commit test is due where it was set (R101, R111). -/
theorem clearFault_eq (s : State) (x : Stream) : s.clearFault x = (s.setStream x { s.stream x with linkFault := false }).push
    (if (s.stream x).linkFault = true then [.deferred x] else []) := by
  unfold State.clearFault
  by_cases h : (s.stream x).linkFault = true
  · rw [if_pos h, if_pos h]
  · have same : { s.stream x with linkFault := false } = s.stream x := by rw [← Bool.not_eq_true _ |>.mp h]
    rw [if_neg h, if_neg h, same, setStream_self, State.push_nil]

/-- A successful write delivers what it carried, and clears LINK_FAULT. -/
theorem standWrite_eq {n : Nat} (busy : s.splice.link.busy = some ⟨x, true, n, o⟩) : s.standWrite =
    (s.freeLink.setStream x { s.stream x with written := o, linkFault := false }).push
      (if (s.stream x).linkFault = true then [.deferred x] else []) := by
  unfold State.standWrite
  rw [busy]
  dsimp only
  rw [if_pos rfl, clearFault_eq, setStream_setStream, State.stream_setStream]
  rfl

theorem attemptFailed_again {v : Transaction} (busy : s.splice.link.busy = some v) (h : v.failed < 3) :
    s.attemptFailed = s.setLink { s.splice.link with busy := some { v with failed := v.failed + 1 } } := by
  unfold State.attemptFailed
  rw [busy]
  exact if_pos (Nat.succ_lt_succ h)

theorem attemptFailed_last {v : Transaction} (busy : s.splice.link.busy = some v) (h : 3 ≤ v.failed) :
    s.attemptFailed = s.abandon v := by
  unfold State.attemptFailed
  rw [busy]
  exact if_neg (Nat.not_lt.mpr (Nat.succ_le_succ h))

theorem readMade_spliceAlone (s : State) (x : Stream) : SpliceAlone s (s.readMade x) := by
  unfold State.readMade
  dsimp only
  split
  · exact SpliceAlone.trans (t := s.setStream x _) rfl (scanTo_spliceAlone _ _)
  · rfl

/-- The reads and writes that an abandoned transaction leaves pending (R101). -/
def State.givenUp (s : State) (v : Transaction) : State :=
  if v.write then s.freeLink.setStream v.stream { s.stream v.stream with writePending := true } else s.freeLink.readMade v.stream

/-- A stream's record with LINK_FAULT set and its candidate levels discarded (R101). -/
def StreamRec.faulted (r : StreamRec) : StreamRec :=
  { r with
    linkFault := true
    arms := ⟨r.arms.a.dropCandidates, r.arms.b.dropCandidates⟩
    splicerReady := { r.splicerReady with candidate := none } }

theorem abandon_eq (s : State) (v : Transaction) : s.abandon v =
    ((s.givenUp v).setStream v.stream ((s.givenUp v).stream v.stream).faulted).raiseIf
      (!((s.givenUp v).stream v.stream).linkFault) .standFault := rfl

theorem givenUp_spliceAlone (s : State) (v : Transaction) : SpliceAlone s (s.givenUp v) := by
  unfold State.givenUp
  split
  · rfl
  · exact SpliceAlone.trans (t := s.freeLink) rfl (readMade_spliceAlone _ _)

/-- The scan after a transaction is given up: it moves on where a read at its stream was (log 53). -/
theorem givenUp_link (s : State) (v : Transaction) : (s.givenUp v).splice.link = { s.splice.link with
    busy := none
    scan := if v.write = false ∧ s.splice.link.interrupt = true ∧ s.splice.link.scan = some v.stream
      then s.profile.nextActive v.stream else s.splice.link.scan } := by
  unfold State.givenUp
  cases v.write with
  | true => rfl
  | false =>
    refine (State.readMade_link _ _).trans ?_
    by_cases h : s.splice.link.interrupt = true ∧ s.splice.link.scan = some v.stream
    · rw [if_pos (by simpa [State.freeLink] using h), if_pos ⟨rfl, h⟩]
      rfl
    · rw [if_neg (by simpa [State.freeLink] using h), if_neg fun k => h k.2]
      rfl

theorem givenUp_stream (s : State) (v : Transaction) (y : Stream) : (s.givenUp v).stream y = { s.stream y with
    readPending := ((s.givenUp v).stream y).readPending
    writePending := (s.stream y).writePending || (v.write && y == v.stream) } := by
  unfold State.givenUp
  cases v.write with
  | true =>
    by_cases h : y = v.stream
    · subst h
      simp
    · have other : (y == v.stream) = false := beq_eq_false_iff_ne.mpr h
      simp [stream_setStream_other _ _ h, other, State.freeLink]
  | false => simp [State.readMade_stream, State.freeLink]

theorem givenUp_readPending (s : State) (v : Transaction) (y : Stream) : ((s.givenUp v).stream y).readPending = true ↔
    ((s.stream y).readPending = true ∧ (v.write = true ∨ y ≠ v.stream)) ∨
    ((v.write = false ∧ s.splice.link.interrupt = true ∧ s.splice.link.scan = some v.stream) ∧
      s.profile.nextActive v.stream = some y) := by
  unfold State.givenUp
  cases v.write with
  | true =>
    have same : ((s.freeLink.setStream v.stream { s.stream v.stream with writePending := true }).stream y).readPending =
        (s.stream y).readPending := by
      by_cases h : y = v.stream
      · subst h
        rw [State.stream_setStream]
      · rw [stream_setStream_other _ _ h]
        rfl
    rw [if_pos rfl, same]
    simp
  | false => simp [State.readMade_stream, State.freeLink, and_assoc]

/-- An abandoned transaction changes the splice block, and the ports by STAND_FAULT. -/
theorem abandon_frame (s : State) (v : Transaction) : { s.abandon v with splice := s.splice, ports := s.ports } = s := by
  have given := givenUp_spliceAlone s v
  rw [abandon_eq]
  rcases State.raiseIf_eq _ (!((s.givenUp v).stream v.stream).linkFault) .standFault with e | e <;> rw [e] <;>
    exact congrArg (fun u : State => { u with ports := s.ports }) given

theorem abandon_link (s : State) (v : Transaction) : (s.abandon v).splice.link = (s.givenUp v).splice.link := by
  rw [abandon_eq, raiseIf_splice]
  rfl

theorem abandon_stream (s : State) (v : Transaction) :
    (s.abandon v).stream v.stream = ((s.givenUp v).stream v.stream).faulted := by
  rw [abandon_eq, stream_of_splice (raiseIf_splice _ _ _), State.stream_setStream]

theorem abandon_readPending (s : State) (v : Transaction) (y : Stream) :
    ((s.abandon v).stream y).readPending = ((s.givenUp v).stream y).readPending := by
  by_cases h : y = v.stream
  · rw [h, abandon_stream]
    rfl
  · rw [abandon_eq, stream_of_splice (raiseIf_splice _ _ _), stream_setStream_other _ _ h]

theorem abandon_raises (s : State) (v : Transaction) (sound : (s.stream v.stream).linkFault = false)
    (classes : (s.port .wet).classes.length = 13) : ((s.abandon v).port .wet).rawOf 5 = true := by
  have given := givenUp_spliceAlone s v
  have ports : (s.givenUp v).port .wet = s.port .wet := (congrArg (fun u : State => u.port .wet) given :)
  rw [abandon_eq, givenUp_stream]
  dsimp only
  rw [sound]
  exact raise_raw _ .standFault (by change 5 < ((s.givenUp v).port .wet).classes.length; rw [ports, classes]; decide)

/-- A fault that stands already is not raised again (R101). -/
theorem abandon_ports (s : State) (v : Transaction) (fault : (s.stream v.stream).linkFault = true) :
    (s.abandon v).ports = s.ports := by
  rw [abandon_eq, givenUp_stream]
  dsimp only
  rw [fault]
  exact (congrArg State.ports (givenUp_spliceAlone s v) :)

/-- The fourth failed attempt abandons the transaction (R101). -/
theorem abandon_effect (s : State) (v : Transaction) :
    let t := s.abandon v
    (t.stream v.stream).linkFault = true ∧
    (t.stream v.stream).writePending = ((s.stream v.stream).writePending || v.write) ∧
    (∀ arm, t.arm v.stream arm = (s.arm v.stream arm).dropCandidates) ∧
    (t.stream v.stream).splicerReady = ⟨(s.stream v.stream).splicerReady.level, none⟩ ∧
    (t.stream v.stream).slot = (s.stream v.stream).slot := by
  unfold State.arm
  dsimp only
  rw [abandon_stream, givenUp_stream]
  refine ⟨rfl, by simp [StreamRec.faulted], fun arm => ?_, rfl, rfl⟩
  cases arm with
  | a => rfl
  | b => rfl

/-- Settles O19. -/
theorem transactionsEndInSuccessOrFault : Obligations.TransactionsEndInSuccessOrFault := by
  intro s x write failed o running busy
  refine ⟨?_, fun again quiet => ?_, fun last quiet => ?_⟩
  · rintro rfl
    have made := standWrite_eq busy
    refine ⟨s.standWrite, exec_settles .standWrite s nofun nofun running, ?_, ?_, fun y h => ?_, ?_, ?_⟩
    · rw [made]
      rfl
    · rw [made]
      exact State.stream_setStream _ _ _
    · rw [made]
      exact stream_setStream_other s.freeLink _ h
    · rw [made]
      rfl
    · rw [made]
      rfl
  · have retried := attemptFailed_again busy again
    have done := exec_spliceAlone .standAttemptFailed nofun nofun running quiet (retried ▸ rfl : SpliceAlone s s.attemptFailed)
    exact done.trans (congrArg Host.Outcome.next retried)
  · let v : Transaction := ⟨x, write, failed, o⟩
    have act : actOf .standAttemptFailed s = s.abandon v := attemptFailed_last busy last
    have frame := abandon_frame s v
    have idle : (actOf .standAttemptFailed s).work = [] := by
      rw [act]
      exact (congrArg State.work frame :).trans quiet
    obtain ⟨fault, pending, arms, splicerReady, slot⟩ := abandon_effect s v
    refine ⟨s.abandon v, ?_, ⟨?_, fun y => ?_⟩, fault, pending, arms, splicerReady, slot, abandon_raises s v, abandon_ports s v, frame⟩
    · rw [exec_quiet .standAttemptFailed s nofun nofun running idle, act]
    · rw [abandon_link, givenUp_link]
    · rw [abandon_readPending]
      exact givenUp_readPending s v y

end Sys2Proof.Machine
end

section
/-! PROOF. Web breaks at a reel that leaves (R104, R122): what they leave of a stream, whichever arm's reel is gone. -/

namespace Sys2Proof.Machine

variable {s t u : State} {x y : Stream} {arm : Arm}

/-- An arm at a web break: EMPTY where it is the one whose reel has left, and otherwise as at any break (R104, R122). -/
def ArmRec.atBreak (r : ArmRec) (left : Bool) : ArmRec := if left then r.emptied else r.webBroken

/-- The slot of a broken stream is FREE, and its arms have stopped or lost their reel. -/
def State.webLeft (s : State) (x : Stream) (left : Option Arm) : State :=
  let freed := s.setSlot x none
  let first := freed.setArm x .a ((freed.arm x .a).atBreak (left = some .a))
  let both := first.setArm x .b ((first.arm x .b).atBreak (left = some .b))
  both.setStream x { both.stream x with broken := true, running := none }

theorem breakWeb_parts (s : State) (x : Stream) (left : Option Arm) :
    s.breakWeb x left = (((s.slotDealt x).webLeft x left).openBreak x).push [.slotFree x] := by
  have stops (u : State) (arm : Arm) : (if left = some arm then u.setArm x arm (u.arm x arm).disable.emptied
      else if (u.arm x arm).disable.state == .running then
        u.setArm x arm (if (u.arm x arm).disable.present.level then (u.arm x arm).disable.stop else (u.arm x arm).disable.emptied)
      else u.setArm x arm (u.arm x arm).disable) = u.setArm x arm ((u.arm x arm).atBreak (left = some arm)) := by
    unfold ArmRec.atBreak ArmRec.webBroken
    by_cases own : left = some arm
    · rw [if_pos own, if_pos (decide_eq_true own)]
      rfl
    · have stays : ¬ decide (left = some arm) = true := by simpa using own
      rw [if_neg own, if_neg stays]
      split
      · next h => exact congrArg _ (if_pos h).symm
      · next h => exact congrArg _ (if_neg h).symm
  unfold State.breakWeb State.webLeft
  dsimp only
  rw [← stops, ← stops]
  rfl

theorem webLeft_stream (s : State) (x : Stream) (left : Option Arm) : (s.webLeft x left).stream x =
    { s.stream x with
      arms := ⟨(s.arm x .a).atBreak (left = some .a), (s.arm x .b).atBreak (left = some .b)⟩
      slot := none, broken := true, running := none, writePending := ((s.webLeft x left).stream x).writePending } := by
  unfold State.webLeft State.setSlot State.arm
  simp only [stream_setArm, State.stream_setStream]
  rfl

theorem webLeft_stream_other (s : State) (left : Option Arm) (h : y ≠ x) : (s.webLeft x left).stream y = s.stream y := by
  unfold State.webLeft
  dsimp only
  rw [stream_setStream_other _ _ h, stream_setArm_other _ _ _ h, stream_setArm_other _ _ _ h]
  exact stream_setStream_other _ _ h

theorem breakWeb_splice (s : State) (x : Stream) (left : Option Arm) :
    (s.breakWeb x left).splice = ((s.slotDealt x).webLeft x left).splice := by
  rw [breakWeb_parts]
  exact (openBreak_mapAlone _ x).splice

/-- What a web break leaves of its stream: the arms at the break, no slot, no running arm, and the web BROKEN (R122). -/
theorem breakWeb_stream (s : State) (x : Stream) (left : Option Arm) : (s.breakWeb x left).stream x =
    { s.stream x with
      arms := ⟨(s.arm x .a).atBreak (left = some .a), (s.arm x .b).atBreak (left = some .b)⟩
      slot := none, broken := true, running := none, writePending := ((s.breakWeb x left).stream x).writePending } := by
  have dealt := (slotDealt_mapAlone s x).splice
  rw [stream_of_splice (breakWeb_splice s x left), ← stream_of_splice dealt, ← arm_of_splice dealt x .a, ← arm_of_splice dealt x .b]
  exact webLeft_stream _ x left

theorem breakWeb_stream_other (s : State) (left : Option Arm) (h : y ≠ x) : (s.breakWeb x left).stream y = s.stream y := by
  rw [stream_of_splice (breakWeb_splice s x left), webLeft_stream_other _ _ h, stream_of_splice (slotDealt_mapAlone s x).splice]

theorem breakWeb_arm (s : State) (x : Stream) (left : Option Arm) (arm : Arm) :
    (s.breakWeb x left).arm x arm = (s.arm x arm).atBreak (left = some arm) := by
  change ((s.breakWeb x left).stream x).arms.get arm = _
  rw [breakWeb_stream]
  cases arm with
  | a => rfl
  | b => rfl

theorem breakWeb_link (s : State) (x : Stream) (left : Option Arm) : (s.breakWeb x left).splice.link = s.splice.link := by
  rw [breakWeb_splice]
  exact (congrArg Sequencer.link (slotDealt_mapAlone s x).splice :)

theorem breakWeb_figures (s : State) (x : Stream) (left : Option Arm) :
    (s.breakWeb x left).lmu = s.lmu ∧ (s.breakWeb x left).profile = s.profile := by
  have dealt := slotDealt_mapAlone s x
  have opened := openBreak_mapAlone ((s.slotDealt x).webLeft x left) x
  rw [breakWeb_parts]
  exact ⟨opened.lmu.trans dealt.lmu, opened.profile.trans dealt.profile⟩

end Sys2Proof.Machine
end

section
/-! PROOF. Reads of a stand (R99, R100, R103, R104): the levels taken, the events of both arms, and O20 and O21. -/

namespace Sys2Proof.Machine

variable {s t u : State} {x y : Stream} {arm own other : Arm} {r q old : ArmRec} {ready : Bool}

/-! ### Debounced inputs (R100) -/

/-- What a read makes of an input is the debounce of R100. -/
theorem read_debounces (i : StandInput) (shown : Bool) (now : Nat) (first : Bool) :
    Debounces i (i.read shown now first) shown now first := by
  have wait : Config.standDebounce = 20 := rfl
  unfold StandInput.read
  refine ⟨fun h => if_pos h, fun h same => ?_, fun h other none_ => ?_, fun c h other held early => ?_, fun c h other held late => ?_⟩
  all_goals rw [if_neg (by rw [h]; exact nofun)]
  · rw [if_pos (by rw [same]; exact beq_self_eq_true _)]
  all_goals rw [if_neg (by simpa using other)]
  · rw [none_]
  · rw [held, wait]
    exact if_neg (Nat.not_le.mpr early)
  · rw [held, wait]
    exact if_pos late

theorem arm_read_debounces (r : ArmRec) (v : ArmLevels) (now : Nat) (first : Bool) :
    ArmDebounces r (r.read v now first) v now first :=
  ⟨read_debounces _ _ _ _, read_debounces _ _ _ _, read_debounces _ _ _ _, read_debounces _ _ _ _⟩

/-- The debounced inputs of an arm. -/
def ArmRec.inputs (r : ArmRec) : StandInput × StandInput × StandInput × StandInput := (r.present, r.latched, r.button, r.driveGood)

theorem ArmRec.inputs_of_stand (h : q.stand = r.stand) : q.inputs = r.inputs := congrArg (·.2.2.2) h

theorem ArmRec.inputs_eq (h : q.inputs = r.inputs) :
    q.present = r.present ∧ q.latched = r.latched ∧ q.button = r.button ∧ q.driveGood = r.driveGood :=
  ⟨congrArg (·.1) h, congrArg (·.2.1) h, congrArg (·.2.2.1) h, congrArg (·.2.2.2) h⟩

theorem ArmDebounces.of_inputs {v : ArmLevels} {now : Nat} {first : Bool} (h : ArmDebounces old r v now first)
    (k : q.inputs = r.inputs) : ArmDebounces old q v now first := by
  obtain ⟨present, latched, button, driveGood⟩ := ArmRec.inputs_eq k
  exact ⟨present ▸ h.present, latched ▸ h.latched, button ▸ h.button, driveGood ▸ h.driveGood⟩

/-! ### An arm at the events of a read (R103, R104) -/

/-- The reel is gone: present has cleared. -/
def ArmRec.gone (r old : ArmRec) : Bool := old.present.level && !r.present.level

/-- The reel leaves: present or latched has cleared (R104). -/
def ArmRec.leaves (r old : ArmRec) : Bool := r.gone old || (old.latched.level && !r.latched.level)

/-- The ready button has been pressed. -/
def ArmRec.pressed (r old : ArmRec) : Bool := !old.button.level && r.button.level

/-- An arm that its reel leaves (R104). -/
def ArmRec.left (r : ArmRec) (gone : Bool) : ArmRec :=
  match r.state with
  | .empty => r
  | .loaded => r.emptied
  | .ready => r.emptied
  | .running => r.webBroken
  | .stopping => if gone then r.emptied else r

/-- An EMPTY arm may be loaded: it is declared, present and latched (R103). -/
def ArmRec.mayLoad (r : ArmRec) : Bool := r.state == .empty && r.declaration.isSome && r.present.level && r.latched.level

/-- An EMPTY arm is LOADED when declared, present and latched (R103). -/
def ArmRec.load (r : ArmRec) : ArmRec := if r.mayLoad then { r with state := .loaded } else r

/-- A press makes a LOADED arm READY, with splicer-ready set (R103). -/
def ArmRec.press (r : ArmRec) (pressed ready : Bool) : ArmRec :=
  if pressed && r.state == .loaded && ready then { r with state := .ready } else r

/-- An arm after the events of a read that found it as `old`. -/
def ArmRec.event (r old : ArmRec) (ready : Bool) : ArmRec :=
  (if r.leaves old then r.left (r.gone old) else r).load.press (r.pressed old) ready

theorem ArmRec.webBroken_stand (h : r.state ≠ .running) : r.webBroken.stand = r.stand := by
  unfold ArmRec.webBroken
  rw [if_neg (by simpa using h)]
  rfl

theorem ArmRec.webBroken_inputs (r : ArmRec) : r.webBroken.inputs = r.inputs := by
  unfold ArmRec.webBroken
  repeat' split
  all_goals rfl

theorem ArmRec.atBreak_inputs (r : ArmRec) (b : Bool) : (r.atBreak b).inputs = r.inputs := by
  unfold ArmRec.atBreak
  split
  · rfl
  · exact r.webBroken_inputs

theorem ArmRec.left_inputs (r : ArmRec) (b : Bool) : (r.left b).inputs = r.inputs := by
  unfold ArmRec.left
  repeat' split
  all_goals first | rfl | exact r.webBroken_inputs

theorem ArmRec.load_inputs (r : ArmRec) : r.load.inputs = r.inputs := by
  unfold ArmRec.load
  split <;> rfl

theorem ArmRec.press_inputs (r : ArmRec) (b c : Bool) : (r.press b c).inputs = r.inputs := by
  unfold ArmRec.press
  split <;> rfl

theorem ArmRec.event_inputs (r old : ArmRec) (ready : Bool) : (r.event old ready).inputs = r.inputs := by
  unfold ArmRec.event
  rw [ArmRec.press_inputs, ArmRec.load_inputs]
  split
  · exact r.left_inputs _
  · rfl

/-! ### The events of a read leave alone -/

/-- What the events of a read of a stream leave alone: the link, the other streams, the counters and the profile, and of the
stream's own record all but its arms, its slot, the running arm and the BROKEN mark; the inputs of its arms stay too, and a
broken web stays broken. -/
structure EventsKeep (x : Stream) (s t : State) : Prop where
  link : t.splice.link = s.splice.link
  others : ∀ y, y ≠ x → t.stream y = s.stream y
  own : t.stream x = { s.stream x with
    arms := (t.stream x).arms, running := (t.stream x).running, broken := (t.stream x).broken, slot := (t.stream x).slot
    writePending := (t.stream x).writePending }
  inputs : ∀ arm, (t.arm x arm).inputs = (s.arm x arm).inputs
  broken : (s.stream x).broken = true ∧ (s.stream x).running = none → (t.stream x).broken = true ∧ (t.stream x).running = none
  lmu : t.lmu = s.lmu
  profile : t.profile = s.profile

theorem EventsKeep.refl (x : Stream) (s : State) : EventsKeep x s s :=
  ⟨rfl, fun _ _ => rfl, rfl, fun _ => rfl, id, rfl, rfl⟩

theorem EventsKeep.trans (h : EventsKeep x s t) (k : EventsKeep x t u) : EventsKeep x s u where
  link := k.link.trans h.link
  others y e := (k.others y e).trans (h.others y e)
  own := by rw [k.own, h.own]
  inputs arm := (k.inputs arm).trans (h.inputs arm)
  broken e := k.broken (h.broken e)
  lmu := k.lmu.trans h.lmu
  profile := k.profile.trans h.profile

theorem EventsKeep.push (h : EventsKeep x s t) (ts : List Task) : EventsKeep x s (t.push ts) :=
  h.trans ⟨rfl, fun _ _ => rfl, rfl, fun _ => rfl, id, rfl, rfl⟩

theorem EventsKeep.setSlot (h : EventsKeep x s t) (v : Option Slot) : EventsKeep x s (t.setSlot x v) := by
  refine h.trans ⟨rfl, fun y e => stream_setStream_other _ _ e, ?_, fun arm => ?_, fun e => ?_, rfl, rfl⟩
  · unfold State.setSlot
    rw [State.stream_setStream]
  · exact congrArg ArmRec.inputs (arm_setStream t x _ arm)
  · unfold State.setSlot
    rw [State.stream_setStream]
    exact e

theorem EventsKeep.setArm (h : EventsKeep x s t) (e : r.inputs = (t.arm x arm).inputs) : EventsKeep x s (t.setArm x arm r) := by
  refine h.trans ⟨rfl, fun y e => stream_setArm_other _ _ _ e, ?_, fun side => ?_, fun e => ?_, rfl, rfl⟩
  · rw [stream_setArm]
  · by_cases same : side = arm
    · rw [same, arm_setArm, e]
    · rw [arm_setArm_other _ _ _ same]
  · rw [stream_setArm]
    exact e

theorem breakWeb_keeps (s : State) (x : Stream) (left : Option Arm) : EventsKeep x s (s.breakWeb x left) where
  link := breakWeb_link s x left
  others y h := breakWeb_stream_other s left h
  own := by rw [breakWeb_stream]
  inputs arm := by rw [breakWeb_arm, ArmRec.atBreak_inputs]
  broken _ := by
    rw [breakWeb_stream]
    exact ⟨rfl, rfl⟩
  lmu := (breakWeb_figures s x left).1
  profile := (breakWeb_figures s x left).2

theorem EventsKeep.abortSplice (h : EventsKeep x s t) : EventsKeep x s (t.abortSplice x) := by
  unfold State.abortSplice
  repeat' split
  · exact h
  · exact (h.setSlot none).push _
  · exact h.setSlot _

/-! What a reel that leaves does, by the state of its arm (R104, R112, R122). -/

theorem reelLeaves_empty (h : (s.arm x arm).state = .empty) (gone : Bool) : s.reelLeaves x arm gone = s := by
  unfold State.reelLeaves
  dsimp only
  rw [h]

theorem reelLeaves_loaded (h : (s.arm x arm).state = .loaded) (gone : Bool) :
    s.reelLeaves x arm gone = s.setArm x arm (s.arm x arm).emptied := by
  unfold State.reelLeaves
  dsimp only
  rw [h]

theorem reelLeaves_ready (h : (s.arm x arm).state = .ready) (gone : Bool) : s.reelLeaves x arm gone =
    if s.chosenBy x arm .fired then s.breakWeb x (some arm)
    else if s.chosenBy x arm .committed then (s.setArm x arm (s.arm x arm).emptied).abortSplice x
    else s.setArm x arm (s.arm x arm).emptied := by
  unfold State.reelLeaves
  dsimp only
  rw [h]

theorem reelLeaves_running (h : (s.arm x arm).state = .running) (gone : Bool) :
    s.reelLeaves x arm gone = s.breakWeb x none := by
  unfold State.reelLeaves
  dsimp only
  rw [h]

theorem reelLeaves_stopping (h : (s.arm x arm).state = .stopping) (gone : Bool) :
    s.reelLeaves x arm gone = if gone then s.setArm x arm (s.arm x arm).emptied else s := by
  unfold State.reelLeaves
  dsimp only
  rw [h]

theorem reelLeaves_keeps (s : State) (x : Stream) (arm : Arm) (gone : Bool) : EventsKeep x s (s.reelLeaves x arm gone) := by
  have empties : EventsKeep x s (s.setArm x arm (s.arm x arm).emptied) := (EventsKeep.refl x s).setArm rfl
  cases e : (s.arm x arm).state with
  | empty =>
    rw [reelLeaves_empty e]
    exact .refl x s
  | loaded => exact reelLeaves_loaded e gone ▸ empties
  | ready =>
    rw [reelLeaves_ready e]
    repeat' split
    · exact breakWeb_keeps s x _
    · exact empties.abortSplice
    · exact empties
  | running => exact reelLeaves_running e gone ▸ breakWeb_keeps s x none
  | stopping =>
    rw [reelLeaves_stopping e]
    split
    · exact empties
    · exact .refl x s

/-! ### The parts of an arm's events -/

/-- The reel of an arm leaves it, where the read shows that. -/
def State.reelTaken (s : State) (x : Stream) (arm : Arm) (old : ArmRec) : State :=
  if (s.arm x arm).leaves old then s.reelLeaves x arm ((s.arm x arm).gone old) else s

/-- A press of the ready button of an arm (R103). -/
def State.pressTaken (s : State) (x : Stream) (arm : Arm) (pressed : Bool) : State :=
  if pressed && (s.arm x arm).state == .loaded && (s.stream x).splicerReady.level then
    (s.setArm x arm { s.arm x arm with state := .ready }).push [.deferred x]
  else s

theorem armEvents_eq (s : State) (x : Stream) (arm : Arm) (old : ArmRec) : s.armEvents x arm old =
    if !old.driveGood.level && (s.arm x arm).driveGood.level then
      (((s.reelTaken x arm old).tryLoad x arm).pressTaken x arm ((s.arm x arm).pressed old)).push [.fireTest x]
    else ((s.reelTaken x arm old).tryLoad x arm).pressTaken x arm ((s.arm x arm).pressed old) := rfl

/-- The events of an arm but for the fire test that they may make due. -/
theorem armEvents_splice (s : State) (x : Stream) (arm : Arm) (old : ArmRec) : (s.armEvents x arm old).splice =
    (((s.reelTaken x arm old).tryLoad x arm).pressTaken x arm ((s.arm x arm).pressed old)).splice := by
  rw [armEvents_eq]
  split
  · rfl
  · rfl

theorem reelTaken_keeps (s : State) (x : Stream) (arm : Arm) (old : ArmRec) : EventsKeep x s (s.reelTaken x arm old) := by
  unfold State.reelTaken
  split
  · exact reelLeaves_keeps s x arm _
  · exact .refl x s

theorem tryLoad_eq (s : State) (x : Stream) (arm : Arm) :
    s.tryLoad x arm = s ∨ s.tryLoad x arm = s.setArm x arm { s.arm x arm with state := .loaded } := by
  unfold State.tryLoad
  dsimp only
  split
  · exact .inr rfl
  · exact .inl rfl

theorem EventsKeep.tryLoad (h : EventsKeep x s t) (arm : Arm) : EventsKeep x s (t.tryLoad x arm) := by
  rcases tryLoad_eq t x arm with e | e <;> rw [e]
  · exact h
  · exact h.setArm rfl

theorem EventsKeep.pressTaken (h : EventsKeep x s t) (arm : Arm) (b : Bool) : EventsKeep x s (t.pressTaken x arm b) := by
  unfold State.pressTaken
  split
  · refine EventsKeep.push (h.setArm ?_) _
    rfl
  · exact h

theorem EventsKeep.armEvents (h : EventsKeep x s t) (arm : Arm) (old : ArmRec) : EventsKeep x s (t.armEvents x arm old) := by
  have own := ((reelTaken_keeps t x arm old).tryLoad arm).pressTaken arm ((t.arm x arm).pressed old)
  rw [armEvents_eq]
  split
  · exact h.trans (own.push _)
  · exact h.trans own

/-! ### The arm whose events they are -/

theorem abortSplice_arms (s : State) (x : Stream) (arm : Arm) : (s.abortSplice x).arm x arm = s.arm x arm := by
  unfold State.abortSplice
  repeat' split
  · rfl
  · exact arm_setStream s x _ arm
  · exact arm_setStream s x _ arm

theorem reelLeaves_arm (s : State) (x : Stream) (arm : Arm) (gone : Bool) :
    (s.reelLeaves x arm gone).arm x arm = (s.arm x arm).left gone := by
  have empties := arm_setArm s x arm (s.arm x arm).emptied
  unfold ArmRec.left
  cases e : (s.arm x arm).state with
  | empty => rw [reelLeaves_empty e]
  | loaded => rw [reelLeaves_loaded e, empties]
  | ready =>
    rw [reelLeaves_ready e]
    dsimp only
    repeat' split
    · rw [breakWeb_arm, decide_eq_true rfl]
      rfl
    · rw [abortSplice_arms, empties]
    · exact empties
  | running =>
    rw [reelLeaves_running e, breakWeb_arm]
    rfl
  | stopping =>
    rw [reelLeaves_stopping e]
    dsimp only
    split
    · exact empties
    · rfl

theorem tryLoad_arm (s : State) (x : Stream) (arm : Arm) : (s.tryLoad x arm).arm x arm = (s.arm x arm).load := by
  unfold State.tryLoad ArmRec.load ArmRec.mayLoad
  dsimp only
  split
  · exact arm_setArm _ _ _ _
  · rfl

theorem pressTaken_arm (s : State) (x : Stream) (arm : Arm) (b : Bool) :
    (s.pressTaken x arm b).arm x arm = (s.arm x arm).press b (s.stream x).splicerReady.level := by
  unfold State.pressTaken ArmRec.press
  split
  · exact arm_setArm _ _ _ _
  · rfl

/-- The events of an arm make of its record what R103 and R104 say. -/
theorem armEvents_own (s : State) (x : Stream) (arm : Arm) (old : ArmRec) :
    (s.armEvents x arm old).arm x arm = (s.arm x arm).event old (s.stream x).splicerReady.level := by
  have kept := (reelTaken_keeps s x arm old).tryLoad arm
  have ready : (((s.reelTaken x arm old).tryLoad x arm).stream x).splicerReady = (s.stream x).splicerReady :=
    (congrArg StreamRec.splicerReady kept.own :)
  have reel : (s.reelTaken x arm old).arm x arm =
      if (s.arm x arm).leaves old then (s.arm x arm).left ((s.arm x arm).gone old) else s.arm x arm := by
    unfold State.reelTaken
    split
    · exact reelLeaves_arm _ _ _ _
    · rfl
  rw [arm_of_splice (armEvents_splice s x arm old), pressTaken_arm, tryLoad_arm, reel, ready]
  rfl

/-! ### The other arm -/

/-- What the events of one arm make of the other: nothing, and the web is as it was; or the web has broken (R104, R122). -/
def OtherArm (x : Stream) (other : Arm) (s t : State) : Prop :=
  (t.arm x other = s.arm x other ∧ ∀ w, (s.stream x).slot = some w → w.chosen = some other → (t.stream x).slot = some w) ∨
  (t.arm x other = (s.arm x other).webBroken ∧ (t.stream x).broken = true ∧ (t.stream x).running = none)

theorem chosenBy_iff {state : SlotState} : s.chosenBy x arm state = true ↔
    ∃ v, (s.stream x).slot = some v ∧ v.state = state ∧ v.chosen = some arm := by
  unfold State.chosenBy
  cases (s.stream x).slot with
  | none => simp
  | some v => simp

theorem setArm_otherArm (r : ArmRec) (h : other ≠ own) : OtherArm x other s (s.setArm x own r) := by
  refine .inl ⟨arm_setArm_other _ _ _ h, fun w slot _ => ?_⟩
  rw [stream_setArm]
  exact slot

theorem breakWeb_otherArm (s : State) {left : Option Arm} (h : left ≠ some other) : OtherArm x other s (s.breakWeb x left) := by
  refine .inr ⟨?_, ?_⟩
  · rw [breakWeb_arm, decide_eq_false h]
    rfl
  · rw [breakWeb_stream]
    exact ⟨rfl, rfl⟩

theorem abortSplice_otherArm (h : other ≠ own) (committed : s.chosenBy x own .committed = true) :
    OtherArm x other s ((s.setArm x own r).abortSplice x) := by
  obtain ⟨v, slot, -, chosen⟩ := chosenBy_iff.mp committed
  refine .inl ⟨(abortSplice_arms _ _ _).trans (arm_setArm_other _ _ _ h), fun w held by_ => ?_⟩
  rw [slot] at held
  cases held
  rw [chosen] at by_
  cases by_
  exact absurd rfl h

theorem reelLeaves_otherArm (s : State) (gone : Bool) (h : other ≠ own) : OtherArm x other s (s.reelLeaves x own gone) := by
  have same : OtherArm x other s s := .inl ⟨rfl, fun _ slot _ => slot⟩
  cases e : (s.arm x own).state with
  | empty =>
    rw [reelLeaves_empty e]
    exact same
  | loaded => exact reelLeaves_loaded e gone ▸ setArm_otherArm _ h
  | ready =>
    rw [reelLeaves_ready e]
    split
    · exact breakWeb_otherArm s fun e => h (Option.some.inj e).symm
    · split
      · next committed => exact abortSplice_otherArm h committed
      · exact setArm_otherArm _ h
  | running => exact reelLeaves_running e gone ▸ breakWeb_otherArm s nofun
  | stopping =>
    rw [reelLeaves_stopping e]
    split
    · exact setArm_otherArm _ h
    · exact same

theorem OtherArm.setArm (k : OtherArm x other s t) (r : ArmRec) (h : other ≠ own) : OtherArm x other s (t.setArm x own r) := by
  have slot : ((t.setArm x own r).stream x).slot = (t.stream x).slot := by rw [stream_setArm]
  have web : ((t.setArm x own r).stream x).broken = (t.stream x).broken ∧
      ((t.setArm x own r).stream x).running = (t.stream x).running := by
    rw [stream_setArm]
    exact ⟨rfl, rfl⟩
  unfold OtherArm
  rw [arm_setArm_other _ _ _ h, slot, web.1, web.2]
  exact k

theorem armEvents_other (s : State) (old : ArmRec) (h : other ≠ own) : OtherArm x other s (s.armEvents x own old) := by
  have reel : OtherArm x other s (s.reelTaken x own old) := by
    unfold State.reelTaken
    split
    · exact reelLeaves_otherArm s _ h
    · exact .inl ⟨rfl, fun _ slot _ => slot⟩
  have loaded : OtherArm x other s ((s.reelTaken x own old).tryLoad x own) := by
    rcases tryLoad_eq (s.reelTaken x own old) x own with e | e <;> rw [e]
    · exact reel
    · exact reel.setArm _ h
  have pressed : OtherArm x other s
      (((s.reelTaken x own old).tryLoad x own).pressTaken x own ((s.arm x own).pressed old)) := by
    unfold State.pressTaken
    split
    · exact loaded.setArm _ h
    · exact loaded
  unfold OtherArm
  rw [arm_of_splice (armEvents_splice s x own old), stream_of_splice (armEvents_splice s x own old)]
  exact pressed

/-- A reel that leaves the RUNNING arm, or the READY arm of a FIRED splice, breaks the web (R104, R122). -/
theorem armEvents_breaks (leaves : (s.arm x arm).leaves old = true) (h : (s.arm x arm).state = .running ∨
    ((s.arm x arm).state = .ready ∧ s.chosenBy x arm .fired = true)) :
    ((s.armEvents x arm old).stream x).broken = true ∧ ((s.armEvents x arm old).stream x).running = none := by
  have broke : ∃ left, s.reelTaken x arm old = s.breakWeb x left := by
    unfold State.reelTaken
    rw [if_pos leaves]
    rcases h with running | ⟨ready, fired⟩
    · exact ⟨none, reelLeaves_running running _⟩
    · exact ⟨some arm, (reelLeaves_ready ready _).trans (if_pos fired)⟩
  obtain ⟨left, broke⟩ := broke
  have kept := ((EventsKeep.refl x (s.reelTaken x arm old)).tryLoad arm).pressTaken arm ((s.arm x arm).pressed old)
  rw [stream_of_splice (armEvents_splice s x arm old)]
  refine kept.broken ?_
  rw [broke, breakWeb_stream]
  exact ⟨rfl, rfl⟩

/-! ### The levels of a read, and the events of both arms (R100, log 19) -/

/-- A stream's record with the levels of a read taken (R100, R101). -/
def StreamRec.levels (r : StreamRec) (v : StandLevels) (now : Nat) : StreamRec :=
  { r with
    linkFault := false, seen := true
    arms := ⟨r.arms.a.read v.armA now (!r.seen), r.arms.b.read v.armB now (!r.seen)⟩
    splicerReady := r.splicerReady.read v.splicerReady now (!r.seen) }

/-- All the levels of a read are taken before its events (log 19). -/
def State.levelsTaken (s : State) (x : Stream) (v : StandLevels) : State :=
  (s.setStream x ((s.stream x).levels v s.lmu.ticks)).push (if (s.stream x).linkFault = true then [.deferred x] else [])

/-- The events of arm A, and then those of arm B (log 19). -/
def State.bothEvents (s : State) (x : Stream) (old : PerArm ArmRec) : State :=
  (s.armEvents x .a old.a).armEvents x .b old.b

theorem takeRead_eq (s : State) (x : Stream) (v : StandLevels) :
    s.takeRead x v = (s.levelsTaken x v).bothEvents x (s.stream x).arms := by
  let due := if (s.stream x).linkFault = true then [Task.deferred x] else []
  have cleared : s.clearFault x = (s.setStream x { s.stream x with linkFault := false }).push due := clearFault_eq s x
  have record : (s.clearFault x).stream x = { s.stream x with linkFault := false } := by
    rw [cleared]
    exact State.stream_setStream _ _ _
  have taken : (s.clearFault x).setStream x ((s.stream x).levels v s.lmu.ticks) = s.levelsTaken x v := by
    rw [cleared]
    exact congrArg (State.push · due) (setStream_setStream s x _ _)
  have ticks : (s.clearFault x).lmu = s.lmu := by
    rw [cleared]
    rfl
  unfold State.takeRead
  rw [← taken]
  dsimp only
  rw [record, ticks]
  rfl

/-! ### What the events make of an arm, by its state -/

theorem ArmRec.load_other (h : r.state ≠ .empty) : r.load = r := if_neg (by simp [ArmRec.mayLoad, h])

theorem ArmRec.load_undeclared (h : r.declaration = none) : r.load = r := if_neg (by simp [ArmRec.mayLoad, h])

theorem ArmRec.press_other (h : r.state ≠ .loaded) (b c : Bool) : r.press b c = r := if_neg (by simp [h])

theorem ArmRec.event_stays (h : r.leaves old = false) (ready : Bool) :
    r.event old ready = r.load.press (r.pressed old) ready := by
  unfold ArmRec.event
  rw [h]
  rfl

theorem ArmRec.emptied_idle (r : ArmRec) (b c : Bool) : r.emptied.load.press b c = r.emptied := by
  have empty : r.emptied.state ≠ .loaded := by
    change ArmState.empty ≠ .loaded
    decide
  rw [ArmRec.load_undeclared rfl, ArmRec.press_other empty]

/-- A reel that leaves a LOADED or READY arm makes it EMPTY without a declaration (R104). -/
theorem ArmRec.event_emptied (h : r.state = .loaded ∨ r.state = .ready) (leaves : r.leaves old = true) (ready : Bool) :
    r.event old ready = r.emptied := by
  have left : r.left (r.gone old) = r.emptied := by
    unfold ArmRec.left
    rcases h with h | h <;> rw [h]
  unfold ArmRec.event
  rw [if_pos leaves, left, ArmRec.emptied_idle]

/-- A READY arm whose reel stays is as it was. -/
theorem ArmRec.event_ready (h : r.state = .ready) (stays : r.leaves old = false) (ready : Bool) : r.event old ready = r := by
  rw [ArmRec.event_stays stays, ArmRec.load_other (by rw [h]; exact nofun), ArmRec.press_other (by rw [h]; exact nofun)]

/-- A STOPPING arm is EMPTY once present has cleared, and STOPPING while only latched has (R104). -/
theorem ArmRec.event_stopping (h : r.state = .stopping) (old : ArmRec) (ready : Bool) :
    r.event old ready = if r.gone old then r.emptied else r := by
  have left : r.left (r.gone old) = if r.gone old then r.emptied else r := by
    unfold ArmRec.left
    rw [h]
  have same : r.load.press (r.pressed old) ready = r := by
    rw [ArmRec.load_other (by rw [h]; exact nofun), ArmRec.press_other (by rw [h]; exact nofun)]
  by_cases gone : r.gone old = true
  · have leaves : r.leaves old = true := by
      unfold ArmRec.leaves
      rw [gone]
      rfl
    unfold ArmRec.event
    rw [if_pos leaves, left, if_pos gone, ArmRec.emptied_idle]
  · rw [if_neg gone]
    unfold ArmRec.event
    rw [left, if_neg gone, ite_self, same]

/-- A LOADED arm whose reel stays is READY after a press with splicer-ready set (R103). -/
theorem ArmRec.event_loaded (h : r.state = .loaded) (stays : r.leaves old = false) (ready : Bool) :
    r.event old ready = if r.pressed old = true ∧ ready = true then { r with state := .ready } else r := by
  rw [ArmRec.event_stays stays, ArmRec.load_other (by rw [h]; exact nofun)]
  unfold ArmRec.press
  simp [h]

/-- A declared EMPTY arm whose reel is in place is LOADED, and READY where the button is pressed in the same read. -/
theorem ArmRec.event_empty (h : r.state = .empty) (declared : r.declaration ≠ none) (present : r.present.level = true)
    (latched : r.latched.level = true) (stays : r.leaves old = false) (idle : ¬ (r.pressed old = true ∧ ready = true)) :
    (r.event old ready).state = .loaded := by
  have load : r.load = { r with state := .loaded } :=
    if_pos (by simp [ArmRec.mayLoad, h, present, latched, Option.isSome_iff_ne_none.mpr declared])
  rw [ArmRec.event_stays stays, load]
  unfold ArmRec.press
  rw [if_neg (by simpa using idle)]

/-- A RUNNING arm at a web break is STOPPING, or EMPTY without a declaration where its reel is gone (R122). -/
theorem ArmRec.webBroken_running (h : r.state = .running) :
    (r.present.level = true ∧ r.webBroken.state = .stopping) ∨
    (r.present.level = false ∧ r.webBroken.state = .empty ∧ r.webBroken.declaration = none) := by
  unfold ArmRec.webBroken
  rw [if_pos (by rw [h]; rfl)]
  cases e : r.present.level with
  | true => exact .inl ⟨rfl, rfl⟩
  | false => exact .inr ⟨rfl, rfl, rfl⟩

/-- A RUNNING arm whose reel leaves is as the web break leaves it (R104, R122). -/
theorem ArmRec.event_running (h : r.state = .running) (leaves : r.leaves old = true) (ready : Bool) :
    r.event old ready = r.webBroken := by
  have left : r.left (r.gone old) = r.webBroken := by
    unfold ArmRec.left
    rw [h]
  unfold ArmRec.event
  rw [if_pos leaves, left]
  rcases r.webBroken_running h with ⟨-, state⟩ | ⟨-, state, declaration⟩
  · rw [ArmRec.load_other (by rw [state]; exact nofun), ArmRec.press_other (by rw [state]; exact nofun)]
  · rw [ArmRec.load_undeclared declaration, ArmRec.press_other (by rw [state]; exact nofun)]

/-- An arm that a web break has left has no event more in the same read. -/
theorem ArmRec.event_webBroken (h : r.state = .running) (old : ArmRec) (ready : Bool) :
    r.webBroken.event old ready = r.webBroken := by
  rcases r.webBroken_running h with ⟨present, state⟩ | ⟨-, state, declaration⟩
  · have held : r.webBroken.present = r.present := (ArmRec.inputs_eq r.webBroken_inputs).1
    rw [ArmRec.event_stopping state, if_neg]
    unfold ArmRec.gone
    rw [held, present]
    simp
  · have left : r.webBroken.left (r.webBroken.gone old) = r.webBroken := by
      unfold ArmRec.left
      rw [state]
    unfold ArmRec.event
    rw [left, ite_self, ArmRec.load_undeclared declaration, ArmRec.press_other (by rw [state]; exact nofun)]

/-! ### An arm's events see its stand alone -/

theorem ArmRec.load_stand (h : q.stand = r.stand) : q.load.stand = r.load.stand := by
  obtain ⟨state, declaration, -⟩ := ArmRec.stand_eq h
  obtain ⟨present, latched, -, -⟩ := ArmRec.inputs_eq (ArmRec.inputs_of_stand h)
  have may : q.mayLoad = r.mayLoad := by
    unfold ArmRec.mayLoad
    rw [state, declaration, present, latched]
  unfold ArmRec.load
  rw [may]
  split
  · exact congrArg (fun v => (ArmState.loaded, v.2)) h
  · exact h

theorem ArmRec.press_stand (h : q.stand = r.stand) (b c : Bool) : (q.press b c).stand = (r.press b c).stand := by
  unfold ArmRec.press
  rw [(ArmRec.stand_eq h).1]
  split
  · exact congrArg (fun v => (ArmState.ready, v.2)) h
  · exact h

theorem ArmRec.left_stand (h : q.stand = r.stand) (other : r.state ≠ .running) (b : Bool) : (q.left b).stand = (r.left b).stand := by
  have emptied : q.emptied.stand = r.emptied.stand := congrArg (fun v => (ArmState.empty, none, none, v.2.2.2)) h
  unfold ArmRec.left
  rw [(ArmRec.stand_eq h).1]
  cases e : r.state with
  | empty => exact h
  | loaded => exact emptied
  | ready => exact emptied
  | running => exact absurd e other
  | stopping =>
    cases b with
    | true => exact emptied
    | false => exact h

theorem ArmRec.event_stand (h : q.stand = r.stand) (other : r.state ≠ .running) (old : ArmRec) (ready : Bool) :
    (q.event old ready).stand = (r.event old ready).stand := by
  obtain ⟨present, latched, button, -⟩ := ArmRec.inputs_eq (ArmRec.inputs_of_stand h)
  have gone : q.gone old = r.gone old := by
    unfold ArmRec.gone
    rw [present]
  have leaves : q.leaves old = r.leaves old := by
    unfold ArmRec.leaves
    rw [gone, latched]
  have pressed : q.pressed old = r.pressed old := by
    unfold ArmRec.pressed
    rw [button]
  unfold ArmRec.event
  rw [leaves, gone, pressed]
  refine ArmRec.press_stand (ArmRec.load_stand ?_) _ _
  split
  · exact ArmRec.left_stand h other _
  · exact h

theorem ArmRec.event_not_running (h : r.state ≠ .running) (old : ArmRec) (ready : Bool) :
    (r.event old ready).state ≠ .running := by
  have left (b : Bool) : (r.left b).state ≠ .running := by
    unfold ArmRec.left
    cases e : r.state with
    | empty => exact h
    | loaded => exact nofun
    | ready => exact nofun
    | running => exact absurd e h
    | stopping =>
      cases b with
      | true => exact nofun
      | false => exact h
  have load {v : ArmRec} (k : v.state ≠ .running) : v.load.state ≠ .running := by
    unfold ArmRec.load
    split
    · exact nofun
    · exact k
  have press {v : ArmRec} (k : v.state ≠ .running) (b c : Bool) : (v.press b c).state ≠ .running := by
    unfold ArmRec.press
    split
    · exact nofun
    · exact k
  unfold ArmRec.event
  refine press (load ?_) _ _
  split
  · exact left _
  · exact h

/-! ### The events of both arms -/

theorem bothEvents_keeps (s : State) (x : Stream) (old : PerArm ArmRec) : EventsKeep x s (s.bothEvents x old) :=
  ((EventsKeep.refl x s).armEvents .a old.a).armEvents .b old.b

/-- An arm that is not RUNNING goes through its own events alone, whatever those of the other arm do to the web. -/
theorem bothEvents_stand (s : State) (x : Stream) (old : PerArm ArmRec) (arm : Arm) (h : (s.arm x arm).state ≠ .running) :
    ((s.bothEvents x old).arm x arm).stand = ((s.arm x arm).event (old.get arm) (s.stream x).splicerReady.level).stand := by
  cases arm with
  | a =>
    have own := armEvents_own s x .a old.a
    have still : ((s.armEvents x .a old.a).arm x .a).state ≠ .running := own ▸ ArmRec.event_not_running h _ _
    rcases armEvents_other (x := x) (own := .b) (other := .a) (s.armEvents x .a old.a) old.b nofun with ⟨same, -⟩ | ⟨broken, -⟩
    · exact congrArg ArmRec.stand (same.trans own)
    · exact (congrArg ArmRec.stand broken).trans ((ArmRec.webBroken_stand still).trans (congrArg ArmRec.stand own))
  | b =>
    have own := armEvents_own (s.armEvents x .a old.a) x .b old.b
    have ready : ((s.armEvents x .a old.a).stream x).splicerReady = (s.stream x).splicerReady :=
      (congrArg StreamRec.splicerReady ((EventsKeep.refl x s).armEvents .a old.a).own :)
    have before : ((s.armEvents x .a old.a).arm x .b).stand = (s.arm x .b).stand := by
      rcases armEvents_other (x := x) (own := .a) (other := .b) s old.a nofun with ⟨same, -⟩ | ⟨broken, -⟩
      · rw [same]
      · rw [broken, ArmRec.webBroken_stand h]
    rw [ready] at own
    exact (congrArg ArmRec.stand own).trans (ArmRec.event_stand before h _ _)

/-- The RUNNING arm that its reel leaves is as the web break leaves it (R104, R122). -/
theorem bothEvents_running (s : State) (x : Stream) (old : PerArm ArmRec) (arm : Arm) (h : (s.arm x arm).state = .running)
    (leaves : (s.arm x arm).leaves (old.get arm) = true) :
    ((s.bothEvents x old).arm x arm).state = (s.arm x arm).webBroken.state := by
  cases arm with
  | a =>
    have own := (armEvents_own s x .a old.a).trans (ArmRec.event_running h leaves _)
    have still : (s.arm x .a).webBroken.state ≠ .running := by
      rcases (s.arm x .a).webBroken_running h with ⟨-, state⟩ | ⟨-, state, -⟩ <;> rw [state] <;> exact nofun
    rcases armEvents_other (x := x) (own := .b) (other := .a) (s.armEvents x .a old.a) old.b nofun with ⟨same, -⟩ | ⟨broken, -⟩
    · exact congrArg ArmRec.state (same.trans own)
    · rw [own] at broken
      exact (congrArg ArmRec.state broken).trans (ArmRec.stand_eq (ArmRec.webBroken_stand still)).1
  | b =>
    have own := armEvents_own (s.armEvents x .a old.a) x .b old.b
    refine (congrArg ArmRec.state own).trans ?_
    rcases armEvents_other (x := x) (own := .a) (other := .b) s old.a nofun with ⟨same, -⟩ | ⟨broken, -⟩
    · rw [same]
      exact congrArg ArmRec.state (ArmRec.event_running h leaves _)
    · rw [broken, ArmRec.event_webBroken h]

/-- A reel that leaves the RUNNING arm, or the READY arm of a FIRED splice, breaks the web (R104, R122). -/
theorem bothEvents_breaks (s : State) (x : Stream) (old : PerArm ArmRec) (arm : Arm)
    (leaves : (s.arm x arm).leaves (old.get arm) = true) (h : (s.arm x arm).state = .running ∨
      ((s.arm x arm).state = .ready ∧ s.chosenBy x arm .fired = true)) :
    ((s.bothEvents x old).stream x).broken = true ∧ ((s.bothEvents x old).stream x).running = none := by
  cases arm with
  | a => exact ((EventsKeep.refl x _).armEvents .b old.b).broken (armEvents_breaks leaves h)
  | b =>
    rcases armEvents_other (x := x) (own := .a) (other := .b) s old.a nofun with ⟨same, slot⟩ | ⟨-, broken⟩
    · refine armEvents_breaks (by rw [same]; exact leaves) ?_
      rw [same]
      refine h.imp_right fun ⟨ready, fired⟩ => ⟨ready, ?_⟩
      obtain ⟨v, held, state, chosen⟩ := chosenBy_iff.mp fired
      exact chosenBy_iff.mpr ⟨v, slot v held chosen, state, chosen⟩
    · exact ((EventsKeep.refl x _).armEvents .b old.b).broken broken

/-! ### The read of a stand -/

theorem Untouched.linkFault (h : Untouched s t) (x : Stream) : (t.stream x).linkFault = (s.stream x).linkFault :=
  congrArg StreamStand.linkFault (h.stands x)

theorem Untouched.seen (h : Untouched s t) (x : Stream) : (t.stream x).seen = (s.stream x).seen :=
  congrArg StreamStand.seen (h.stands x)

theorem Untouched.readPending (h : Untouched s t) (x : Stream) : (t.stream x).readPending = (s.stream x).readPending :=
  congrArg StreamStand.readPending (h.stands x)

theorem Untouched.splicerReady (h : Untouched s t) (x : Stream) : (t.stream x).splicerReady = (s.stream x).splicerReady :=
  congrArg StreamStand.splicerReady (h.stands x)

/-- The state with the levels of a successful read of the stream addressed taken, before the events that they bring. -/
def State.readTaken (s : State) (x : Stream) (v : StandLevels) : State := (s.freeLink.readMade x).levelsTaken x v

theorem readMade_arms (s : State) (x : Stream) : ((s.freeLink.readMade x).stream x).arms = (s.stream x).arms := by
  rw [State.readMade_stream]
  rfl

theorem readMade_lmu (s : State) (x : Stream) : (s.freeLink.readMade x).lmu = s.lmu :=
  (congrArg State.lmu (readMade_spliceAlone s.freeLink x) :)

theorem standRead_eq {n : Nat} {o : StandOutputs} (busy : s.splice.link.busy = some ⟨x, false, n, o⟩) (v : StandLevels) :
    s.standRead v = (s.readTaken x v).bothEvents x (s.stream x).arms := by
  unfold State.standRead
  rw [busy]
  dsimp only
  rw [if_neg nofun, takeRead_eq, readMade_arms]
  rfl

theorem readTaken_stream (s : State) (x : Stream) (v : StandLevels) : (s.readTaken x v).stream x =
    { (s.stream x).levels v s.lmu.ticks with readPending := ((s.freeLink.readMade x).stream x).readPending } := by
  unfold State.readTaken State.levelsTaken
  refine (State.stream_setStream _ _ _).trans ?_
  rw [readMade_lmu, State.readMade_stream]
  rfl

theorem readTaken_stream_other (s : State) (v : StandLevels) (h : y ≠ x) :
    (s.readTaken x v).stream y = (s.freeLink.readMade x).stream y := stream_setStream_other _ _ h

theorem readTaken_readPending (s : State) (x y : Stream) (v : StandLevels) :
    ((s.readTaken x v).stream y).readPending = ((s.freeLink.readMade x).stream y).readPending := by
  by_cases h : y = x
  · rw [h, readTaken_stream]
  · rw [readTaken_stream_other s v h]

theorem readTaken_arm_other (s : State) (v : StandLevels) (arm : Arm) (h : y ≠ x) :
    (s.readTaken x v).arm y arm = s.arm y arm := by
  unfold State.arm
  rw [readTaken_stream_other s v h, State.readMade_stream]
  rfl

/-- The levels that a read shows of an arm. -/
def armLevels (v : StandLevels) : Arm → ArmLevels
  | .a => v.armA
  | .b => v.armB

theorem readTaken_arm (s : State) (x : Stream) (v : StandLevels) (arm : Arm) :
    (s.readTaken x v).arm x arm = (s.arm x arm).read (armLevels v arm) s.lmu.ticks (!(s.stream x).seen) := by
  unfold State.arm
  rw [readTaken_stream]
  cases arm with
  | a => rfl
  | b => rfl

/-- What a successful read leaves behind its events and the acts that follow: the inputs as the read took them. -/
theorem standRead_keeps {n : Nat} {o : StandOutputs} (busy : s.splice.link.busy = some ⟨x, false, n, o⟩) (v : StandLevels) :
    EventsKeep x (s.readTaken x v) (s.standRead v) := by
  rw [standRead_eq busy]
  exact bothEvents_keeps _ x _

theorem EventsKeep.readPending (h : EventsKeep x s t) (y : Stream) : (t.stream y).readPending = (s.stream y).readPending := by
  by_cases e : y = x
  · rw [e]
    exact (congrArg StreamRec.readPending h.own :)
  · rw [h.others y e]

/-- Settles O20. -/
theorem standReadDebouncesTheInputs : Obligations.StandReadDebouncesTheInputs := by
  intro v s x n o running busy
  let made : Transaction := ⟨x, false, n, o⟩
  have events := standRead_keeps busy v
  have kept := settled_untouched (s.standRead v)
  have record := readTaken_stream s x v
  have inputs (arm : Arm) : ((s.standRead v).settled.arm x arm).inputs = ((s.readTaken x v).arm x arm).inputs :=
    (ArmRec.inputs_of_stand (kept.arm x arm)).trans (events.inputs arm)
  have debounced (arm : Arm) := (arm_read_debounces (s.arm x arm) (armLevels v arm) s.lmu.ticks (!(s.stream x).seen)).of_inputs
    ((inputs arm).trans (congrArg ArmRec.inputs (readTaken_arm s x v arm)))
  have figures : (s.readTaken x v).lmu = s.lmu ∧ (s.readTaken x v).profile = s.profile :=
    ⟨readMade_lmu s x, (congrArg State.profile (readMade_spliceAlone s.freeLink x) :)⟩
  refine ⟨(s.standRead v).settled, exec_settles (.standRead v) s nofun nofun running, ?_, fun y => ?_, ?_, ?_, debounced .a,
    debounced .b, ?_, fun y arm h => ?_, ?_, ?_⟩
  · refine (kept.link.trans events.link).trans ((givenUp_link s made).trans ?_)
    simp only [made, true_and]
  · rw [kept.readPending, events.readPending, readTaken_readPending]
    exact (givenUp_readPending s made y).trans (by simp [made, and_assoc])
  · exact ((kept.linkFault x).trans (congrArg StreamRec.linkFault events.own :)).trans (by rw [record]; rfl)
  · exact ((kept.seen x).trans (congrArg StreamRec.seen events.own :)).trans (by rw [record]; rfl)
  · have same : ((s.standRead v).settled.stream x).splicerReady =
        (s.stream x).splicerReady.read v.splicerReady s.lmu.ticks (!(s.stream x).seen) :=
      ((kept.splicerReady x).trans (congrArg StreamRec.splicerReady events.own :)).trans (by rw [record]; rfl)
    exact same.symm ▸ read_debounces _ _ _ _
  · refine (kept.arm y arm).trans (congrArg ArmRec.stand ?_)
    rw [← readTaken_arm_other s v arm h]
    exact congrArg (fun r : StreamRec => r.arms.get arm) (events.others y h)
  · exact (kept.lmu.trans events.lmu).trans figures.1
  · exact (kept.profile.trans events.profile).trans figures.2

theorem ArmRec.leaves_iff : q.leaves r = true ↔ (r.present.level = true ∧ q.present.level = false) ∨
    (r.latched.level = true ∧ q.latched.level = false) := by
  simp [ArmRec.leaves, ArmRec.gone]

theorem ArmRec.gone_iff : q.gone r = true ↔ r.present.level = true ∧ q.present.level = false := by
  simp [ArmRec.gone]

theorem ArmRec.pressed_iff : q.pressed r = true ↔ r.button.level = false ∧ q.button.level = true := by
  simp [ArmRec.pressed]

/-- A reel in place does not leave. -/
theorem ArmRec.leaves_inPlace (present : q.present.level = true) (latched : q.latched.level = true) : q.leaves r = false := by
  simp [ArmRec.leaves, ArmRec.gone, present, latched]

/-- Settles O21. -/
theorem standReadMovesTheArm : Obligations.StandReadMovesTheArm := by
  intro v s x n o arm running busy
  let t := (s.standRead v).settled
  let q := (s.readTaken x v).arm x arm
  have made := standRead_eq busy v
  have events := standRead_keeps busy v
  have kept : Untouched (s.standRead v) t := settled_untouched _
  have levels : q = (s.arm x arm).read (armLevels v arm) s.lmu.ticks (!(s.stream x).seen) := readTaken_arm s x v arm
  have state : q.state = (s.arm x arm).state := by rw [levels]; rfl
  have declaration : q.declaration = (s.arm x arm).declaration := by rw [levels]; rfl
  have start : q.startCount = (s.arm x arm).startCount := by rw [levels]; rfl
  have slot : ((s.readTaken x v).stream x).slot = (s.stream x).slot := by rw [readTaken_stream]; rfl
  obtain ⟨present, latched, button, -⟩ := ArmRec.inputs_eq
    ((ArmRec.inputs_of_stand (kept.arm x arm)).trans (events.inputs arm))
  have ready : (t.stream x).splicerReady = ((s.readTaken x v).stream x).splicerReady :=
    (kept.splicerReady x).trans (congrArg StreamRec.splicerReady events.own :)
  have moved (h : q.state ≠ .running) :
      (t.arm x arm).stand = (q.event (s.arm x arm) ((s.readTaken x v).stream x).splicerReady.level).stand := by
    rw [kept.arm x arm, made]
    exact bothEvents_stand _ x _ arm h
  have broke (leaves : q.leaves (s.arm x arm) = true) (h : q.state = .running ∨
      (q.state = .ready ∧ (s.readTaken x v).chosenBy x arm .fired = true)) :
      (t.stream x).broken = true ∧ (t.stream x).running = none := by
    rw [kept.broken, kept.running, made]
    exact bothEvents_breaks _ x _ arm leaves h
  have ends (h : q.state ≠ .running) := ArmRec.stand_eq (moved h)
  refine ⟨t, exec_settles (.standRead v) s nofun nofun running, ?_⟩
  dsimp only
  rw [present, latched, button, ready, ← ArmRec.leaves_iff, ← ArmRec.gone_iff, ← ArmRec.pressed_iff, ← state, ← declaration,
    ← start]
  refine ⟨fun empty declared _ present latched idle => ?_, fun loaded present latched => ?_, fun isReady stays => ?_,
    fun held leaves => ?_, fun isReady leaves fired => ?_, fun stopping => ?_, fun runs _ leaves => ?_⟩
  · rw [(ends (by rw [empty]; exact nofun)).1]
    exact ArmRec.event_empty empty declared present latched (ArmRec.leaves_inPlace present latched) idle
  · obtain ⟨toState, toDeclaration, -⟩ := ends (by rw [loaded]; exact nofun)
    rw [toState, toDeclaration, ArmRec.event_loaded loaded (ArmRec.leaves_inPlace present latched)]
    refine ⟨fun readied => ?_, fun idle => ?_, ?_⟩
    · rw [if_pos readied]
    · rw [if_neg idle, loaded]
    · split
      · rfl
      · rfl
  · obtain ⟨toState, toDeclaration, -⟩ := ends (by rw [isReady]; exact nofun)
    rw [toState, toDeclaration, ArmRec.event_ready isReady (Bool.not_eq_true _ |>.mp stays)]
    exact ⟨isReady, rfl⟩
  · obtain ⟨toState, toDeclaration, -⟩ := ends (by rcases held with h | h <;> rw [h] <;> exact nofun)
    rw [toState, toDeclaration, ArmRec.event_emptied held leaves]
    exact ⟨rfl, rfl⟩
  · refine broke leaves (.inr ⟨isReady, chosenBy_iff.mpr ?_⟩)
    rw [slot]
    exact fired
  · obtain ⟨toState, toDeclaration, toStart⟩ := ends (by rw [stopping]; exact nofun)
    rw [toState, toDeclaration, toStart, ArmRec.event_stopping stopping]
    refine ⟨fun gone => ?_, fun stays => ?_⟩
    · rw [if_pos gone]
      exact ⟨rfl, rfl, rfl⟩
    · rw [if_neg stays]
      exact ⟨stopping, rfl, rfl⟩
  · obtain ⟨broken, none_⟩ := broke leaves (.inl runs)
    have halted : (t.arm x arm).state = q.webBroken.state := by
      rw [(ArmRec.stand_eq (kept.arm x arm)).1, made]
      exact bothEvents_running _ x _ arm runs leaves
    refine ⟨broken, none_, ?_⟩
    rw [halted, q.webBroken_facts.2, if_pos runs]
end Sys2Proof.Machine
end

section
/-! PROOF. The drive of a committed reel, and the tests of a COMMITTED or FIRED slot (R98, R106, R113 to R117): O22 and O24. -/

namespace Sys2Proof.Machine

variable {s t u : State} {x y : Stream} {arm : Arm} {v : Slot}

/-! ### A stray done pulse (R117) -/

theorem donePulse_stray (h : ∀ v, (s.stream x).slot = some v → v.state ≠ .fired) :
    s.donePulse x = (s.setStream x { s.stream x with doneSample := .high }).raise .spliceFault := by
  unfold State.donePulse State.doneAct
  rw [State.stream_setStream]
  dsimp only
  split
  · next v slot => exact if_neg (by simpa using h v slot)
  · rfl

/-- Settles O24. -/
theorem strayDonePulseRaisesSpliceFault : Obligations.StrayDonePulseRaisesSpliceFault := by
  intro x s running quiet stray
  have act : actOf (.donePulse x) s = _ := donePulse_stray stray
  have done := exec_quiet (.donePulse x) s nofun nofun running (by rw [act]; exact quiet)
  rw [act] at done
  exact ⟨_, done, rfl, fun classes => raise_raw _ .spliceFault (classes ▸ (by decide : 2 < 13))⟩

/-! ### Drives (R98, R106) -/

/-- The delay of a DELAY mode passes while the drive is enabled (R98). -/
theorem driveGood_delay {d : Nat} (mode : (s.streamProfile x).driveMode.delay? = some d) :
    s.driveGood x arm = true ↔ (s.arm x arm).driveEnable = true ∧ d ≤ (s.arm x arm).delay := by
  unfold State.driveGood
  rw [mode]
  simp

theorem driveGood_rule : Rule.DriveGood := by
  intro x arm s
  refine ⟨fun mode => ?_, fun mode => driveGood_delay ?_, fun mode => driveGood_delay ?_, fun mode => driveGood_delay ?_,
    fun mode => driveGood_delay ?_⟩
  · unfold State.driveGood
    rw [mode]
    rfl
  all_goals rw [mode]; rfl

theorem delayReached_idle (h : (s.streamProfile x).driveMode = .input ∨ (s.arm x arm).driveEnable = false) :
    s.delayReached x arm = s := by
  unfold State.delayReached
  dsimp only
  split
  · next d mode =>
    rcases h with input | off
    · rw [input] at mode
      cases mode
    · exact if_neg (by simp [off])
  · rfl

/-- A stream's record with the delay of an arm brought up to a value (R98, log 2). -/
def State.delayAt (s : State) (x : Stream) (arm : Arm) (d : Nat) : State :=
  s.setStream x { s.stream x with arms := (s.stream x).arms.set arm { s.arm x arm with delay := max (s.arm x arm).delay d } }

theorem delayReached_due {d : Nat} (mode : (s.streamProfile x).driveMode.delay? = some d)
    (enabled : (s.arm x arm).driveEnable = true) : s.delayReached x arm = (s.delayAt x arm d).push [.fireTest x] := by
  unfold State.delayReached
  rw [mode]
  exact if_pos enabled

theorem delayAt_arm (s : State) (x : Stream) (arm : Arm) (d : Nat) :
    (s.delayAt x arm d).arm x arm = { s.arm x arm with delay := max (s.arm x arm).delay d } := by
  unfold State.delayAt
  rw [arm_setStream]
  exact PerArm.get_set_same _ _ _

theorem delayAt_stream (s : State) (x : Stream) (arm : Arm) (d : Nat) : (s.delayAt x arm d).stream x = { s.stream x with
    arms := (s.stream x).arms.set arm { s.arm x arm with delay := max (s.arm x arm).delay d } } := State.stream_setStream _ _ _

theorem delayAt_driveGood {d : Nat} (mode : (s.streamProfile x).driveMode.delay? = some d)
    (enabled : (s.arm x arm).driveEnable = true) : (s.delayAt x arm d).driveGood x arm = true := by
  refine (driveGood_delay (s := s.delayAt x arm d) mode).mpr ?_
  rw [delayAt_arm]
  exact ⟨enabled, le_max_right _ _⟩

/-! ### The fire test (R113, R119) -/

theorem fireTest_free (h : (s.stream x).slot = none) : s.fireTest x = s := by
  unfold State.fireTest
  rw [h]

theorem fireTest_waits (slot : (s.stream x).slot = some v) (h : v.state ≠ .committed ∨ s.streamPos x < v.firePoint ∨
    ∀ arm, v.chosen = some arm → s.driveGood x arm = false) : s.fireTest x = s := by
  unfold State.fireTest
  rw [slot]
  dsimp only
  split
  · next arm chosen =>
    refine if_neg ?_
    rcases h with state | early | slow
    · simp [state]
    · simp [Int.not_le.mpr early]
    · simp [slow arm chosen]
  · rfl

theorem fireTest_fires (slot : (s.stream x).slot = some v) (committed : v.state = .committed) (chosen : v.chosen = some arm)
    (reached : v.firePoint ≤ s.streamPos x) (good : s.driveGood x arm = true) : s.fireTest x = s.fireSplice x v := by
  unfold State.fireTest
  rw [slot]
  dsimp only
  rw [chosen]
  exact if_pos (by simp [committed, reached, good])

/-- A slot that fires (R113). -/
def State.firedSlot (s : State) (x : Stream) (v : Slot) : Slot :=
  { v with state := .fired, fireCount := s.streamCount x, fast := s.tooFast x, unsynced := s.laneUnsynced x }

/-- FIRE high, and the slot FIRED (R113). -/
def State.fireBegun (s : State) (x : Stream) (v : Slot) : State :=
  s.setStream x { s.stream x with slot := some (s.firedSlot x v), fire := true, fireLeft := 50 }

/-- The claim of a slot that was WRONG_GRADE closed at the seam (R114). -/
def State.fireClosed (s : State) (x : Stream) (v : Slot) : State :=
  if v.wrongGrade then (s.fireBegun x v).closeClaim (.wrongGrade x) (s.streamPos x + s.seamOffset x) else s.fireBegun x v

/-- The web from the seam's end to the boundary of an ADVANCED slot (R119). -/
def State.earlyGrade (s : State) (x : Stream) (v : Slot) : Extent :=
  .closed (s.seamExtent (s.streamPos x + s.seamOffset x) x (s.tooFast x) (s.laneUnsynced x)).2 v.boundaryPos .gradeEarly

theorem fireClosed_mapAlone (s : State) (x : Stream) (v : Slot) : MapAlone (s.fireBegun x v) (s.fireClosed x v) := by
  unfold State.fireClosed
  split
  · exact closeClaim_mapAlone _ _ _
  · exact .refl _

theorem fireSplice_eq (s : State) (x : Stream) (v : Slot) : s.fireSplice x v =
    if v.advanced then (s.fireClosed x v).insertExtent (s.earlyGrade x v) else s.fireClosed x v := by
  have place : (s.fireClosed x v).seamExtent (s.streamPos x + s.seamOffset x) x (s.tooFast x) (s.laneUnsynced x) =
      s.seamExtent (s.streamPos x + s.seamOffset x) x (s.tooFast x) (s.laneUnsynced x) :=
    seamExtent_congr (fireClosed_mapAlone s x v).profile _ _ _ _
  unfold State.earlyGrade
  rw [← place]
  rfl

theorem fireSplice_mapAlone (s : State) (x : Stream) (v : Slot) : MapAlone (s.fireBegun x v) (s.fireSplice x v) := by
  rw [fireSplice_eq]
  split
  · exact (fireClosed_mapAlone s x v).trans (insertExtent_mapAlone _ _)
  · exact fireClosed_mapAlone s x v

theorem fireClosed_lanes (s : State) (x : Stream) (v : Slot) : (s.fireClosed x v).map.lanes = s.map.lanes := by
  unfold State.fireClosed
  split
  · exact closeClaim_lanes _ _ _
  · rfl

theorem fireSplice_lanes (s : State) (x : Stream) (v : Slot) : (s.fireSplice x v).map.lanes = s.map.lanes := by
  rw [fireSplice_eq]
  split
  · exact (insertExtent_map _ _).1.trans (fireClosed_lanes s x v)
  · exact fireClosed_lanes s x v

theorem fireClosed_wrongGrade (h : v.wrongGrade = true) (s : State) (x : Stream) : s.fireClosed x v =
    (s.fireBegun x v).closeClaim (.wrongGrade x) (s.streamPos x + s.seamOffset x) := if_pos h

theorem fireSplice_claimAbsent (h : v.wrongGrade = true) (s : State) (x : Stream) :
    (s.fireSplice x v).ClaimAbsent (.wrongGrade x) := by
  have closed : (s.fireClosed x v).ClaimAbsent (.wrongGrade x) := fireClosed_wrongGrade h s x ▸ closeClaim_claimAbsent _ _ _
  rw [fireSplice_eq]
  split
  · exact ClaimAbsent.insertExtent closed List.not_mem_nil
  · exact closed

/-- A splice whose slot was neither WRONG_GRADE nor ADVANCED leaves the map. -/
theorem fireSplice_plain (right : v.wrongGrade = false) (own : v.advanced = false) (s : State) (x : Stream) :
    s.fireSplice x v = s.fireBegun x v := by
  rw [fireSplice_eq, if_neg (by simp [own])]
  exact if_neg (by simp [right])

theorem fireTest_rule : Rule.FireTest := by
  intro x s
  refine ⟨fireTest_free, fun v slot => fireTest_waits slot, fun v arm slot committed chosen reached good => ?_⟩
  rw [fireTest_fires slot committed chosen reached good]
  have alone := fireSplice_mapAlone s x v
  have streams := stream_of_splice alone.splice
  refine ⟨(streams x).trans (State.stream_setStream _ _ _), fun y h => (streams y).trans (stream_setStream_other _ _ h),
    fireSplice_lanes s x v, fun wrong => fireSplice_claimAbsent wrong s x, fun wrong own => ?_, fun early => ?_,
    fun right own => ?_, ?_⟩
  · rw [fireSplice_eq, if_neg (by simp [own]), fireClosed_wrongGrade wrong]
    exact closeClaim_closedAt (s.fireBegun x v) _ _
  · rw [fireSplice_eq, if_pos early]
    exact insertExtent_closed_covers _ _ _ _ _
  · rw [fireSplice_plain right own]
    exact ⟨rfl, rfl, rfl⟩
  · unfold MapAlone at alone
    exact congrArg (fun u : State => { u with splice := s.splice }) alone

/-! ### The delay of a drive reached (R98, R113) -/

theorem withWork_self {w : List Task} (h : s.work = w) : { s with work := w } = s :=
  congrArg (fun w => ({ s with work := w } : State)) h.symm

/-- An event that makes one act due, which makes none due itself, ends with that act. -/
theorem settled_act {a : Task} (quiet : s.work = []) (idle : (perform a s).work = []) : (s.push [a]).settled = perform a s := by
  obtain ⟨settles, done, turn⟩ := actsInTurn_rule
  have queue : lastRecompute (s.push [a]).work = [a] := by
    rw [State.work_push, quiet]
    simp [lastRecompute]
  have first : ({ s.push [a] with work := [] } : State) = s := withWork_self quiet
  have nothing : mergeWork a [] [] = [] := by
    cases a <;> rfl
  rw [settles, queue, turn 4095 _ a [] rfl, first, idle, nothing, withWork_self idle]
  exact done _ _ (.inr idle)

theorem exec_driveGoodDelay {d : Nat} (running : s.resetAsserted = false) (quiet : s.work = [])
    (mode : (s.streamProfile x).driveMode.delay? = some d) (enabled : (s.arm x arm).driveEnable = true)
    (idle : ((s.delayAt x arm d).fireTest x).work = []) :
    exec (.driveGoodDelay x arm) s = .next ((s.delayAt x arm d).fireTest x) := by
  have act : actOf (.driveGoodDelay x arm) s = (s.delayAt x arm d).push [.fireTest x] := delayReached_due mode enabled
  have one : ((s.delayAt x arm d).push [.fireTest x]).settled = (s.delayAt x arm d).fireTest x :=
    settled_act (a := .fireTest x) quiet idle
  rw [exec_settles (.driveGoodDelay x arm) s nofun nofun running, act, one]

theorem driveGoodDelay_rule : Rule.DriveGoodDelay := by
  intro x arm s running quiet
  refine ⟨fun idle => ?_, fun d mode enabled => ?_, ?_⟩
  · have act : actOf (.driveGoodDelay x arm) s = s := delayReached_idle idle
    have done := exec_quiet (.driveGoodDelay x arm) s nofun nofun running (by rw [act]; exact quiet)
    rwa [act] at done
  · have good := delayAt_driveGood mode enabled
    have record := delayAt_stream s x arm d
    have slot : ((s.delayAt x arm d).stream x).slot = (s.stream x).slot := by rw [record]
    have waits (h : (s.delayAt x arm d).fireTest x = s.delayAt x arm d) :
        exec (.driveGoodDelay x arm) s = .next (s.delayAt x arm d) :=
      (exec_driveGoodDelay running quiet mode enabled (h.symm ▸ quiet)).trans (congrArg _ h)
    refine ⟨good, fun free => waits (fireTest_free (slot.trans free)),
      fun v held other => waits (fireTest_waits (slot.trans held) (.inl other)),
      fun v held _ early => waits (fireTest_waits (slot.trans held) (.inr (.inl early))),
      fun v held committed chosen reached right own => ?_⟩
    have fires : (s.delayAt x arm d).fireTest x = (s.delayAt x arm d).fireBegun x v :=
      (fireTest_fires (slot.trans held) committed chosen reached good).trans (fireSplice_plain right own _ _)
    rw [exec_driveGoodDelay running quiet mode enabled (fires.symm ▸ quiet), fires]
    unfold State.fireBegun
    rw [record]
    exact congrArg Host.Outcome.next (setStream_setStream s x _ _)
  · exact exec_spliceAlone (.firePulseEnd x) nofun nofun running quiet rfl

/-! ### The wrong-grade test (R114) -/

theorem wrongGradeTest_rule : Rule.WrongGradeTest := by
  intro x s v slot
  have test : s.wrongGradeTest x = if v.kind == .grade && (v.state == .planned || v.state == .committed) && !v.wrongGrade &&
      v.boundaryPos < s.streamPos x + s.seamOffset x then
    (s.setSlot x (some { v with wrongGrade := true })).insertExtent (.opened v.boundaryPos .wrongGrade (.wrongGrade x)) else s := by
    unfold State.wrongGradeTest
    rw [slot]
  refine ⟨fun kept => ?_, fun passed => ?_⟩
  · rw [test]
    exact if_neg (by simpa [and_assoc] using kept)
  · rw [test, if_pos (by simpa [and_assoc] using passed)]
    have alone := insertExtent_mapAlone (s.setSlot x (some { v with wrongGrade := true }))
      (.opened v.boundaryPos .wrongGrade (.wrongGrade x))
    have streams := stream_of_splice alone.splice
    refine ⟨(streams x).trans (State.stream_setStream _ _ _), fun y h => (streams y).trans (stream_setStream_other _ _ h),
      insertExtent_opened _ _ _ _, ?_⟩
    unfold MapAlone at alone
    exact congrArg (fun u : State => { u with splice := s.splice }) alone

/-! ### The done-window test (R116) -/

theorem doneWindowTest_within (slot : (s.stream x).slot = some v)
    (h : v.state ≠ .fired ∨ s.streamCount x ≤ v.fireCount + (s.streamProfile x).doneWindow) : s.doneWindowTest x = s := by
  unfold State.doneWindowTest
  rw [slot]
  refine if_neg ?_
  rcases h with state | early
  · simp [state]
  · simp [Nat.not_lt.mpr early]

theorem doneWindowTest_passed (slot : (s.stream x).slot = some v) (fired : v.state = .fired)
    (late : v.fireCount + (s.streamProfile x).doneWindow < s.streamCount x) :
    s.doneWindowTest x = ((s.faultSplice x v).servedFor x v).raise .spliceFault := by
  unfold State.doneWindowTest
  rw [slot]
  exact if_pos (by simp [fired, late])

/-- The slot FAULT, and the drive of the arm it had chosen off (R116, steps 1 and 2). -/
def State.faultBegun (s : State) (x : Stream) (arm : Arm) (v : Slot) : State :=
  (s.setSlot x (some { v with state := .fault })).setArm x arm (s.arm x arm).disable

theorem faultSplice_eq (chosen : v.chosen = some arm) (s : State) (x : Stream) :
    s.faultSplice x v = (s.faultBegun x arm v).insertFault x v := by
  have same : (s.setSlot x (some { v with state := .fault })).arm x arm = s.arm x arm := arm_setStream s x _ arm
  have pick : v.chosen.getD .a = arm := by rw [chosen]; rfl
  unfold State.faultSplice State.faultBegun
  dsimp only
  rw [pick, same]

/-- Behind a target marked spent, the order that the window holds for it has it spent (R116, step 4). -/
theorem servedFor_spent {id : Nat} {w : WindowOrder} (target : v.target? = some id)
    (h : (s.servedFor x v).windowOrder? id = some w) : w.targetSpent.get x = true := by
  unfold State.servedFor at h
  rw [target, Option.map_some, Option.getD_some, spendTarget_windowOrder?, Option.map_eq_some_iff] at h
  obtain ⟨k, held, rfl⟩ := h
  rw [if_pos (beq_iff_eq.mpr (windowOrder?_id held))]
  exact PerStream.get_set_same _ _ _

theorem faultSplice_splice (chosen : v.chosen = some arm) (s : State) (x : Stream) :
    (s.faultSplice x v).splice = (s.faultBegun x arm v).splice := by
  rw [faultSplice_eq chosen]
  exact (insertExtent_mapAlone _ _).splice

theorem doneWindowTest_rule : Rule.DoneWindowTest := by
  intro x s v slot
  refine ⟨doneWindowTest_within slot, fun arm fired late chosen => ?_⟩
  have kept := (Untouched.refl s).doneWindowTest x
  have passed := doneWindowTest_passed slot fired late
  have splice : (s.doneWindowTest x).splice = (s.faultBegun x arm v).splice := by
    rw [passed]
    exact (servedFor_planAlone _ x v).splice.trans (faultSplice_splice chosen s x)
  have map : (s.doneWindowTest x).map = ((s.faultBegun x arm v).insertFault x v).map := by
    rw [passed, ← faultSplice_eq chosen]
    exact (congrArg State.map (servedFor_planAlone (s.faultSplice x v) x v) :)
  refine ⟨?_, ?_, kept.stands x, fun y h => ?_, ?_, fun id w kind held boundary window => ?_, fun classes => ?_⟩
  · rw [stream_of_splice splice]
    unfold State.faultBegun State.setSlot
    rw [stream_setArm, State.stream_setStream]
  · rw [arm_of_splice splice]
    unfold State.faultBegun
    rw [arm_setArm]
    rfl
  · rw [stream_of_splice splice]
    unfold State.faultBegun
    exact (stream_setArm_other _ _ _ h).trans (stream_setStream_other _ _ h)
  · unfold State.covers
    rw [map]
    exact insertExtent_closed_covers (s.faultBegun x arm v) _ _ _ _
  · rw [passed] at window
    exact servedFor_spent (s := s.faultSplice x v) (target?_eq_some.mpr ⟨kind, held, boundary⟩) window
  · rw [passed]
    refine raise_raw _ .spliceFault ?_
    have ports : ((s.faultSplice x v).servedFor x v).port .wet = (s.faultSplice x v).port .wet :=
      (congrArg (fun u : State => u.port .wet) (servedFor_planAlone (s.faultSplice x v) x v) :)
    change 2 < (((s.faultSplice x v).servedFor x v).port .wet).classes.length
    rw [ports, (((Untouched.refl s).faultSplice x v).ports .wet).classCount, classes]
    decide

/-- Settles O22. -/
theorem goodDriveFiresTheSplice : Obligations.GoodDriveFiresTheSplice :=
  ⟨driveGoodDelay_rule, driveGood_rule, fireTest_rule, wrongGradeTest_rule, doneWindowTest_rule⟩

end Sys2Proof.Machine
end

section
/-! PROOF. Reels declared and withdrawn (R102, R103, R105), and O25. -/

namespace Sys2Proof.Machine

variable {s t u : State} {x y : Stream} {arm : Arm} {r : ArmRec} {i : Instr}

/-! ### One arm's record changed -/

/-- Between two states one arm's record has changed, and whether a write of its stream is pending. -/
structure ArmAlone (x : Stream) (arm : Arm) (s t : State) : Prop where
  alone : SpliceAlone s t
  others : ∀ y, y ≠ x → t.stream y = s.stream y
  own : t.stream x = { s.stream x with arms := (t.stream x).arms, writePending := (t.stream x).writePending }
  other : t.arm x arm.other = s.arm x arm.other

theorem ArmAlone.refl (x : Stream) (arm : Arm) (s : State) : ArmAlone x arm s s := ⟨rfl, fun _ _ => rfl, rfl, rfl⟩

theorem ArmAlone.setArm (h : ArmAlone x arm s t) (r : ArmRec) : ArmAlone x arm s (t.setArm x arm r) where
  alone := h.alone
  others y e := (stream_setArm_other _ _ _ e).trans (h.others y e)
  own := by rw [stream_setArm, h.own]
  other := (arm_setArm_other _ _ _ (other_ne arm)).trans h.other

theorem ArmAlone.slot (h : ArmAlone x arm s t) : (t.stream x).slot = (s.stream x).slot := (congrArg StreamRec.slot h.own :)

theorem ArmAlone.tryLoad (h : ArmAlone x arm s t) : ArmAlone x arm s (t.tryLoad x arm) := by
  rcases tryLoad_eq t x arm with e | e <;> rw [e]
  · exact h
  · exact h.setArm _

/-- A request carried out wholly behind its reply, which changes the splice block and makes no act due. -/
theorem exec_ok_splice {p : Port} {kind : Nat} {tag : Byte} {load : List Byte} {f : State → State}
    (h : requestFrame i = some ⟨p, kind, tag, load⟩) (heard : Heard s p kind) (quiet : s.work = [])
    (v : verdictOf i s = .ok f)
    (alone : SpliceAlone (s.withFrame p (doneFrame kind tag [])) (f (s.withFrame p (doneFrame kind tag [])))) :
    exec i s = .next (f (s.withFrame p (doneFrame kind tag []))) ∧
    (f (s.withFrame p (doneFrame kind tag []))).ports = (s.withFrame p (doneFrame kind tag [])).ports ∧
    { f (s.withFrame p (doneFrame kind tag [])) with splice := s.splice, ports := s.ports } = s := by
  have work : (f (s.withFrame p (doneFrame kind tag []))).work = [] :=
    (congrArg State.work alone :).trans ((withFrame_work s p (doneFrame kind tag [])).trans quiet)
  refine ⟨?_, (congrArg State.ports alone :), ?_⟩
  · rw [exec_ok h heard v, settled_nil _ work]
  · exact congrArg (fun u : State => { u with ports := s.ports }) alone

/-! ### Declare Reel (R102, R103) -/

theorem mayDeclare_iff : s.mayDeclare x arm = true ↔ (s.arm x arm).state = .empty ∨ (s.arm x arm).state = .loaded ∨
    ((s.arm x arm).state = .ready ∧ s.spliceHolds x arm = false) := by
  unfold State.mayDeclare
  cases (s.arm x arm).state <;> simp

/-- The states of R102 and R105 in which a reel is neither declared nor withdrawn are the others. -/
theorem mayDeclare_refuses (h : (s.arm x arm).state = .running ∨ (s.arm x arm).state = .stopping ∨
    ((s.arm x arm).state = .ready ∧ s.spliceHolds x arm = true)) : s.mayDeclare x arm = false := by
  unfold State.mayDeclare
  rcases h with h | h | ⟨h, holds⟩ <;> rw [h]
  exact (congrArg (!·) holds :)

theorem declareReelVerdict_range {a b g n : Nat} (h : Stream.ofCode? a = none ∨ Arm.ofCode? b = none ∨ g = 0 ∨ 255 < g ∨ n = 0 ∨
    200000000 < n) (s : State) : declareReelVerdict a b g n s = .no .range := by
  unfold declareReelVerdict
  split
  · next x arm named =>
    refine if_neg ?_
    rcases h with h | h | h
    · rw [namedArm_none (.inl h)] at named
      cases named
    · rw [namedArm_none (.inr h)] at named
      cases named
    · simp only [gradeInRange, lengthInRange, Bool.and_eq_true, decide_eq_true_eq]
      omega
  · rfl

theorem declareReelVerdict_known {a b g n : Nat} (h : Stream.ofCode? a = some x) (k : Arm.ofCode? b = some arm) (grade : 1 ≤ g)
    (grade' : g ≤ 255) (length : 1 ≤ n) (length' : n ≤ 200000000) (s : State) : declareReelVerdict a b g n s =
      if s.mayDeclare x arm then .ok fun s => s.declareReel x arm ⟨g, n⟩ else .no .state := by
  unfold declareReelVerdict
  rw [namedArm_some h k]
  exact if_pos (by simp [gradeInRange, lengthInRange, grade, grade', length, length'])

/-- An arm with its declaration stored: a READY one is LOADED again (R102). -/
def ArmRec.declared (r : ArmRec) (d : Declaration) : ArmRec :=
  { r with declaration := some d, state := if r.state == .ready then .loaded else r.state }

theorem declareReel_armAlone (s : State) (x : Stream) (arm : Arm) (d : Declaration) : ArmAlone x arm s (s.declareReel x arm d) :=
  ((ArmAlone.refl x arm s).setArm ((s.arm x arm).declared d)).tryLoad

theorem declareReel_arm (s : State) (x : Stream) (arm : Arm) (d : Declaration) :
    (s.declareReel x arm d).arm x arm = ((s.arm x arm).declared d).load := by
  refine (tryLoad_arm (s.setArm x arm ((s.arm x arm).declared d)) x arm).trans ?_
  rw [arm_setArm]

/-- A declared arm is LOADED, but for an EMPTY one whose reel is not in place (R102, R103). -/
theorem ArmRec.declared_load (h : r.state = .empty ∨ r.state = .loaded ∨ r.state = .ready) (d : Declaration) :
    (r.declared d).load = { r with
      declaration := some d
      state := if r.state = .empty ∧ ¬ (r.present.level = true ∧ r.latched.level = true) then .empty else .loaded } := by
  unfold ArmRec.load ArmRec.mayLoad ArmRec.declared
  rcases h with h | h | h <;> rw [h]
  · cases r.present.level <;> cases r.latched.level <;> rfl
  · rfl
  · rfl

/-! ### Withdraw Reel (R105) -/

theorem withdrawReelVerdict_range {a b : Nat} (h : Stream.ofCode? a = none ∨ Arm.ofCode? b = none) (s : State) :
    withdrawReelVerdict a b s = .no .range := by
  unfold withdrawReelVerdict
  rw [namedArm_none h]

/-- The states in which a reel may be withdrawn are those in which one may be declared (R102, R105). -/
theorem withdrawReelVerdict_known {a b : Nat} (h : Stream.ofCode? a = some x) (k : Arm.ofCode? b = some arm) (s : State) :
    withdrawReelVerdict a b s = if s.mayDeclare x arm then .ok fun s => s.withdrawReel x arm else .no .state := by
  unfold withdrawReelVerdict
  rw [namedArm_some h k]
  rfl

/-- An arm without its reel's declaration: EMPTY in every case (R105). -/
def ArmRec.withdrawn (r : ArmRec) : ArmRec := if r.state == .empty then { r with declaration := none } else r.emptied

theorem ArmRec.withdrawn_facts (r : ArmRec) : r.withdrawn.state = .empty ∧ r.withdrawn.declaration = none ∧
    (r.state ≠ .empty → r.withdrawn.driveEnable = false) ∧ r.withdrawn.present = r.present ∧ r.withdrawn.latched = r.latched := by
  unfold ArmRec.withdrawn
  by_cases h : r.state = .empty
  · rw [if_pos (by rw [h]; rfl)]
    exact ⟨h, rfl, fun k => absurd h k, rfl, rfl⟩
  · rw [if_neg (by simpa using h)]
    exact ⟨rfl, rfl, fun _ => rfl, rfl, rfl⟩

theorem withdrawReel_armAlone (s : State) (x : Stream) (arm : Arm) : ArmAlone x arm s (s.withdrawReel x arm) :=
  (ArmAlone.refl x arm s).setArm (s.arm x arm).withdrawn

theorem withdrawReel_arm (s : State) (x : Stream) (arm : Arm) : (s.withdrawReel x arm).arm x arm = (s.arm x arm).withdrawn :=
  arm_setArm _ _ _ _

/-- Settles O25. -/
theorem reelsAreDeclaredAndWithdrawn : Obligations.ReelsAreDeclaredAndWithdrawn := by
  intro p tag sc ac g n s quiet
  refine ⟨fun heard => ⟨fun bad => exec_refused .range rfl quiet heard (declareReelVerdict_range bad s),
    fun x arm known named grade grade' length length' => ?_⟩,
    fun heard => ⟨fun bad => exec_refused .range rfl quiet heard (withdrawReelVerdict_range bad s), fun x arm known named => ?_⟩⟩
  · have verdict := declareReelVerdict_known known named grade grade' length length' s
    refine ⟨fun held => exec_refused .state rfl quiet heard (verdict.trans (if_neg (by simp [mayDeclare_refuses held]))),
        fun may => ?_⟩
    have declared := declareReel_armAlone (s.withFrame p (doneFrame 0x10 tag [])) x arm ⟨g, n⟩
    obtain ⟨done, ports, frame⟩ := exec_ok_splice (i := .declareReel p tag sc ac g n) (f := fun s => s.declareReel x arm ⟨g, n⟩)
      rfl heard quiet (verdict.trans (if_pos (mayDeclare_iff.mpr may))) declared.alone
    refine ⟨_, done, ports, ?_, declared.other, declared.slot, declared.others, frame⟩
    rw [declareReel_arm]
    exact ArmRec.declared_load (may.imp_right (Or.imp_right And.left)) _
  · have verdict := withdrawReelVerdict_known known named s
    refine ⟨fun held => exec_refused .state rfl quiet heard (verdict.trans (if_neg (by simp [mayDeclare_refuses held]))),
        fun may => ?_⟩
    have withdrawn := withdrawReel_armAlone (s.withFrame p (doneFrame 0x11 tag [])) x arm
    obtain ⟨done, ports, frame⟩ := exec_ok_splice (i := .withdrawReel p tag sc ac) (f := fun s => s.withdrawReel x arm)
      rfl heard quiet (verdict.trans (if_pos (mayDeclare_iff.mpr may))) withdrawn.alone
    have record := withdrawReel_arm (s.withFrame p (doneFrame 0x11 tag [])) x arm
    obtain ⟨state, declaration, drive, present, latched⟩ := (s.arm x arm).withdrawn_facts
    refine ⟨_, done, ports, ?_, ?_, fun held => ?_, ?_, ?_, withdrawn.other, withdrawn.slot, withdrawn.others, frame⟩
    all_goals rw [record]
    · exact state
    · exact declaration
    · exact drive held
    · exact present
    · exact latched

end Sys2Proof.Machine
end

section
/-! PROOF. Stream Recover (R124), and O29. -/

namespace Sys2Proof.Machine

variable {s t u : State} {x y : Stream} {arm : Arm} {r : ArmRec}

/-! ### The request -/

theorem streamRecoverVerdict_range {a b : Nat} (h : Stream.ofCode? a = none ∨ Arm.ofCode? b = none) (s : State) :
    streamRecoverVerdict a b s = .no .range := by
  unfold streamRecoverVerdict
  rw [namedArm_none h]

theorem streamRecoverVerdict_known {a b : Nat} (h : Stream.ofCode? a = some x) (k : Arm.ofCode? b = some arm) (s : State) :
    streamRecoverVerdict a b s = if (s.stream x).broken then .no .state else if s.slotBound x then .no .clash
      else if (s.arm x arm).mayRecover then .ok fun s => s.recoverStream x arm else .no .state := by
  unfold streamRecoverVerdict
  rw [namedArm_some h k]

theorem slotBound_iff : s.slotBound x = true ↔ ∃ v, (s.stream x).slot = some v ∧ (v.state = .committed ∨ v.state = .fired) := by
  unfold State.slotBound
  cases (s.stream x).slot with
  | none => simp
  | some v => simp

theorem mayRecover_iff : r.mayRecover = true ↔
    (r.state = .loaded ∨ r.state = .ready ∨ r.state = .running) ∧ r.declaration ≠ none := by
  simp [ArmRec.mayRecover, Option.isSome_iff_ne_none, or_assoc]

/-! ### The parts of a recovery -/

/-- The arm named as the one that carries the web runs, from the stream counter where it did not run before. -/
def State.armRun (s : State) (x : Stream) (arm : Arm) : State :=
  if (s.arm x arm).state == .running then s else s.setArm x arm ((s.arm x arm).run (s.streamCount x))

/-- The arm beside the one that carries the web: a RUNNING one stops, and the drive of a READY one is off. -/
def ArmRec.beside (r : ArmRec) : ArmRec :=
  if r.state == .running then r.stop else if r.state == .ready then r.disable else r

/-- Both arms of a recovered stream. -/
def State.armsRecovered (s : State) (x : Stream) (arm : Arm) : State :=
  let o := (s.armRun x arm).arm x arm.other
  if o.state == .running then (s.armRun x arm).setArm x arm.other o.stop
  else if o.state == .ready then (s.armRun x arm).setArm x arm.other o.disable
  else s.armRun x arm

/-- A slot that is in FAULT becomes FREE (R124); another is kept. -/
def slotRecovered (v : Option Slot) : Option Slot := v.filter fun v => v.state != .fault

/-- A stream recovered, up to the acts that follow: its arms, its grade, and its slot. -/
def State.recovered (s : State) (x : Stream) (arm : Arm) : State :=
  let t := s.armsRecovered x arm
  t.setStream x { t.stream x with
    running := some arm
    runningGrade := ((t.arm x arm).declaration.map Declaration.grade).getD 0
    slot := slotRecovered (t.stream x).slot }

theorem slotRecovered_none (v : Option Slot) : slotRecovered v = none ↔ v = none ∨ ∃ w, v = some w ∧ w.state = .fault := by
  unfold slotRecovered
  cases v with
  | none => simp
  | some v => simp [Option.filter]

theorem slotRecovered_some {v : Option Slot} {w : Slot} (h : slotRecovered v = some w) : v = some w :=
  (Option.filter_eq_some_iff.mp h).1

/-- Due behind a recovery are the acts of a slot that is FREE, and the tests of an arm that becomes RUNNING (R108, R111, R118). -/
def State.recoveryActs (s : State) (x : Stream) (arm : Arm) : List Task :=
  (if ((s.recovered x arm).stream x).slot = none then [.slotFree x] else []) ++
    (if (s.arm x arm).state = .running then [] else [.deferred x, .runout x])

/-- Whether a slot is in FAULT. -/
def slotFaulted (v : Option Slot) : Bool :=
  match v with
  | some v => v.state == .fault
  | none => false

theorem setSlot_recovered (s : State) (x : Stream) (r : StreamRec) :
    (if slotFaulted r.slot then (s.setStream x r).setSlot x none else s.setStream x r) =
      s.setStream x { r with slot := slotRecovered r.slot } := by
  unfold slotFaulted slotRecovered State.setSlot
  cases e : r.slot with
  | none =>
    rw [if_neg (by simp), Option.filter_none, ← e]
  | some v =>
    by_cases fault : v.state = .fault
    · rw [if_pos (by simp [fault]), setStream_setStream, State.stream_setStream, Option.filter_some_neg (by simp [fault])]
    · rw [if_neg (by simpa using fault), Option.filter_some_pos (by simpa using fault), ← e]

/-- The acts due behind a recovery, in the model's order (log 64). -/
def State.pushRecovery (s : State) (x : Stream) (wasRunning : Bool) : State :=
  let t := if (s.stream x).slot.isNone then s.push [.slotFree x] else s
  if wasRunning then t else t.push [.deferred x, .runout x]

theorem pushRecovery_eq (s : State) (x : Stream) (wasRunning : Bool) : s.pushRecovery x wasRunning =
    s.push ((if (s.stream x).slot = none then [.slotFree x] else []) ++ (if wasRunning = true then [] else [.deferred x,
    .runout x])) := by
  unfold State.pushRecovery State.push
  cases (s.stream x).slot <;> cases wasRunning <;> simp

theorem recoverStream_eq (s : State) (x : Stream) (arm : Arm) :
    s.recoverStream x arm = (s.recovered x arm).push (s.recoveryActs x arm) := by
  let named : StreamRec := { (s.armsRecovered x arm).stream x with
    running := some arm
    runningGrade := (((s.armsRecovered x arm).arm x arm).declaration.map Declaration.grade).getD 0 }
  have steps : s.recoverStream x arm =
      (if slotFaulted (((s.armsRecovered x arm).setStream x named).stream x).slot
        then ((s.armsRecovered x arm).setStream x named).setSlot x none
        else (s.armsRecovered x arm).setStream x named).pushRecovery x ((s.arm x arm).state == .running) := rfl
  have slot := setSlot_recovered (s.armsRecovered x arm) x named
  rw [steps, State.stream_setStream, slot, pushRecovery_eq]
  unfold State.recoveryActs
  simp only [beq_iff_eq]
  rfl

/-! ### What a recovery leaves of the arms -/

theorem armRun_arm (s : State) (x : Stream) (arm : Arm) : (s.armRun x arm).arm x arm =
    if (s.arm x arm).state = .running then s.arm x arm else (s.arm x arm).run (s.streamCount x) := by
  unfold State.armRun
  by_cases h : (s.arm x arm).state = .running
  · rw [if_pos (by simp [h]), if_pos h]
  · rw [if_neg (by simpa using h), if_neg h, arm_setArm]

theorem armRun_armAlone (s : State) (x : Stream) (arm : Arm) : ArmAlone x arm s (s.armRun x arm) := by
  unfold State.armRun
  split
  · exact .refl _ _ _
  · exact (ArmAlone.refl _ _ _).setArm _

theorem armsRecovered_armAlone (s : State) (x : Stream) (arm : Arm) :
    ArmAlone x arm.other (s.armRun x arm) (s.armsRecovered x arm) := by
  unfold State.armsRecovered
  dsimp only
  split_ifs
  · exact (ArmAlone.refl _ _ _).setArm _
  · exact (ArmAlone.refl _ _ _).setArm _
  · exact .refl _ _ _

theorem armsRecovered_arm_other (s : State) (x : Stream) (arm : Arm) :
    (s.armsRecovered x arm).arm x arm.other = (s.arm x arm.other).beside := by
  unfold State.armsRecovered
  rw [← (armRun_armAlone s x arm).other]
  unfold ArmRec.beside
  dsimp only
  split_ifs
  · exact arm_setArm _ _ _ _
  · exact arm_setArm _ _ _ _
  · rfl

theorem Arm.other_other (arm : Arm) : arm.other.other = arm := by
  cases arm <;> rfl

theorem armsRecovered_arm (s : State) (x : Stream) (arm : Arm) : (s.armsRecovered x arm).arm x arm =
    if (s.arm x arm).state = .running then s.arm x arm else (s.arm x arm).run (s.streamCount x) := by
  have kept := (armsRecovered_armAlone s x arm).other
  rw [Arm.other_other] at kept
  exact kept.trans (armRun_arm s x arm)

theorem recovered_arm (s : State) (x : Stream) (arm side : Arm) :
    (s.recovered x arm).arm x side = (s.armsRecovered x arm).arm x side := arm_setStream _ _ _ _

theorem recovered_stream (s : State) (x : Stream) (arm : Arm) :
    ((s.recovered x arm).stream x).running = some arm ∧
    ((s.recovered x arm).stream x).runningGrade = ((s.armsRecovered x arm).arm x arm).declaration.elim 0 Declaration.grade ∧
    ((s.recovered x arm).stream x).slot = slotRecovered (s.stream x).slot := by
  unfold State.recovered
  rw [State.stream_setStream, (armsRecovered_armAlone s x arm).slot, (armRun_armAlone s x arm).slot]
  refine ⟨rfl, ?_, rfl⟩
  cases ((s.armsRecovered x arm).arm x arm).declaration <;> rfl

theorem recovered_stream_other (s : State) (arm : Arm) (h : y ≠ x) : (s.recovered x arm).stream y = s.stream y := by
  unfold State.recovered
  rw [State.stream_setStream_ite, if_neg h, (armsRecovered_armAlone s x arm).others y h, (armRun_armAlone s x arm).others y h]

theorem recovered_spliceAlone (s : State) (x : Stream) (arm : Arm) : SpliceAlone s (s.recovered x arm) :=
  ((armRun_armAlone s x arm).alone.trans (armsRecovered_armAlone s x arm).alone).setStream _ _

theorem ArmRec.beside_facts (r : ArmRec) : r.beside.state = (if r.state = .running then .stopping else r.state) ∧
    (r.state = .running ∨ r.state = .ready → r.beside.driveEnable = false) := by
  unfold ArmRec.beside
  by_cases running : r.state = .running
  · rw [if_pos (by simp [running]), if_pos running]
    exact ⟨rfl, fun _ => rfl⟩
  · rw [if_neg (by simpa using running), if_neg running]
    by_cases ready : r.state = .ready
    · rw [if_pos (by simp [ready])]
      exact ⟨rfl, fun _ => rfl⟩
    · rw [if_neg (by simpa using ready)]
      exact ⟨rfl, fun h => absurd h (not_or.mpr ⟨running, ready⟩)⟩

/-! ### The recovery behind its reply -/

theorem recoverStream_parts (s : State) (x : Stream) (arm : Arm) : (s.recoverStream x arm).splice = (s.recovered x arm).splice ∧
    (s.recoverStream x arm).ports = s.ports ∧ (s.recoverStream x arm).work = s.work ++ s.recoveryActs x arm ∧
    (s.recoverStream x arm).lmu = s.lmu ∧ (s.recoverStream x arm).profile = s.profile := by
  have alone := recovered_spliceAlone s x arm
  rw [recoverStream_eq]
  refine ⟨rfl, (congrArg State.ports alone :), ?_, (congrArg State.lmu alone :), (congrArg State.profile alone :)⟩
  exact congrArg (· ++ s.recoveryActs x arm) (congrArg State.work alone :)

/-- The record of the arm named by a recovery: its own where it is RUNNING, otherwise one that runs from `n`. -/
theorem ArmRec.named_facts {v : ArmRec} {n : Nat} (h : v = if r.state = .running then r else r.run n) :
    v.state = .running ∧ v.declaration = r.declaration ∧ v.startCount = (if r.state = .running then r.startCount else some n) ∧
    (r.state ≠ .running → v.driveEnable = true) := by
  obtain ⟨ranState, ranStart, ranDeclaration, ranDrive⟩ := r.run_facts n
  subst h
  by_cases running : r.state = .running
  · rw [if_pos running, if_pos running]
    exact ⟨running, rfl, rfl, fun h => absurd running h⟩
  · rw [if_neg running, if_neg running]
    exact ⟨ranState, ranDeclaration, ranStart, fun _ => ranDrive⟩

/-- Settles O29. -/
theorem streamRecoverNamesTheRunningArm : Obligations.StreamRecoverNamesTheRunningArm := by
  intro p tag a b s heard
  refine ⟨fun bad quiet => exec_refused .range rfl quiet heard (streamRecoverVerdict_range bad s), fun x arm known named => ?_⟩
  have verdict := streamRecoverVerdict_known known named s
  refine ⟨fun broken quiet => ?_, fun intact bound quiet => ?_, fun intact free cannot quiet => ?_,
      fun d intact free may declared => ?_⟩
  · exact exec_refused .state rfl quiet heard (verdict.trans (if_pos broken))
  · exact exec_refused .clash rfl quiet heard (verdict.trans (by simp [intact, slotBound_iff.mpr bound]))
  · have unbound : s.slotBound x = false := Bool.eq_false_iff.mpr (mt slotBound_iff.mp free)
    have cannot : (s.arm x arm).mayRecover = false := Bool.eq_false_iff.mpr (mt mayRecover_iff.mp cannot)
    exact exec_refused .state rfl quiet heard (verdict.trans (by simp [intact, unbound, cannot]))
  · let r := s.withFrame p (doneFrame 0x15 tag [])
    let u := r.recoverStream x arm
    have unbound : s.slotBound x = false := Bool.eq_false_iff.mpr (mt slotBound_iff.mp free)
    have done : exec (.streamRecover p tag a b) s = .next u.settled :=
      exec_ok (i := .streamRecover p tag a b) (f := fun s => s.recoverStream x arm) rfl heard
        (verdict.trans (by simp [intact, unbound, mayRecover_iff.mpr may]))
    have kept := settled_untouched u
    obtain ⟨splice, ports, work, lmu, profile⟩ := recoverStream_parts r x arm
    have arms (side : Arm) : u.arm x side = (r.armsRecovered x arm).arm x side :=
      (arm_of_splice splice x side).trans (recovered_arm r x arm side)
    obtain ⟨running, grade, slot⟩ := recovered_stream r x arm
    rw [← stream_of_splice splice] at running grade slot
    obtain ⟨ownState, ownDeclaration, ownStart, ownDrive⟩ :=
      ArmRec.named_facts (r := s.arm x arm) ((arms arm).trans (armsRecovered_arm r x arm))
    obtain ⟨stopped, off⟩ := (s.arm x arm.other).beside_facts
    have beside : u.arm x arm.other = (s.arm x arm.other).beside := (arms arm.other).trans (armsRecovered_arm_other r x arm)
    rw [← beside] at stopped off
    obtain ⟨keptState, keptDeclaration, keptStart⟩ := ArmRec.stand_eq (kept.arm x arm)
    obtain ⟨keptBeside, -, -⟩ := ArmRec.stand_eq (kept.arm x arm.other)
    refine ⟨u, u.settled, done, rfl, joinedBy_of_untouched fun q => ?_, (kept.running x).trans running, ?_, keptState.trans ownState,
      keptDeclaration.trans ownDeclaration, keptStart.trans ownStart, keptBeside.trans stopped, off, ownDrive, ?_, fun v h => ?_, ?_,
      fun y side other => ?_, kept.lmu.trans lmu, kept.profile.trans profile⟩
    · have same : u.port q = r.port q := congrArg (PerPort.get · q) ports
      exact same ▸ kept.ports q
    · rw [kept.runningGrade x, grade, ← arms arm, ownDeclaration, declared]
      rfl
    · rw [slot]
      exact slotRecovered_none _
    · rw [slot] at h
      exact slotRecovered_some h
    · rw [work, List.append_assoc, stream_of_splice splice]
      exact congrArg (· ++ r.recoveryActs x arm) (withFrame_work s p _)
    · rw [kept.arm y side]
      exact congrArg (fun v : StreamRec => (v.arms.get side).stand)
        ((stream_of_splice splice y).trans (recovered_stream_other r arm other))

end Sys2Proof.Machine
end

section
/-! PROOF. The commit of a splice and its deferral (R110, R111, R121), its abort (R112), the run-out test (R118 to R120), and O26. -/

namespace Sys2Proof.Machine

variable {s t u : State} {x y : Stream} {arm : Arm} {r : Arm} {v w : Slot} {g id : Nat}

/-! ### The commit requirement (R110) -/

theorem requirement_of_meets (h : s.meets x g arm) : s.requirement x g = some arm.other := by
  unfold State.requirement
  dsimp only
  rw [h.running]
  exact if_pos (by simp [State.tracking, ArmRec.holds, h.tracking, h.intact, h.link, h.ready, h.grade])

theorem meets_of_requirement (h : s.requirement x g = some r) : ∃ arm, s.meets x g arm := by
  unfold State.requirement at h
  dsimp only at h
  split at h
  · next arm running =>
    split at h
    · next all =>
      simp only [State.tracking, ArmRec.holds, Bool.and_eq_true, Bool.not_eq_eq_eq_not, Bool.not_true, beq_iff_eq] at all
      obtain ⟨⟨⟨⟨tracking, intact⟩, link⟩, ready⟩, grade⟩ := all
      exact ⟨arm, tracking, running, intact, link, ready, grade⟩
    · cases h
  · cases h

theorem requirement_none (h : ∀ arm, ¬ s.meets x g arm) : s.requirement x g = none := by
  cases e : s.requirement x g with
  | none => rfl
  | some r =>
    obtain ⟨arm, meets⟩ := meets_of_requirement e
    exact absurd meets (h arm)

/-- The requirement speaks of the part state and of what the stand holds, which the acts leave alone. -/
theorem Untouched.meets (h : Untouched s t) : t.meets x g arm ↔ s.meets x g arm := by
  have other := ArmRec.stand_eq (h.arm x arm.other)
  obtain ⟨state, declaration, -⟩ := other
  constructor
  · rintro ⟨tracking, running, intact, link, ready, grade⟩
    exact ⟨h.part ▸ tracking, h.running x ▸ running, h.broken x ▸ intact, h.linkFault x ▸ link, state ▸ ready, declaration ▸ grade⟩
  · rintro ⟨tracking, running, intact, link, ready, grade⟩
    exact ⟨h.part.trans tracking, (h.running x).trans running, (h.broken x).trans intact, (h.linkFault x).trans link,
      state.trans ready, declaration ▸ grade⟩

/-! ### A slot commits (R110) -/

theorem ArmRec.enable_drive (r : ArmRec) : r.enable.driveEnable = true := by
  unfold ArmRec.enable
  split
  · next on => exact on
  · rfl

/-- The stream behind a commit, before its notices: the drive of the arm chosen is on, and the slot is COMMITTED to it. -/
def State.committed (s : State) (x : Stream) (v : Slot) (arm : Arm) : State :=
  (s.setArm x arm (s.arm x arm).enable).setSlot x (some { v with state := .committed, chosen := some arm })

theorem commitSlot_eq (s : State) (x : Stream) (v : Slot) (arm : Arm) :
    s.commitSlot x v arm = ((s.committed x v arm).raise .spliceCommit).raiseIf (s.tooFast x) .speedCap := rfl

theorem commitSlot_splice (s : State) (x : Stream) (v : Slot) (arm : Arm) :
    (s.commitSlot x v arm).splice = (s.committed x v arm).splice := raiseIf_splice _ _ _

theorem commitSlot_stream (s : State) (x : Stream) (v : Slot) (arm : Arm) :
    ((s.commitSlot x v arm).stream x).slot = some { v with state := .committed, chosen := some arm } := by
  rw [stream_of_splice (commitSlot_splice s x v arm)]
  exact congrArg StreamRec.slot (State.stream_setStream _ _ _)

theorem commitSlot_stream_other (s : State) (v : Slot) (arm : Arm) (h : y ≠ x) :
    (s.commitSlot x v arm).stream y = s.stream y := by
  rw [stream_of_splice (commitSlot_splice s x v arm)]
  exact (stream_setStream_other _ _ h).trans (stream_setArm_other _ _ _ h)

theorem commitSlot_drive (s : State) (x : Stream) (v : Slot) (arm : Arm) :
    ((s.commitSlot x v arm).arm x arm).driveEnable = true := by
  have own : (s.commitSlot x v arm).arm x arm = (s.arm x arm).enable :=
    (arm_of_splice (commitSlot_splice s x v arm) x arm).trans ((arm_setStream _ _ _ _).trans (arm_setArm _ _ _ _))
  rw [own]
  exact (s.arm x arm).enable_drive

theorem commitSlot_frame (s : State) (x : Stream) (v : Slot) (arm : Arm) :
    { s.commitSlot x v arm with splice := s.splice, ports := s.ports } = s := by
  rw [commitSlot_eq]
  rcases State.raiseIf_eq ((s.committed x v arm).raise .spliceCommit) (s.tooFast x) .speedCap with e | e <;> rw [e] <;> rfl

theorem commitSlot_raises (s : State) (x : Stream) (v : Slot) (arm : Arm) (classes : (s.port .wet).classes.length = 13) :
    ((s.commitSlot x v arm).port .wet).rawOf 0 = true ∧
    ((s.streamProfile x).spliceMaxSpeed < s.streamSpeed x → ((s.commitSlot x v arm).port .wet).rawOf 9 = true) := by
  let before := (s.committed x v arm).raise .spliceCommit
  have commit : (before.port .wet).rawOf 0 = true := raise_raw (s.committed x v arm) .spliceCommit (classes ▸ (by decide : 0 < 13))
  have grown : Untouched (s.committed x v arm) before := (Untouched.refl _).raise _
  refine ⟨(((Untouched.refl before).raiseIf (s.tooFast x) .speedCap).ports .wet).raw 0 commit, fun fast => ?_⟩
  have tooFast : s.tooFast x = true := decide_eq_true fast
  rw [commitSlot_eq, tooFast]
  have room : (before.port .wet).classes.length = 13 := (grown.ports .wet).classCount.trans classes
  exact raise_raw before .speedCap (room ▸ (by decide : 9 < 13))

/-! ### Manual Splice (R121) -/

theorem manualSpliceVerdict_range {n : Nat} (h : Stream.ofCode? n = none) (s : State) : manualSpliceVerdict n s = .no .range := by
  unfold manualSpliceVerdict
  rw [h]

theorem manualSpliceVerdict_known {n : Nat} (h : Stream.ofCode? n = some x) (s : State) : manualSpliceVerdict n s =
    if !s.tracking then .no .state else if (s.stream x).slot.isSome then .no .clash
    else (s.requirement x (s.stream x).runningGrade).elim (.no .state) fun arm =>
      .ok fun s => s.commitSlot x (s.manualSlot x) arm := by
  unfold manualSpliceVerdict
  rw [h]
  dsimp only
  cases s.requirement x (s.stream x).runningGrade <;> rfl

theorem manualSplice_rule : Rule.ManualSplice := by
  intro p tag n s heard quiet
  refine ⟨fun bad => exec_refused .range rfl quiet heard (manualSpliceVerdict_range bad s), fun x known => ?_⟩
  have verdict := manualSpliceVerdict_known known s
  refine ⟨fun setup => ?_, fun tracking taken => ?_, fun tracking free unmet => ?_, fun r tracking free meets => ?_⟩
  · exact exec_refused .state rfl quiet heard (verdict.trans (by simp [State.tracking, setup]))
  · exact exec_refused .clash rfl quiet heard (verdict.trans (by simp [State.tracking, tracking, Option.isSome_iff_ne_none, taken]))
  · exact exec_refused .state rfl quiet heard (verdict.trans (by simp [State.tracking, tracking, free, requirement_none unmet]))
  · let begun := s.withFrame p (doneFrame 0x12 tag [])
    have kept : Untouched begun (begun.commitSlot x (begun.manualSlot x) r.other) := (Untouched.refl begun).commitSlot _ _ _
    have frame := commitSlot_frame begun x (begun.manualSlot x) r.other
    have work : (begun.commitSlot x (begun.manualSlot x) r.other).work = [] :=
      (congrArg State.work frame :).trans ((withFrame_work s p _).trans quiet)
    have done : exec (.manualSplice p tag n) s = .next (begun.commitSlot x (begun.manualSlot x) r.other) := by
      rw [exec_ok (i := .manualSplice p tag n) (f := fun s => s.commitSlot x (s.manualSlot x) r.other) rfl heard
        (verdict.trans (by simp [State.tracking, tracking, free, requirement_of_meets meets])), settled_nil _ work]
    refine ⟨_, done, joinedBy_of_untouched kept.ports, commitSlot_stream _ _ _ _, commitSlot_drive _ _ _ _,
      fun y arm => kept.arm y arm, fun y other => commitSlot_stream_other _ _ _ other, fun classes => ?_,
      congrArg (fun u : State => { u with ports := s.ports }) frame⟩
    exact commitSlot_raises begun x _ _ ((congrArg List.length (withFrame_classes s p _ .wet)).trans classes)

/-! ### The deferred-commit test (R111) -/

theorem deferredTest_idle (h : (s.stream x).slot = some v) (idle : v.state ≠ .planned ∨ v.deferred = false) :
    s.deferredTest x = s := by
  unfold State.deferredTest
  rw [h]
  exact if_neg (by rcases idle with e | e <;> simp [e])

theorem deferredTest_due (h : (s.stream x).slot = some v) (planned : v.state = .planned) (deferred : v.deferred = true) :
    s.deferredTest x = (s.requirement x v.grade).elim s (s.commitSlot x { v with
      deferred := false, reaimed := v.kind == .grade, commitPoint := s.streamPos x
      firePoint := s.streamPos x + (s.streamProfile x).commitLead }) := by
  unfold State.deferredTest
  rw [h]
  dsimp only
  rw [if_pos (by simp [planned, deferred])]
  cases s.requirement x v.grade <;> rfl

theorem deferredTest_rule : Rule.DeferredTest := by
  intro x s v slot
  refine ⟨fun idle => ?_, fun r planned deferred meets => ?_⟩
  · by_cases due : v.state = .planned ∧ v.deferred = true
    · obtain ⟨planned, deferred⟩ := due
      have unmet : ∀ r, ¬ s.meets x v.grade r :=
        (idle.resolve_left (not_not_intro planned)).resolve_left (by simp [deferred])
      rw [deferredTest_due slot planned deferred, requirement_none unmet]
      rfl
    · exact deferredTest_idle slot (by rwa [not_and_or, Bool.not_eq_true] at due)
  · have stand := ((Untouched.refl s).deferredTest x).stands x
    rw [deferredTest_due slot planned deferred, requirement_of_meets meets] at *
    exact ⟨commitSlot_stream _ _ _ _, commitSlot_drive _ _ _ _, stand, fun classes => (commitSlot_raises s x _ _ classes).1,
      commitSlot_frame _ _ _ _⟩

/-! ### The abort of a COMMITTED splice (R112) -/

/-- The splice of a stream aborted: a MANUAL one is gone, another waits for its commit requirement again. -/
theorem abortSplice_slot (h : (s.stream x).slot = some v) :
    (v.kind = .manual → s.abortSplice x = (s.setSlot x none).push [.slotFree x]) ∧
    (v.kind ≠ .manual → s.abortSplice x = s.setSlot x (some { v with state := .planned, deferred := true, chosen := none })) := by
  unfold State.abortSplice
  rw [h]
  exact ⟨fun manual => if_pos (by simp [manual]), fun other => if_neg (by simpa using other)⟩

theorem abortSplice_frame (s : State) (x : Stream) : { s.abortSplice x with splice := s.splice, work := s.work } = s := by
  unfold State.abortSplice
  repeat' split
  all_goals rfl

theorem setSlot_slot (s : State) (x : Stream) (v : Option Slot) : ((s.setSlot x v).stream x).slot = v :=
  congrArg StreamRec.slot (State.stream_setStream _ _ _)

theorem spliceAbort_rule : Rule.SpliceAbort := by
  intro x arm gone s v slot committed chosen ready
  let left := s.setArm x arm (s.arm x arm).emptied
  have fired : s.chosenBy x arm .fired = false := by
    refine Bool.eq_false_iff.mpr fun held => ?_
    obtain ⟨w, same, state, -⟩ := chosenBy_iff.mp held
    rw [slot, Option.some_inj] at same
    rw [← same, committed] at state
    cases state
  have aborts : s.reelLeaves x arm gone = left.abortSplice x := by
    rw [reelLeaves_ready ready, fired, chosenBy_iff.mpr ⟨v, slot, committed, chosen⟩]
    rfl
  have held : (left.stream x).slot = some v := (congrArg StreamRec.slot (stream_setArm _ _ _ _)).trans slot
  have own : (left.abortSplice x).arm x arm = (s.arm x arm).emptied := (abortSplice_arms _ _ _).trans (arm_setArm _ _ _ _)
  have beside : (left.abortSplice x).arm x arm.other = s.arm x arm.other :=
    (abortSplice_arms _ _ _).trans (arm_setArm_other _ _ _ (other_ne arm))
  obtain ⟨gone, waits⟩ := abortSplice_slot held
  rw [aborts]
  dsimp only
  rw [own]
  refine ⟨rfl, rfl, rfl, beside, fun manual => ?_, fun other => ?_,
    congrArg (fun u : State => { u with splice := s.splice }) (abortSplice_frame left x)⟩
  · rw [gone manual]
    exact ⟨setSlot_slot _ _ _, rfl⟩
  · rw [waits other]
    exact ⟨setSlot_slot _ _ _, rfl⟩

/-! ### The run-out test (R118 to R120) -/

/-- An arm at the end of its reel: its consumed length leaves the run-out reserve or less (R118). -/
def State.runsOut (s : State) (x : Stream) (d : Declaration) (start : Nat) : Bool :=
  s.tracking && !(s.stream x).broken && decide ((d.length : Int) - (s.streamCount x - start : Nat) ≤ (s.streamProfile x).runoutReserve)

/-- A slot that holds a GRADE splice whose fire point is later than the run-out's (R119). -/
def Slot.laterThan (v : Slot) (fire : Pos) : Bool :=
  v.kind == .grade && (v.state == .planned || v.state == .committed) && !v.advanced && fire < v.firePoint

theorem runoutTest_stopped (h : (s.stream x).running = none) : s.runoutTest x = s := by
  unfold State.runoutTest
  dsimp only
  rw [h]

theorem runoutTest_running {d : Declaration} {start : Nat} (running : (s.stream x).running = some arm)
    (declared : (s.arm x arm).declaration = some d) (begun : (s.arm x arm).startCount = some start) :
    s.runoutTest x =
      if s.runsOut x d start then
        match (s.stream x).slot with
        | none => (s.setSlot x (some (runoutSlot (s.stream x).runningGrade ((start : Int) + d.length - (s.streamProfile x).butt)
            (s.streamProfile x).commitLead))).push [.commitTest x]
        | some v =>
          if v.laterThan ((start : Int) + d.length - (s.streamProfile x).butt)
          then s.runoutConflict x v arm.other ((start : Int) + d.length - (s.streamProfile x).butt) else s
      else s := by
  have consumed : s.consumed x (s.arm x arm) = s.streamCount x - start := by
    unfold State.consumed
    rw [begun]
  unfold State.runoutTest
  dsimp only
  rw [running]
  dsimp only
  rw [declared, begun]
  dsimp only
  rw [consumed]
  rfl

theorem runsOut_iff {d : Declaration} {start : Nat} : s.runsOut x d start = true ↔ s.part = .tracking ∧
    (s.stream x).broken = false ∧ (d.length : Int) - (s.streamCount x - start : Nat) ≤ (s.streamProfile x).runoutReserve := by
  simp [State.runsOut, State.tracking, and_assoc]

theorem laterThan_iff {fire : Pos} : v.laterThan fire = true ↔
    v.kind = .grade ∧ (v.state = .planned ∨ v.state = .committed) ∧ v.advanced = false ∧ fire < v.firePoint := by
  simp [Slot.laterThan, and_assoc]

/-- A GRADE splice advanced to the fire point of the run-out, where the other arm holds a reel of its grade (R119). -/
theorem runoutConflict_advances {fire : Pos} (state : (s.arm x arm).state = .loaded ∨ (s.arm x arm).state = .ready)
    (grade : (s.arm x arm).declaration.map Declaration.grade = some v.grade) :
    s.runoutConflict x v arm fire = ((s.setSlot x (some { v with
      firePoint := fire, commitPoint := if v.state = .planned then fire - (s.streamProfile x).commitLead else v.commitPoint
      reaimed := true, advanced := true })).raise .runoutConflict).push [.commitTest x] := by
  unfold State.runoutConflict
  dsimp only
  rw [if_pos (by simpa [ArmRec.holds, grade] using state)]
  simp only [beq_iff_eq]

/-- A GRADE splice that becomes a run-out splice (R120). -/
theorem runoutConflict_replaces {fire : Pos} (h : ¬ (((s.arm x arm).state = .loaded ∨ (s.arm x arm).state = .ready) ∧
    (s.arm x arm).declaration.map Declaration.grade = some v.grade)) :
    s.runoutConflict x v arm fire = ((s.setSlot x (some (runoutSlot (s.stream x).runningGrade fire
      (s.streamProfile x).commitLead))).raise .runoutConflict).push [.commitTest x] := by
  unfold State.runoutConflict
  dsimp only
  rw [if_neg (by simpa only [ArmRec.holds, Bool.and_eq_true, Bool.or_eq_true, beq_iff_eq] using h)]

theorem runoutTest_rule : Rule.RunoutTest := by
  intro x s
  refine ⟨runoutTest_stopped, fun arm d start running declared begun => ?_⟩
  have test := runoutTest_running running declared begun
  refine ⟨fun idle => ?_, fun due free => ?_, fun v due held => ⟨fun sooner => ?_, fun later holds => ?_, fun later lacks => ?_⟩⟩
  · exact test.trans (if_neg (mt runsOut_iff.mp idle))
  · rw [test, if_pos (runsOut_iff.mpr due), free]
    rfl
  all_goals rw [test, if_pos (runsOut_iff.mpr due), held]
  · exact if_neg (mt laterThan_iff.mp sooner)
  · exact (if_pos (laterThan_iff.mpr later)).trans (runoutConflict_advances holds.1 holds.2)
  · exact (if_pos (laterThan_iff.mpr later)).trans (runoutConflict_replaces lacks)

/-! ### The commit test (R110) -/

theorem followW0_splice (s : State) : s.followW0.splice = s.splice := by
  unfold State.followW0
  split <;> rfl

theorem insertSpan_splice (s : State) (l : Line) : (s.insertSpan l).splice = s.splice := by
  cases span : s.plannedSpan l with
  | none => rw [insertSpan_none span]
  | some ab =>
    obtain ⟨a, b⟩ := ab
    rw [insertSpan_some span]
    have alone : MapAlone (s.modifyWindow l.w.id fun w => { w with spanInserted := true }) _ :=
      (insertExtent_frame _ (.closed a b .doubleSlit)).1
    exact alone.splice

theorem Slot.Moved.trans (h : v.Moved w) {z : Slot} (k : w.Moved z) : v.Moved z := by
  unfold Slot.Moved at *
  rw [k, h]

theorem Slot.Moved.kept (h : v.Moved w) : w.state = v.state ∧ w.kind = v.kind ∧ w.grade = v.grade ∧ w.boundary = v.boundary ∧
    w.chosen = v.chosen ∧ w.deferred = v.deferred := by
  unfold Slot.Moved at h
  rw [h]
  exact ⟨rfl, rfl, rfl, rfl, rfl, rfl⟩

theorem shiftPlan_moved (h : (s.stream x).slot = some v) : ∃ w, (s.shiftPlan.stream x).slot = some w ∧ v.Moved w := by
  refine refreshSlots_moved ?_
  rw [stream_of_splice (followW0_splice _)]
  exact h

theorem pinLine_moved (h : (s.stream x).slot = some v) (l : Line) (m : Bool) :
    ∃ w, ((s.pinLine l m).stream x).slot = some w ∧ v.Moved w := by
  unfold State.pinLine
  rw [stream_of_splice (replan_mapAlone _).splice]
  exact shiftPlan_moved (s := s.writeLines [(s.countFinal l).pin m]) h

theorem pinOne_moved (h : (s.stream x).slot = some v) (id : Nat) (m : Bool) :
    ∃ w, ((s.pinOne id m).stream x).slot = some w ∧ v.Moved w := by
  cases found : s.lines.find? fun l => l.w.id == id with
  | none => exact ⟨v, by rw [pinOne_unheld found, h], rfl⟩
  | some l =>
    cases isOpen : l.r.pinned with
    | true => exact ⟨v, by rw [pinOne_pinned found isOpen, h], rfl⟩
    | false =>
      rw [pinOne_open found isOpen]
      split
      · rw [stream_of_splice (insertSpan_splice _ _)]
        exact pinLine_moved h l m
      · exact pinLine_moved h l m

theorem pinAll_moved (h : (s.stream x).slot = some v) (m : Nat → Bool) (ids : List Nat) :
    ∃ w, ((s.pinAll m ids).stream x).slot = some w ∧ v.Moved w := by
  induction ids generalizing s v with
  | nil => exact ⟨v, h, rfl⟩
  | cons k ids ih =>
    obtain ⟨w, held, moved⟩ := pinOne_moved h k (m k)
    obtain ⟨z, held', moved'⟩ := ih held
    exact ⟨z, held', moved.trans moved'⟩

/-- The pin of a boundary moves a slot's points alone. -/
theorem pinStart_moved (h : (s.stream x).slot = some v) (id : Nat) :
    ∃ w, ((s.pinStart id).stream x).slot = some w ∧ v.Moved w := by
  unfold State.pinStart
  split
  · next k _ =>
    cases entry : s.windowOrder? k.w.id with
    | none => exact ⟨v, by rw [pinEnd_unheld entry, h], rfl⟩
    | some w =>
      rw [pinEnd_held (by rw [entry]; rfl)]
      exact pinAll_moved h _ _
  · exact ⟨v, h, rfl⟩

theorem pinStart_pinnedBefore (distinct : s.idsDistinct) (known : (s.order? id).isSome = true) :
    (s.pinStart id).pinnedBefore id := by
  by_cases held : ∃ l ∈ s.lines, l.w.id = id
  · obtain ⟨l, held, rfl⟩ := held
    exact pinnedBefore_pinStart distinct held
  · rintro before v w rest window own -
    have member : w.id ∈ (s.pinStart id).plan.window.map fun w => w.id := by
      rw [window]
      simp
    rw [(pinStart_pinning s id).ids] at member
    obtain ⟨entry, inWindow, same⟩ := List.mem_map.mp member
    obtain ⟨o, record⟩ := Option.isSome_iff_exists.mp known
    have line : (⟨entry, o⟩ : Line) ∈ s.lines := (mem_lines s _).mpr ⟨inWindow, (congrArg s.order? (same.trans own)).trans record⟩
    exact absurd ⟨_, line, same.trans own⟩ held

/-- A commit pins the boundary of its target first (R110, step 1). -/
def State.pinTarget (s : State) (v : Slot) : State := (v.target?.map s.pinStart).getD s

theorem pinTarget_moved (h : (s.stream x).slot = some v) : ∃ w, ((s.pinTarget v).stream x).slot = some w ∧ v.Moved w := by
  unfold State.pinTarget
  cases v.target? with
  | none => exact ⟨v, h, rfl⟩
  | some id => exact pinStart_moved h id

theorem pinTarget_untouched (s : State) (v : Slot) : Untouched s (s.pinTarget v) := by
  unfold State.pinTarget
  cases v.target? with
  | none => exact .refl s
  | some id => exact (Untouched.refl s).pinStart id

/-- A slot at its commit point commits, or is deferred where its commit requirement is not met (R110, steps 2 to 4). -/
def State.commitOrDefer (s : State) (x : Stream) (w : Slot) : State :=
  (s.requirement x w.grade).elim ((s.setSlot x (some { w with deferred := true })).raiseIf (w.kind == .grade) .gradeMissed)
    (s.commitSlot x w)

theorem commitTest_idle (h : (s.stream x).slot = some v)
    (idle : ¬ (v.state = .planned ∧ v.deferred = false ∧ v.commitPoint ≤ s.streamPos x)) : s.commitTest x = s := by
  unfold State.commitTest
  rw [h]
  exact if_neg (by simpa [and_assoc] using idle)

theorem commitTest_due (h : (s.stream x).slot = some v)
    (due : v.state = .planned ∧ v.deferred = false ∧ v.commitPoint ≤ s.streamPos x)
    (held : ((s.pinTarget v).stream x).slot = some w) : s.commitTest x = (s.pinTarget v).commitOrDefer x w := by
  have same : (((s.pinTarget v).stream x).slot).getD v = w := by rw [held, Option.getD_some]
  unfold State.commitTest
  rw [h]
  dsimp only
  rw [if_pos (by simpa [and_assoc] using due)]
  unfold State.commitOrDefer
  rw [← same]
  unfold State.pinTarget
  cases State.requirement _ x _ <;> rfl

theorem commitOrDefer_frame (s : State) (x : Stream) (w : Slot) :
    { s.commitOrDefer x w with splice := s.splice, ports := s.ports } = s := by
  unfold State.commitOrDefer
  cases s.requirement x w.grade with
  | some r => exact commitSlot_frame s x w r
  | none =>
    rcases State.raiseIf_eq (s.setSlot x (some { w with deferred := true })) (w.kind == .grade) .gradeMissed with e | e
    all_goals exact (congrArg (fun u : State => { u with splice := s.splice, ports := s.ports }) e :)

theorem commitOrDefer_pinnedBefore (h : s.pinnedBefore id) (x : Stream) (w : Slot) : (s.commitOrDefer x w).pinnedBefore id := by
  have frame := commitOrDefer_frame s x w
  have plan : (s.commitOrDefer x w).plan = s.plan := (congrArg State.plan frame :)
  have book : (s.commitOrDefer x w).book = s.book := (congrArg State.book frame :)
  intro before v z rest window own r record
  rw [plan] at window
  rw [order?_congr book] at record
  exact h before v z rest window own r record

/-- A slot deferred (R110, step 4). -/
theorem commitOrDefer_defers (h : s.requirement x w.grade = none) :
    ((s.commitOrDefer x w).stream x).slot = some { w with deferred := true } ∧
    (w.kind = .grade → (s.port .wet).classes.length = 13 → ((s.commitOrDefer x w).port .wet).rawOf 4 = true) := by
  unfold State.commitOrDefer
  rw [h, Option.elim_none]
  refine ⟨?_, fun kind classes => ?_⟩
  · rw [stream_of_splice (raiseIf_splice _ _ _), setSlot_slot]
  · rw [kind]
    exact raise_raw (s.setSlot x (some { w with deferred := true })) .gradeMissed (classes ▸ (by decide : 4 < 13))

theorem commitTest_rule : Rule.CommitTest := by
  intro x s v slot
  refine ⟨commitTest_idle slot, fun due => ?_⟩
  obtain ⟨w, held, moved⟩ := pinTarget_moved slot
  have test := commitTest_due slot due held
  have kept := pinTarget_untouched s v
  have classes (h : (s.port .wet).classes.length = 13) : ((s.pinTarget v).port .wet).classes.length = 13 :=
    (kept.ports .wet).classCount.trans h
  obtain ⟨state, kind, grade, boundary, chosen, deferred⟩ := moved.kept
  refine ⟨(Untouched.refl s).commitTest x, fun id distinct isGrade inWindow target known => ?_, fun unmet => ?_, fun r meets => ?_⟩
  all_goals rw [test]
  · have pins : (s.pinTarget v).pinnedBefore id := by
      unfold State.pinTarget
      rw [target?_eq_some.mpr ⟨isGrade, inWindow, target⟩]
      exact pinStart_pinnedBefore distinct known
    exact commitOrDefer_pinnedBefore pins x w
  · have none_ : (s.pinTarget v).requirement x w.grade = none := requirement_none fun r h => unmet r (grade ▸ kept.meets.mp h)
    obtain ⟨slot', missed⟩ := commitOrDefer_defers none_
    exact ⟨_, slot', state.trans due.1, rfl, kind, grade, boundary, chosen,
      fun isGrade h => missed (kind.trans isGrade) (classes h)⟩
  · have met : (s.pinTarget v).requirement x w.grade = some r.other := requirement_of_meets (kept.meets.mpr (grade ▸ meets))
    have commits : (s.pinTarget v).commitOrDefer x w = (s.pinTarget v).commitSlot x w r.other := by
      unfold State.commitOrDefer
      rw [met, Option.elim_some]
    rw [commits]
    refine ⟨_, commitSlot_stream _ _ _ _, rfl, deferred.trans due.2.1, kind, grade, boundary, rfl, commitSlot_drive _ _ _ _,
      fun h => ?_⟩
    obtain ⟨raised, capped⟩ := commitSlot_raises (s.pinTarget v) x w r.other (classes h)
    have profile : (s.pinTarget v).streamProfile x = s.streamProfile x := congrArg (fun f : Profile => f.streams.get x) kept.profile
    have speed : (s.pinTarget v).streamSpeed x = s.streamSpeed x := congrArg (fun l : Lmu => (l.channels.get x.channel).speed) kept.lmu
    exact ⟨raised, fun fast => capped (by rwa [profile, speed])⟩

/-- Settles O26. -/
theorem manualSpliceCommitsAtOnce : Obligations.ManualSpliceCommitsAtOnce :=
  ⟨manualSplice_rule, commitTest_rule, deferredTest_rule, spliceAbort_rule, runoutTest_rule⟩

end Sys2Proof.Machine
end

section
/-! PROOF. The tools of a station, the move list, and the assignment of positions (R129, R131, R134), and O44. -/

namespace Sys2Proof.Machine

variable {s t : State} {st : Station} {k : ToolKind} {n : Nat} {x : Tool}

/-! ### Assignment (R131) -/

theorem assign_cons_out {v : Tool} (h : v.state = .out) (ts : List Tool) (ps : List Nat) :
    assign (v :: ts) ps = none :: assign ts ps := by
  have out : (v.state == .out) = true := beq_iff_eq.mpr h
  exact if_pos out

theorem assign_cons_nil (v : Tool) (ts : List Tool) : assign (v :: ts) [] = none :: assign ts [] := by
  rw [assign]
  split <;> rfl

theorem assign_cons_cons {v : Tool} (h : v.state ≠ .out) (ts : List Tool) (p : Nat) (ps : List Nat) :
    assign (v :: ts) (p :: ps) = some p :: assign ts ps := by
  rw [assign, if_neg (by simpa using h)]

theorem inService_cons (v : Tool) (ts : List Tool) :
    inService (v :: ts) = if v.state = .out then inService ts else inService ts + 1 := by
  unfold inService
  by_cases out : v.state = .out <;> simp [out]

/-- Without positions no tool is given one. -/
theorem assign_nil (ts : List Tool) : assign ts [] = List.replicate ts.length none := by
  induction ts with
  | nil => rfl
  | cons v ts ih => rw [assign_cons_nil, ih, List.length_cons, List.replicate_succ]

theorem length_assign (ts : List Tool) (ps : List Nat) : (assign ts ps).length = ts.length := by
  induction ts generalizing ps with
  | nil => rfl
  | cons v ts ih =>
    by_cases out : v.state = .out
    · rw [assign_cons_out out, List.length_cons, List.length_cons, ih]
    · cases ps with
      | nil => rw [assign_cons_nil, List.length_cons, List.length_cons, ih]
      | cons p ps => rw [assign_cons_cons out, List.length_cons, List.length_cons, ih]

/-- Where the tools in service suffice, the positions are given in their order, all of them. -/
theorem filterMap_assign {ts : List Tool} {ps : List Nat} (h : ps.length ≤ inService ts) :
    (assign ts ps).filterMap (fun x => x) = ps := by
  induction ts generalizing ps with
  | nil => exact (List.length_eq_zero_iff.mp (Nat.le_zero.mp h)).symm
  | cons v ts ih =>
    rw [inService_cons] at h
    by_cases out : v.state = .out
    · rw [if_pos out] at h
      rw [assign_cons_out out, List.filterMap_cons_none rfl, ih h]
    · rw [if_neg out] at h
      cases ps with
      | nil => simp [assign_nil]
      | cons p ps =>
        rw [assign_cons_cons out, List.filterMap_cons_some (f := fun x => x) (b := p) rfl, ih (Nat.le_of_succ_le_succ h)]

theorem assign_out {ts : List Tool} {i : Nat} {v : Tool} (h : ts[i]? = some v) (out : v.state = .out) (ps : List Nat) :
    (assign ts ps)[i]? = some none := by
  induction ts generalizing ps i with
  | nil => cases h
  | cons w ts ih =>
    cases i with
    | zero =>
      cases h
      rw [assign_cons_out out]
      rfl
    | succ i =>
      by_cases w_out : w.state = .out
      · rw [assign_cons_out w_out]
        exact ih h ps
      · cases ps with
        | nil =>
          rw [assign_cons_nil]
          exact ih h []
        | cons p ps =>
          rw [assign_cons_cons w_out]
          exact ih h ps

/-- A tool in service that is given no position comes when the positions are used up: no tool from it on is given one. -/
theorem assign_used_up {ts : List Tool} {ps : List Nat} {i m : Nat} {v : Tool} (le : i ≤ m) (h : ts[i]? = some v)
    (inUse : v.state ≠ .out) (none_ : (assign ts ps)[i]? = some none) {y : Option Nat} (given : (assign ts ps)[m]? = some y) :
    y = none := by
  induction ts generalizing ps i m with
  | nil => cases h
  | cons w ts ih =>
    cases ps with
    | nil =>
      rw [assign_nil] at given
      exact List.eq_of_mem_replicate (List.mem_of_getElem? given)
    | cons p ps =>
      cases i with
      | zero =>
        cases h
        rw [assign_cons_cons inUse] at none_
        cases none_
      | succ i =>
        obtain ⟨m, rfl⟩ := Nat.exists_eq_succ_of_ne_zero (Nat.ne_of_gt (Nat.lt_of_lt_of_le (Nat.succ_pos i) le))
        have le := Nat.le_of_succ_le_succ le
        by_cases out : w.state = .out
        · rw [assign_cons_out out] at none_ given
          exact ih le h none_ given
        · rw [assign_cons_cons out] at none_ given
          exact ih le h none_ given

/-- Settles O44. -/
theorem assignmentGivesPositionsInOrder : Obligations.AssignmentGivesPositionsInOrder :=
  fun ts ps feasible => ⟨length_assign ts ps, filterMap_assign feasible, fun _ _ held out => assign_out held out ps,
    fun _ _ _ le held inUse none_ _ given => assign_used_up le held inUse none_ given⟩

/-! ### Lists numbered from 1 -/

theorem nth1_modify1 {α : Type} (l : List α) (n m : Nat) (f : α → α) :
    nth1 (modify1 l n f) m = (nth1 l m).map fun x => if m = n then f x else x := by
  cases m with
  | zero => rfl
  | succ m =>
    cases n with
    | zero => exact (Option.map_id_fun' ▸ rfl : nth1 l (m + 1) = (nth1 l (m + 1)).map fun x => x)
    | succ n =>
      change (l.modify n f)[m]? = (l[m]?).map fun x => if m + 1 = n + 1 then f x else x
      rw [List.getElem?_modify]
      by_cases own : m = n
      · subst own
        simp
      · simp [own, Ne.symm own]

theorem modify1_modify1 {α : Type} (l : List α) (n : Nat) (f g : α → α) :
    modify1 (modify1 l n f) n g = modify1 l n fun x => g (f x) := by
  cases n with
  | zero => rfl
  | succ n => exact List.modify_modify_eq f g n l

theorem modify1_congr {α : Type} {l : List α} {n : Nat} {f g : α → α} (h : ∀ x, nth1 l n = some x → f x = g x) :
    modify1 l n f = modify1 l n g := by
  cases n with
  | zero => rfl
  | succ n =>
    refine List.ext_getElem? fun i => ?_
    unfold modify1
    rw [List.getElem?_modify, List.getElem?_modify]
    by_cases own : n = i
    · subst own
      simp only [if_true]
      exact Option.map_congr fun x held => h x held
    · simp [own]

theorem mem_iff_nth1 {α : Type} (l : List α) (x : α) : x ∈ l ↔ ∃ n, nth1 l n = some x := by
  constructor
  · intro held
    obtain ⟨i, at_⟩ := List.mem_iff_getElem?.mp held
    exact ⟨i + 1, at_⟩
  · rintro ⟨n, at_⟩
    exact nth1_mem at_

/-! ### Tools and moves (R129, R134) -/

theorem tools_setTools (r : StationRec) (k j : ToolKind) (ts : List Tool) :
    (r.setTools k ts).tools j = if j = k then ts else r.tools j := by
  cases k <;> cases j <;> rfl

theorem station_setStation_other {sv : Station} (h : sv ≠ st) (s : State) (r : StationRec) :
    (s.setStation st r).station sv = s.station sv := PerStation.get_set_other _ _ _ _ h

theorem setStation_setStation (s : State) (st : Station) (q r : StationRec) :
    (s.setStation st q).setStation st r = s.setStation st r := by cases st <;> rfl

theorem tool?_congr (h : t.slitter = s.slitter) (st : Station) (k : ToolKind) (n : Nat) : t.tool? st k n = s.tool? st k n :=
  congrArg (fun v : SlitterUnit => nth1 ((v.stations.get st).tools k) n) h

theorem station_congr (h : t.slitter = s.slitter) (st : Station) : t.station st = s.station st :=
  congrArg (fun v : SlitterUnit => v.stations.get st) h

theorem tool?_setStation (s : State) (st : Station) (r : StationRec) (k : ToolKind) (n : Nat) :
    (s.setStation st r).tool? st k n = nth1 (r.tools k) n := by
  unfold State.tool?
  rw [State.station_setStation]

/-- A tool changed: its station holds the changed tool, and the others as they were. -/
theorem tool?_modifyTool (s : State) (st : Station) (k j : ToolKind) (n m : Nat) (f : Tool → Tool) :
    (s.modifyTool st k n f).tool? st j m = (s.tool? st j m).map fun x => if (j, m) = (k, n) then f x else x := by
  have same : (s.modifyTool st k n f).tool? st j m =
      nth1 (((s.station st).setTools k (modify1 ((s.station st).tools k) n f)).tools j) m := tool?_setStation _ _ _ _ _
  rw [same, tools_setTools]
  by_cases kind : j = k
  · subst kind
    rw [if_pos rfl, nth1_modify1]
    simp only [Prod.mk.injEq, true_and]
    rfl
  · simp only [Prod.mk.injEq, kind, false_and, if_false]
    exact (Option.map_id_fun' ▸ rfl : s.tool? st j m = (s.tool? st j m).map fun x => x)

theorem tool?_modifyTool_same (h : s.tool? st k n = some x) (f : Tool → Tool) :
    (s.modifyTool st k n f).tool? st k n = some (f x) := by
  rw [tool?_modifyTool, h, Option.map_some, if_pos rfl]

theorem setTools_setTools (r : StationRec) (k : ToolKind) (ts us : List Tool) :
    (r.setTools k ts).setTools k us = r.setTools k us := by
  cases k <;> rfl

theorem station_modifyTool (s : State) (st : Station) (k : ToolKind) (n : Nat) (f : Tool → Tool) :
    (s.modifyTool st k n f).station st = (s.station st).setTools k (modify1 ((s.station st).tools k) n f) :=
  State.station_setStation _ _ _

/-- Two changes of a tool are one. -/
theorem modifyTool_modifyTool (s : State) (st : Station) (k : ToolKind) (n : Nat) (f g : Tool → Tool) :
    (s.modifyTool st k n f).modifyTool st k n g = s.modifyTool st k n fun x => g (f x) := by
  have tools : ((s.station st).setTools k (modify1 ((s.station st).tools k) n f)).tools k =
      modify1 ((s.station st).tools k) n f := by
    rw [tools_setTools, if_pos rfl]
  calc (s.modifyTool st k n f).modifyTool st k n g
      = (s.modifyTool st k n f).setStation st
          ((s.station st).setTools k (modify1 ((s.station st).tools k) n fun x => g (f x))) := by
        rw [State.modifyTool, station_modifyTool, setTools_setTools, tools, modify1_modify1]
    _ = _ := setStation_setStation _ _ _ _

/-- A change of a tool is what it makes of that tool. -/
theorem modifyTool_congr {f g : Tool → Tool} (h : s.tool? st k n = some x) (same : f x = g x) :
    s.modifyTool st k n f = s.modifyTool st k n g := by
  unfold State.modifyTool
  dsimp only
  rw [modify1_congr (f := f) (g := g) fun y held => by rw [Option.some_inj.mp (held.symm.trans h)]; exact same]

/-- Where a change spares states and assignment records, the station shows it in its tools alone. -/
theorem station_modifyTool_fields (s : State) (st : Station) (k : ToolKind) (n : Nat) (f : Tool → Tool) :
    (s.modifyTool st k n f).station st = { s.station st with
      slits := ((s.modifyTool st k n f).station st).slits, scores := ((s.modifyTool st k n f).station st).scores } := by
  rw [station_modifyTool]
  cases k <;> rfl

theorem isFor_iff (e : MoveEntry) (st : Station) (k : ToolKind) (n : Nat) :
    e.isFor st k n = true ↔ e.station = st ∧ e.kind = k ∧ e.number = n := by
  simp [MoveEntry.isFor, and_assoc]

/-- The entries of a tool in the move list. -/
def State.entriesOf (s : State) (st : Station) (k : ToolKind) (n : Nat) : List MoveEntry :=
  s.slitter.moves.filter fun e => e.isFor st k n

theorem entriesOf_nil_iff (s : State) (st : Station) (k : ToolKind) (n : Nat) :
    s.entriesOf st k n = [] ↔ ∀ e ∈ s.slitter.moves, e.isFor st k n = false := by
  unfold State.entriesOf
  rw [List.filter_eq_nil_iff]
  simp only [Bool.not_eq_true]

theorem joinMoves_slitter (s : State) (ms : List MoveEntry) :
    (s.joinMoves ms).slitter = { s.slitter with moves := s.slitter.moves ++ ms } := by
  unfold State.joinMoves State.raiseIf
  split <;> rfl

/-- A station owes a move where a tool of it is MOVING. -/
theorem owes_iff (s : State) (st : Station) :
    (s.station st).owes = true ↔ ∃ k n x, s.tool? st k n = some x ∧ x.state = .moving := by
  unfold StationRec.owes State.tool?
  rw [List.any_eq_true]
  constructor
  · rintro ⟨x, held, moving⟩
    rcases List.mem_append.mp held with held | held
    · obtain ⟨n, at_⟩ := (mem_iff_nth1 _ x).mp held
      exact ⟨.slit, n, x, at_, eq_of_beq moving⟩
    · obtain ⟨n, at_⟩ := (mem_iff_nth1 _ x).mp held
      exact ⟨.score, n, x, at_, eq_of_beq moving⟩
  · rintro ⟨k, n, x, at_, moving⟩
    refine ⟨x, List.mem_append.mpr ?_, beq_iff_eq.mpr moving⟩
    cases k with
    | slit => exact .inl (nth1_mem at_)
    | score => exact .inr (nth1_mem at_)

theorem not_owes_iff (s : State) (st : Station) :
    (s.station st).owes = false ↔ ∀ k n x, s.tool? st k n = some x → x.state ≠ .moving := by
  rw [← Bool.not_eq_true, owes_iff]
  simp only [not_exists, not_and]

/-- Each kind of a station has as many tools in service as a layout has positions (R133). -/
def StationRec.Fits (r : StationRec) (l : Layout) : Prop :=
  l.slits.length ≤ inService r.slits ∧ l.scores.length ≤ inService r.scores

theorem canPlace_iff (r : StationRec) (l : Layout) : r.canPlace l = true ↔ r.Fits l := by
  simp [StationRec.canPlace, StationRec.Fits]

end Sys2Proof.Machine
end

section
/-! PROOF. A layout assigned to the tools of a station: each tool, its entries in the move list, and the station (R131, R133,
R134, R137). -/

namespace Sys2Proof.Machine

variable {s t : State} {st : Station} {k : ToolKind} {n y : Nat} {x : Tool} {l : Layout} {keep : Bool}

/-! ### One tool under a new assignment (R133, R137) -/

/-- A PLACED tool was measured within place_tolerance of a position (R133). -/
def Tool.StaysAt (x : Tool) (tolerance y : Nat) : Prop :=
  x.state = .placed ∧ ∃ m, x.measured = some m ∧ m ≤ y + tolerance ∧ y ≤ m + tolerance

/-- An assigned tool has a position already for its target (R137). -/
def Tool.Keeps (x : Tool) (y : Nat) : Prop := (x.state = .moving ∨ x.state = .placed) ∧ x.target = some y

theorem within_iff (tolerance m y : Nat) : within tolerance m y = true ↔ m ≤ y + tolerance ∧ y ≤ m + tolerance := by
  simp [within]

theorem staysAt_iff (x : Tool) (tolerance y : Nat) :
    (x.state == .placed && (x.measured.map fun m => within tolerance m y).getD false) = true ↔ x.StaysAt tolerance y := by
  unfold Tool.StaysAt
  cases x.measured with
  | none => simp
  | some m => simp [within_iff]

theorem keeps_iff (x : Tool) (y : Nat) : (x.assigned && x.target == some y) = true ↔ x.Keeps y := by
  simp [Tool.assigned, Tool.Keeps]

theorem reassign_out (h : x.state = .out) (tolerance : Nat) (keep : Bool) (p : Option Nat) :
    x.reassign tolerance keep p = (x, false) := if_pos (by rw [h]; rfl)

theorem reassign_none (h : x.state ≠ .out) (tolerance : Nat) (keep : Bool) :
    x.reassign tolerance keep none = ({ x with state := .parked, target := none, attempts := 0 }, false) :=
  if_neg (by simpa using h)

theorem reassign_some (h : x.state ≠ .out) (tolerance : Nat) (keep : Bool) (y : Nat) : x.reassign tolerance keep (some y) =
    if keep && (x.assigned && x.target == some y) then (x, false)
    else if x.state == .placed && (x.measured.map fun m => within tolerance m y).getD false then
      ({ x with target := some y, attempts := 0 }, false)
    else ({ x with state := .moving, target := some y, attempts := 0 }, true) := by
  rw [← Bool.and_assoc]
  exact if_neg (by simpa using h)

theorem reassign_kept (h : x.Keeps y) (tolerance : Nat) : x.reassign tolerance true (some y) = (x, false) := by
  have inUse : x.state ≠ .out := by
    obtain ⟨moving | placed, -⟩ := h
    · rw [moving]
      nofun
    · rw [placed]
      nofun
  rw [reassign_some inUse, (keeps_iff x y).mpr h]
  rfl

/-- A tool keeps its target nowhere at a setup start, and at a recomputed assignment where it is the same. -/
theorem not_kept (h : keep = true → ¬ x.Keeps y) : ¬ (keep && (x.assigned && x.target == some y)) = true := by
  rw [Bool.and_eq_true, keeps_iff]
  exact fun both => h both.1 both.2

theorem reassign_stays {tolerance : Nat} (kept : keep = true → ¬ x.Keeps y) (h : x.StaysAt tolerance y) :
    x.reassign tolerance keep (some y) = ({ x with target := some y, attempts := 0 }, false) := by
  have inUse : x.state ≠ .out := by
    rw [h.1]
    nofun
  rw [reassign_some inUse, if_neg (not_kept kept), if_pos ((staysAt_iff x tolerance y).mpr h)]

theorem reassign_moves {tolerance : Nat} (inUse : x.state ≠ .out) (kept : keep = true → ¬ x.Keeps y)
    (h : ¬ x.StaysAt tolerance y) :
    x.reassign tolerance keep (some y) = ({ x with state := .moving, target := some y, attempts := 0 }, true) := by
  rw [reassign_some inUse, if_neg (not_kept kept), if_neg (mt (staysAt_iff x tolerance y).mp h)]

/-- A tool for which a move joins is MOVING. -/
theorem moving_of_reassign {tolerance : Nat} {p : Option Nat} (h : (x.reassign tolerance keep p).2 = true) :
    (x.reassign tolerance keep p).1.state = .moving := by
  by_cases out : x.state = .out
  · rw [reassign_out out] at h
    cases h
  · cases p with
    | none =>
      rw [reassign_none out] at h
      cases h
    | some y =>
      revert h
      rw [reassign_some out]
      split
      · exact nofun
      · split
        · exact nofun
        · exact fun _ => rfl

/-- At a setup start a MOVING tool is one for which a move joins. -/
theorem joins_of_moving {tolerance : Nat} {p : Option Nat} (h : (x.reassign tolerance false p).1.state = .moving) :
    (x.reassign tolerance false p).2 = true := by
  by_cases out : x.state = .out
  · rw [reassign_out out, out] at h
    cases h
  · cases p with
    | none =>
      rw [reassign_none out] at h
      cases h
    | some y =>
      have fresh : false = true → ¬ x.Keeps y := fun e => absurd e Bool.false_ne_true
      by_cases stays : x.StaysAt tolerance y
      · rw [reassign_stays fresh stays] at h
        exact absurd (stays.1.symm.trans h) nofun
      · rw [reassign_moves out fresh stays]

/-! ### The tools of one kind -/

/-- The tools of a kind at a station under a layout, each with whether a move for it joins. -/
def State.reassigned (s : State) (st : Station) (l : Layout) (keep : Bool) (k : ToolKind) : List (Tool × Bool) :=
  reassignTools s.profile.slitter.placeTolerance keep ((s.station st).tools k) (l.positions k)

theorem nth1_reassigned {given : Option Nat} (h : s.tool? st k n = some x)
    (at_ : (assign ((s.station st).tools k) (l.positions k))[n - 1]? = some given) (keep : Bool) :
    nth1 (s.reassigned st l keep k) n = some (x.reassign s.profile.slitter.placeTolerance keep given) := by
  cases n with
  | zero => cases h
  | succ i =>
    unfold State.reassigned reassignTools
    have pair : nth1 (((s.station st).tools k).zip (assign ((s.station st).tools k) (l.positions k))) (i + 1) = some (x, given) :=
      List.getElem?_zip_eq_some.mpr ⟨h, at_⟩
    rw [nth1_map, pair]
    rfl

/-- Every tool has its place in the assignment. -/
theorem given_of_tool (h : s.tool? st k n = some x) (ps : List Nat) :
    ∃ given, (assign ((s.station st).tools k) ps)[n - 1]? = some given := by
  cases n with
  | zero => cases h
  | succ i =>
    have room : i < (assign ((s.station st).tools k) ps).length := by
      rw [length_assign]
      exact (List.getElem?_eq_some_iff.mp h).1
    exact ⟨_, List.getElem?_eq_getElem room⟩

theorem nth1_reassigned_out (h : s.tool? st k n = some x) (out : x.state = .out) (l : Layout) (keep : Bool) :
    nth1 (s.reassigned st l keep k) n = some (x, false) := by
  obtain ⟨given, at_⟩ := given_of_tool h (l.positions k)
  rw [nth1_reassigned h at_, reassign_out out]

/-- A tool under the layout is one of the station's, as it was given its place. -/
theorem mem_reassigned {z : Tool × Bool} (h : z ∈ s.reassigned st l keep k) :
    ∃ (x : Tool) (given : Option Nat), z = x.reassign s.profile.slitter.placeTolerance keep given := by
  obtain ⟨p, -, rfl⟩ := List.mem_map.mp h
  exact ⟨p.1, p.2, rfl⟩

/-! ### The entries that join (R134) -/

/-- The entry that joins for a tool, if one does. -/
def entryFor (st : Station) (k : ToolKind) (x : (Tool × Bool) × Nat) : Option MoveEntry :=
  if x.1.2 then some ⟨st, k, x.2, x.1.1.target.getD 0, 1, false⟩ else none

theorem joining_eq (st : Station) (k : ToolKind) (ts : List (Tool × Bool)) :
    joining st k ts = (ts.zipIdx 1).filterMap (entryFor st k) := rfl

theorem mem_joining {e : MoveEntry} {ts : List (Tool × Bool)} (h : e ∈ joining st k ts) :
    e.station = st ∧ e.kind = k ∧ ∃ z ∈ ts, z.2 = true := by
  obtain ⟨z, held, entry⟩ := List.mem_filterMap.mp (joining_eq st k ts ▸ h)
  unfold entryFor at entry
  split at entry
  · next joins =>
    cases entry
    exact ⟨rfl, rfl, z.1, List.fst_mem_of_mem_zipIdx held, joins⟩
  · cases entry

/-- Of the entries that join for tools numbered from `i` on, one may be that of a tool. -/
theorem filter_entryFor (ts : List (Tool × Bool)) (i m : Nat) :
    ((ts.zipIdx i).filterMap (entryFor st k)).filter (fun e => e.isFor st k (i + m)) =
      ((ts[m]?).bind fun z => entryFor st k (z, i + m)).toList := by
  induction ts generalizing i m with
  | nil => rfl
  | cons z ts ih =>
    have own : ∀ j, ((entryFor st k (z, i)).toList.filter fun e => e.isFor st k j) =
        if j = i then (entryFor st k (z, i)).toList else [] := by
      intro j
      unfold entryFor
      cases z.2 with
      | false => simp
      | true =>
        by_cases same : j = i
        · simp [MoveEntry.isFor, same]
        · simp [MoveEntry.isFor, same, Ne.symm same]
    have step : ((z :: ts).zipIdx i).filterMap (entryFor st k) =
        (entryFor st k (z, i)).toList ++ (ts.zipIdx (i + 1)).filterMap (entryFor st k) := by
      rw [List.zipIdx_cons, List.filterMap_cons]
      cases entryFor st k (z, i) <;> rfl
    have later : ∀ m, i + (m + 1) = i + 1 + m := fun m => by omega
    rw [step, List.filter_append, own]
    cases m with
    | zero =>
      have none_ : ((ts.zipIdx (i + 1)).filterMap (entryFor st k)).filter (fun e => e.isFor st k (i + 0)) = [] := by
        refine List.filter_eq_nil_iff.mpr fun e held => ?_
        obtain ⟨u, mem, entry⟩ := List.mem_filterMap.mp held
        have number := List.le_snd_of_mem_zipIdx mem
        unfold entryFor at entry
        split at entry
        · cases entry
          rw [isFor_iff]
          rintro ⟨-, -, same⟩
          dsimp only at same
          omega
        · cases entry
      rw [none_, if_pos (Nat.add_zero i), List.append_nil]
      rfl
    | succ m =>
      rw [if_neg (by omega), List.nil_append, later, ih]
      rfl

theorem filter_joining_same {z : Tool × Bool} {ts : List (Tool × Bool)} (h : nth1 ts n = some z) :
    (joining st k ts).filter (fun e => e.isFor st k n) =
      if z.2 then [⟨st, k, n, z.1.target.getD 0, 1, false⟩] else [] := by
  cases n with
  | zero => cases h
  | succ i =>
    have at_ : ts[i]? = some z := h
    rw [joining_eq, Nat.add_comm i 1, filter_entryFor, at_, Option.bind_some]
    unfold entryFor
    dsimp only
    cases z.2 <;> rfl

theorem filter_joining_other {j : ToolKind} (h : j ≠ k) (ts : List (Tool × Bool)) :
    (joining st j ts).filter (fun e => e.isFor st k n) = [] := by
  refine List.filter_eq_nil_iff.mpr fun e held => ?_
  rw [isFor_iff]
  exact fun own => h ((mem_joining held).2.1.symm.trans own.2.1)

/-! ### A layout assigned (R131, R133, R137) -/

/-- The entries that join for a layout. -/
def State.joiningFor (s : State) (st : Station) (l : Layout) (keep : Bool) : List MoveEntry :=
  joining st .slit (s.reassigned st l keep .slit) ++ joining st .score (s.reassigned st l keep .score)

theorem assignLayout_eq (s : State) (st : Station) (l : Layout) (keep : Bool) : s.assignLayout st l keep =
    ((s.setStation st { s.station st with
        slits := (s.reassigned st l keep .slit).map Prod.fst, scores := (s.reassigned st l keep .score).map Prod.fst }).dropMoves
      fun m => !stillOwed st (s.reassigned st l keep .slit) (s.reassigned st l keep .score) m).joinMoves
        (s.joiningFor st l keep) := rfl

theorem assignLayout_slitter (s : State) (st : Station) (l : Layout) (keep : Bool) : (s.assignLayout st l keep).slitter =
    { stations := s.slitter.stations.set st { s.station st with
        slits := (s.reassigned st l keep .slit).map Prod.fst, scores := (s.reassigned st l keep .score).map Prod.fst }
      moves := (s.slitter.moves.filter
        (stillOwed st (s.reassigned st l keep .slit) (s.reassigned st l keep .score))) ++ s.joiningFor st l keep } := by
  rw [assignLayout_eq, joinMoves_slitter]
  unfold State.dropMoves State.setStation
  simp only [Bool.not_not]

theorem assignLayout_station (s : State) (st : Station) (l : Layout) (keep : Bool) : (s.assignLayout st l keep).station st =
    { s.station st with
      slits := (s.reassigned st l keep .slit).map Prod.fst, scores := (s.reassigned st l keep .score).map Prod.fst } := by
  unfold State.station
  rw [assignLayout_slitter, PerStation.get_set_same]
  rfl

theorem assignLayout_station_other {sv : Station} (h : sv ≠ st) (s : State) (l : Layout) (keep : Bool) :
    (s.assignLayout st l keep).station sv = s.station sv := by
  unfold State.station
  rw [assignLayout_slitter, PerStation.get_set_other _ _ _ _ h]

theorem assignLayout_tool? (s : State) (st : Station) (l : Layout) (keep : Bool) (k : ToolKind) (n : Nat) :
    (s.assignLayout st l keep).tool? st k n = (nth1 (s.reassigned st l keep k) n).map Prod.fst := by
  unfold State.tool?
  rw [assignLayout_station, ← nth1_map]
  cases k <;> rfl

/-- An entry of a tool of the station stays while the tool is still MOVING and no new move for it joins. -/
theorem stillOwed_of_isFor {e : MoveEntry} {z : Tool × Bool} (h : e.isFor st k n = true)
    (at_ : nth1 (s.reassigned st l keep k) n = some z) :
    stillOwed st (s.reassigned st l keep .slit) (s.reassigned st l keep .score) e = (z.1.state == .moving && !z.2) := by
  obtain ⟨own, kind, number⟩ := (isFor_iff e st k n).mp h
  unfold stillOwed
  rw [if_pos (beq_iff_eq.mpr own), kind, number]
  cases k <;>
    · dsimp only
      rw [at_]

/-- The entries of a tool under a layout: a new one where a move joins, those it had where it is still MOVING, and otherwise
none. -/
theorem assignLayout_entriesOf {z : Tool × Bool} (h : nth1 (s.reassigned st l keep k) n = some z) :
    (s.assignLayout st l keep).entriesOf st k n =
      if z.2 then [⟨st, k, n, z.1.target.getD 0, 1, false⟩]
      else if z.1.state = .moving then s.entriesOf st k n else [] := by
  have joined : (s.joiningFor st l keep).filter (fun e => e.isFor st k n) =
      if z.2 then [⟨st, k, n, z.1.target.getD 0, 1, false⟩] else [] := by
    unfold State.joiningFor
    rw [List.filter_append]
    cases k with
    | slit => rw [filter_joining_same h, filter_joining_other (by nofun), List.append_nil]
    | score => rw [filter_joining_same h, filter_joining_other (by nofun), List.nil_append]
  have owed : ∀ e : MoveEntry, e.isFor st k n = true →
      stillOwed st (s.reassigned st l keep .slit) (s.reassigned st l keep .score) e = (z.1.state == .moving && !z.2) :=
    fun e own => stillOwed_of_isFor own h
  have stayed : (s.slitter.moves.filter (stillOwed st (s.reassigned st l keep .slit) (s.reassigned st l keep .score))).filter
      (fun e => e.isFor st k n) = if z.1.state = .moving ∧ z.2 = false then s.entriesOf st k n else [] := by
    rw [List.filter_filter]
    split
    · next both =>
      refine List.filter_congr fun e _ => ?_
      cases own : e.isFor st k n with
      | false => rfl
      | true => rw [owed e own, both.1, both.2]; rfl
    · next apart =>
      refine List.filter_eq_nil_iff.mpr fun e _ both => apart ?_
      rw [Bool.and_eq_true] at both
      have holds := both.2
      rw [owed e both.1] at holds
      simpa using holds
  unfold State.entriesOf
  rw [assignLayout_slitter]
  dsimp only
  rw [List.filter_append, joined, stayed]
  cases z.2 <;> simp [State.entriesOf]

/-- The other station's entries stay. -/
theorem assignLayout_others (s : State) (st : Station) (l : Layout) (keep : Bool) :
    (s.assignLayout st l keep).slitter.moves.filter (fun e => e.station != st) =
      s.slitter.moves.filter fun e => e.station != st := by
  have joined : (s.joiningFor st l keep).filter (fun e => e.station != st) = [] := by
    refine List.filter_eq_nil_iff.mpr fun e held => ?_
    rcases List.mem_append.mp held with held | held <;> simp [(mem_joining held).1]
  rw [assignLayout_slitter]
  dsimp only
  rw [List.filter_append, joined, List.append_nil, List.filter_filter]
  refine List.filter_congr fun e _ => ?_
  by_cases own : e.station = st
  · simp [own]
  · unfold stillOwed
    simp [own]

/-- Without a move that joins, an assignment raises nothing. -/
theorem assignLayout_ports (h : ∀ k n x, (s.assignLayout st l keep).tool? st k n = some x → x.state ≠ .moving) :
    (s.assignLayout st l keep).ports = s.ports ∧ (s.assignLayout st l keep).work = s.work := by
  have none_ : s.joiningFor st l keep = [] := by
    refine List.eq_nil_iff_forall_not_mem.mpr fun e held => ?_
    have idle : ∀ k, ¬ ∃ z ∈ s.reassigned st l keep k, z.2 = true := by
      rintro k ⟨z, mem, joins⟩
      obtain ⟨n, at_⟩ := (mem_iff_nth1 _ z).mp mem
      obtain ⟨x, given, rfl⟩ := mem_reassigned mem
      refine h k n _ ?_ (moving_of_reassign joins)
      rw [assignLayout_tool?, at_]
      rfl
    rcases List.mem_append.mp held with held | held
    · exact idle _ (mem_joining held).2.2
    · exact idle _ (mem_joining held).2.2
  rw [assignLayout_eq, none_]
  exact ⟨rfl, rfl⟩

/-- Where a move joins, MOVES_READY is raised (R134). -/
theorem assignLayout_raises {e : MoveEntry} (h : e ∈ s.joiningFor st l keep) (classes : (s.port .dry).classes.length = 10) :
    ((s.assignLayout st l keep).port .dry).rawOf 4 = true := by
  have some_ : (!(s.joiningFor st l keep).isEmpty) = true := by
    cases form : s.joiningFor st l keep with
    | nil => exact absurd (form ▸ h) List.not_mem_nil
    | cons e es => rfl
  rw [assignLayout_eq]
  unfold State.joinMoves State.raiseIf
  rw [some_, if_pos rfl]
  refine raise_raw _ .movesReady ?_
  change 4 < (s.port .dry).classes.length
  omega

/-- At a setup start, a station that then owes a move has one that joins. -/
theorem mem_joiningFor_of_owes (h : ((s.assignLayout st l false).station st).owes = true) :
    ∃ e, e ∈ s.joiningFor st l false := by
  obtain ⟨k, n, x, held, moving⟩ := (owes_iff _ _).mp h
  rw [assignLayout_tool?] at held
  obtain ⟨z, at_, rfl⟩ := Option.map_eq_some_iff.mp held
  have joins : z.2 = true := by
    obtain ⟨u, given, rfl⟩ := mem_reassigned (nth1_mem at_)
    exact joins_of_moving moving
  have found := filter_joining_same (st := st) (k := k) at_
  rw [if_pos joins] at found
  have mem : (⟨st, k, n, z.1.target.getD 0, 1, false⟩ : MoveEntry) ∈ joining st k (s.reassigned st l false k) :=
    List.mem_of_mem_filter (found ▸ List.mem_singleton_self _)
  cases k with
  | slit => exact ⟨_, List.mem_append_left _ mem⟩
  | score => exact ⟨_, List.mem_append_right _ mem⟩

end Sys2Proof.Machine
end

section
/-! PROOF. Late swaps taken, settled and lapsed (R145 to R148). -/

namespace Sys2Proof.Machine

variable {s t u : State} {st : Station} {id : Nat} {w : WindowOrder} {r : OrderRec} {l : LateSwap}

/-! ### The late-swap record of a station -/

/-- Of the slitter unit, the late-swap record of a station alone has changed. -/
def LateAlone (st : Station) (s t : State) : Prop :=
  ∃ v, t.slitter = (s.setStation st { s.station st with late := v }).slitter

theorem LateAlone.of_slitter (h : t.slitter = s.slitter) : LateAlone st s t := by
  refine ⟨(s.station st).late, ?_⟩
  rw [h]
  cases st <;> rfl

theorem LateAlone.station (h : LateAlone st s t) :
    t.station st = { s.station st with late := (t.station st).late } := by
  obtain ⟨v, same⟩ := h
  have own : t.station st = { s.station st with late := v } := (station_congr same st).trans (State.station_setStation _ _ _)
  rw [own]

/-- An entry of the window found behind a change of it is the changed one. -/
theorem modifyWindow_found {f : WindowOrder → WindowOrder} (keeps : ∀ w, (f w).id = w.id)
    (h : (s.modifyWindow id f).windowOrder? id = some w) : ∃ v, s.windowOrder? id = some v ∧ w = f v := by
  rw [modifyWindow_windowOrder? s id id keeps] at h
  obtain ⟨v, found, rfl⟩ := Option.map_eq_some_iff.mp h
  exact ⟨v, found, if_pos (beq_iff_eq.mpr (windowOrder?_id found))⟩

/-- A station's record set on the same slitter unit. -/
theorem setStation_slitter_congr (h : t.slitter = s.slitter) (st : Station) (q : StationRec) :
    (t.setStation st q).slitter = (s.setStation st q).slitter := by
  unfold State.setStation
  rw [h]

/-! ### A late swap that lapses (R148) -/

/-- Where the claim of a lapsing swap closes: at its order's end. -/
def State.lapseEnd (s : State) (l : LateSwap) : Pos := ((s.order? l.order).bind OrderRec.e).getD l.position

theorem lapseEnd_known (h : s.order? l.order = some r) : s.lapseEnd l = r.e.getD l.position := by
  unfold State.lapseEnd
  rw [h, Option.bind_some]

theorem lapseSwap_map (s : State) (st : Station) (l : LateSwap) :
    (s.lapseSwap st l).map = (s.closeClaim (.slitNotReady st) (s.lapseEnd l)).map := replan_map _

theorem lapseSwap_slitter (s : State) (st : Station) (l : LateSwap) :
    (s.lapseSwap st l).slitter = (s.setStation st { s.station st with late := none }).slitter := by
  have closed := (closeClaim_mapAlone s (.slitNotReady st) (s.lapseEnd l)).slitter
  refine (replan_mapAlone _).slitter.trans ?_
  rw [← station_congr closed st]
  exact setStation_slitter_congr closed st _

theorem station_of_late_none (h : t.slitter = (s.setStation st { s.station st with late := none }).slitter) :
    t.station st = { s.station st with late := none } := (station_congr h st).trans (State.station_setStation _ _ _)

theorem lapseSwap_dry (s : State) (st : Station) (l : LateSwap) : (s.lapseSwap st l).dry = s.dry :=
  (replan_dry _).trans (closeClaim_mapAlone s (.slitNotReady st) (s.lapseEnd l)).dry

theorem lapseSwap_closedAt (h : s.order? l.order = some r) (st : Station) :
    s.closedAt (s.lapseSwap st l) (.slitNotReady st) (r.e.getD l.position) := by
  unfold State.closedAt
  rw [lapseSwap_map, lapseEnd_known h]
  exact closeClaim_closedAt s _ _

/-- The order of a lapsed swap is marked. -/
theorem lapseSwap_marks {w : WindowOrder} (h : (s.lapseSwap st l).windowOrder? l.order = some w) : w.lapsed = true := by
  rw [windowOrder?_congr (lapseSwap_plan s st l)] at h
  obtain ⟨v, -, rfl⟩ := modifyWindow_found (f := fun w => { w with lapsed := true }) (fun _ => rfl) h
  rfl

theorem lastRecompute_replicate (n : Nat) : lastRecompute (List.replicate n Task.recompute ++ [.recompute]) = [.recompute] := by
  rw [lastRecompute_append List.not_mem_nil]
  simp

/-- In TRACKING a lapse makes one recomputation due (R148). -/
theorem lapseSwap_due (tracking : s.part = .tracking) (quiet : s.work = []) (st : Station) (l : LateSwap) :
    lastRecompute (s.lapseSwap st l).work = [.recompute] := by
  obtain ⟨part, n, work, -⟩ := closeClaim_replans s (.slitNotReady st) (s.lapseEnd l)
  have due : (s.lapseSwap st l).work = (s.closeClaim (.slitNotReady st) (s.lapseEnd l)).work ++ [.recompute] :=
    replan_work_tracking (part.trans tracking)
  rw [due, work, quiet, List.nil_append, lastRecompute_replicate]

/-- The lapse test (R148). -/
theorem swapLapse_rule : Rule.SwapLapse := by
  intro s st
  refine ⟨fun none_ => ?_, fun l r late record => ?_⟩
  · unfold State.lapseTest
    rw [none_]
  · have test : s.lapseTest st =
        if r.e.getD 0 - s.profile.slitter.dA < s.knife + s.profile.line.swapLead then s.lapseSwap st l else s := by
      unfold State.lapseTest
      rw [late]
      dsimp only
      rw [record]
    refine ⟨fun stays => test.trans (if_neg stays), fun gone => ?_⟩
    rw [test, if_pos gone]
    exact ⟨station_of_late_none (lapseSwap_slitter s st l), fun tracking quiet => lapseSwap_due tracking quiet st l,
      fun w held => lapseSwap_marks held, lapseSwap_closedAt record st⟩

/-! ### A late swap whose pair is planned again (R147) -/

/-- An entry with the pair of a late swap planned again at a cut. -/
def WindowOrder.withPair (w : WindowOrder) (st : Station) (l : LateSwap) (x : Pos) : WindowOrder :=
  { w with replan := some { x := x, drop := { station := st }, lift := l.old.map fun o => { station := o } } }

/-- The plan with a late swap's pair at a cut (R147, step 1). -/
def State.pairPlanned (s : State) (st : Station) (l : LateSwap) (x : Pos) : State :=
  s.modifyWindow l.order fun w => w.withPair st l x

/-- The map behind a late swap's pair: the claim closed at the cut, and the double-slit span of a swap from B to A (R147,
steps 2 and 3). -/
def State.pairMapped (s : State) (st : Station) (l : LateSwap) (x : Pos) : State :=
  let v := (s.pairPlanned st l x).closeClaim (.slitNotReady st) x
  if st = .a && l.old = some .b then v.insertExtent (.closed x (x + v.doubleSlitLength) .doubleSlit) else v

theorem resolveSwap_eq (s : State) (st : Station) (l : LateSwap) (x : Pos) : s.resolveSwap st l x =
    ((s.pairMapped st l x).setStation st { (s.pairMapped st l x).station st with late := none }).replan := rfl

theorem pairMapped_other (h : ¬ (st = .a ∧ l.old = some .b)) (s : State) (x : Pos) :
    s.pairMapped st l x = (s.pairPlanned st l x).closeClaim (.slitNotReady st) x := if_neg (by simpa using h)

theorem pairMapped_down (h : l.old = some .b) (s : State) (x : Pos) : s.pairMapped .a l x =
    ((s.pairPlanned .a l x).closeClaim (.slitNotReady .a) x).insertExtent
      (.closed x (x + s.doubleSlitLength) .doubleSlit) := by
  have profile := (closeClaim_mapAlone (s.pairPlanned .a l x) (.slitNotReady .a) x).profile
  have length : ((s.pairPlanned .a l x).closeClaim (.slitNotReady .a) x).doubleSlitLength = s.doubleSlitLength :=
    congrArg (fun p : Profile => (p.slitter.dA : Int) - p.slitter.dB) profile
  rw [← length]
  exact if_pos (by simp [h])

theorem pairMapped_mapAlone (s : State) (st : Station) (l : LateSwap) (x : Pos) :
    MapAlone (s.pairPlanned st l x) (s.pairMapped st l x) := by
  have closed := closeClaim_mapAlone (s.pairPlanned st l x) (.slitNotReady st) x
  unfold State.pairMapped
  dsimp only
  split
  · exact closed.trans (insertExtent_mapAlone _ _)
  · exact closed

theorem pairMapped_claimAbsent (s : State) (st : Station) (l : LateSwap) (x : Pos) :
    (s.pairMapped st l x).ClaimAbsent (.slitNotReady st) := by
  have closed := closeClaim_claimAbsent (s.pairPlanned st l x) (.slitNotReady st) x
  unfold State.pairMapped
  dsimp only
  split
  · exact ClaimAbsent.insertExtent closed List.not_mem_nil
  · exact closed

theorem resolveSwap_map (s : State) (st : Station) (l : LateSwap) (x : Pos) :
    (s.resolveSwap st l x).map = (s.pairMapped st l x).map := by
  rw [resolveSwap_eq]
  exact replan_map _

theorem resolveSwap_slitter (s : State) (st : Station) (l : LateSwap) (x : Pos) :
    (s.resolveSwap st l x).slitter = (s.setStation st { s.station st with late := none }).slitter := by
  have same : (s.pairMapped st l x).slitter = s.slitter := (pairMapped_mapAlone s st l x).slitter
  rw [resolveSwap_eq]
  refine (replan_mapAlone _).slitter.trans ?_
  rw [← station_congr same st]
  exact setStation_slitter_congr same st _

theorem resolveSwap_dry (s : State) (st : Station) (l : LateSwap) (x : Pos) : (s.resolveSwap st l x).dry = s.dry := by
  rw [resolveSwap_eq]
  exact (replan_dry _).trans (pairMapped_mapAlone s st l x).dry

theorem resolveSwap_windowOrder? {w : WindowOrder} {x : Pos} (h : (s.resolveSwap st l x).windowOrder? l.order = some w) :
    w.replan = some ⟨x, { station := st }, l.old.map fun o => { station := o }⟩ := by
  have plan : (s.resolveSwap st l x).plan = (s.pairPlanned st l x).plan := by
    rw [resolveSwap_eq]
    exact (replan_plan _).trans (pairMapped_mapAlone s st l x).plan
  rw [windowOrder?_congr plan] at h
  obtain ⟨v, -, rfl⟩ := modifyWindow_found (f := fun w => w.withPair st l x) (fun _ => rfl) h
  rfl

theorem resolveSwap_closedAt (h : ¬ (st = .a ∧ l.old = some .b)) (s : State) (x : Pos) :
    s.closedAt (s.resolveSwap st l x) (.slitNotReady st) x := by
  unfold State.closedAt
  rw [resolveSwap_map, pairMapped_other h]
  exact closeClaim_closedAt (s.pairPlanned st l x) _ _

theorem resolveSwap_covers (h : l.old = some .b) (s : State) (x : Pos) :
    (s.resolveSwap .a l x).covers .doubleSlit x (x + s.doubleSlitLength) := by
  unfold State.covers
  rw [resolveSwap_map, pairMapped_down h]
  exact insertExtent_closed_covers _ _ _ _ _

/-! ### A late swap settled (R147, R148) -/

theorem readyFor_iff (s : State) (st : Station) (id : Nat) : s.readyFor st id = true ↔
    (s.station st).state = .ready ∧ ∃ r, s.order? id = some r ∧ (s.station st).layout = some r.fig.layout := by
  unfold State.readyFor
  cases s.order? id <;> simp

theorem settleSwap_free (h : (s.station st).late = none) : s.settleSwap st = s := by
  unfold State.settleSwap
  rw [h]

theorem settleSwap_waits (h : (s.station st).late = some l) (k : s.readyFor st l.order = false) : s.settleSwap st = s := by
  unfold State.settleSwap
  rw [h]
  exact if_neg (ne_true_of_eq_false k)

theorem settleSwap_ready (h : (s.station st).late = some l) (k : s.readyFor st l.order = true)
    (record : s.order? l.order = some r) :
    s.settleSwap st = (s.replanCut r).elim (s.lapseSwap st l) (s.resolveSwap st l) := by
  unfold State.settleSwap
  rw [h]
  dsimp only
  rw [if_pos k, record, Option.bind_some]
  cases s.replanCut r <;> rfl

/-- Settled, a late swap is as it was, or gone; the rest of the slitter unit stands. -/
theorem settleSwap_lateAlone (s : State) (st : Station) : LateAlone st s (s.settleSwap st) := by
  cases late : (s.station st).late with
  | none =>
    rw [settleSwap_free late]
    exact .of_slitter rfl
  | some l =>
    cases ready : s.readyFor st l.order with
    | false =>
      rw [settleSwap_waits late ready]
      exact .of_slitter rfl
    | true =>
      obtain ⟨-, r, record, -⟩ := (readyFor_iff s st l.order).mp ready
      rw [settleSwap_ready late ready record]
      cases s.replanCut r with
      | none => exact ⟨none, lapseSwap_slitter s st l⟩
      | some x => exact ⟨none, resolveSwap_slitter s st l x⟩

/-- A cut leaves swap_lead before station A (R147). -/
def State.reachesCut (s : State) (r : OrderRec) (n : Nat) : Prop :=
  s.knife + s.profile.line.swapLead ≤ cutPosition (r.p.getD 0) r.fig.sf n - s.profile.slitter.dA

theorem replanCut_first {n m : Nat} (sheets : r.n = some m) (low : 1 ≤ n) (high : n ≤ m) (h : s.reachesCut r n)
    (first : ∀ i, 1 ≤ i → i < n → ¬ s.reachesCut r i) : s.replanCut r = some (cutPosition (r.p.getD 0) r.fig.sf n) := by
  obtain ⟨i, rfl⟩ := Nat.exists_eq_add_one_of_ne_zero (Nat.ne_of_gt low)
  unfold State.replanCut
  dsimp only
  rw [sheets, Option.getD_some, List.find?_map, (List.find?_range_eq_some (i := i)).mpr]
  · rfl
  · refine ⟨decide_eq_true h, List.mem_range.mpr high, fun j before => ?_⟩
    rw [Bool.not_eq_true']
    exact decide_eq_false (first (j + 1) (Nat.succ_pos j) (Nat.succ_lt_succ before))

theorem replanCut_none (h : ∀ n m, r.n = some m → 1 ≤ n → n ≤ m → ¬ s.reachesCut r n) : s.replanCut r = none := by
  unfold State.replanCut
  refine List.find?_eq_none.mpr fun x held => ?_
  obtain ⟨i, range, rfl⟩ := List.mem_map.mp held
  rw [decide_eq_true_eq]
  cases sheets : r.n with
  | none =>
    rw [sheets] at range
    cases range
  | some m =>
    rw [sheets] at range
    exact h (i + 1) m sheets (Nat.succ_pos i) (List.mem_range.mp range)

theorem swapSettled_rule : Rule.SwapSettled := by
  intro s st l late
  refine ⟨fun waits => settleSwap_waits late (eq_false_of_ne_true (mt (readyFor_iff s st l.order).mp waits)),
    fun r ready record => ?_⟩
  have settled := settleSwap_ready late ((readyFor_iff s st l.order).mpr ready) record
  have either : (s.settleSwap st).slitter = (s.setStation st { s.station st with late := none }).slitter ∧
      (s.settleSwap st).dry = s.dry ∧ (s.settleSwap st).ClaimAbsent (.slitNotReady st) := by
    rw [settled]
    unfold State.ClaimAbsent
    cases s.replanCut r with
    | none => exact ⟨lapseSwap_slitter s st l, lapseSwap_dry s st l, (lapseSwap_closedAt record st).1⟩
    | some x =>
      refine ⟨resolveSwap_slitter s st l x, resolveSwap_dry s st l x, ?_⟩
      rw [Option.elim_some, resolveSwap_map]
      exact pairMapped_claimAbsent s st l x
  refine ⟨station_of_late_none either.1, either.2.1, either.2.2, fun n k sheets low high reaches first => ?_, fun none_ => ?_⟩
  · rw [settled, replanCut_first sheets low high reaches first]
    refine ⟨fun w held => resolveSwap_windowOrder? held, fun h => resolveSwap_closedAt h s _, ?_⟩
    rintro rfl old
    exact resolveSwap_covers old s _
  · rw [settled, replanCut_none none_]
    exact ⟨fun w held => lapseSwap_marks held, fun tracking quiet => lapseSwap_due tracking quiet st l,
      lapseSwap_closedAt record st⟩

/-! ### A late swap taken (R146) -/

/-- The entry of an order whose DROP, at its start or of its replanned pair, goes late. -/
def WindowOrder.goLate (w : WindowOrder) (replanned : Bool) : WindowOrder :=
  if replanned then { w with replan := w.replan.map Replan.goLate } else { w with swap := w.swap.goLate }

/-- The late swap that is then taken, its order's record being as the pins leave it. -/
def WindowOrder.lateSwap (w : WindowOrder) (r : OrderRec) (replanned : Bool) : LateSwap :=
  ⟨w.id, if replanned then w.replan.bind Replan.oldStation else w.swap.oldStation,
    if replanned then (w.replan.map Replan.x).getD (r.p.getD 0) else r.p.getD 0⟩

/-- A late swap noted at a station, once the start of its order is pinned (R146, steps 2 to 4). -/
def State.noteLate (s : State) (st : Station) (l : LateSwap) (replanned : Bool) : State :=
  let v := (s.modifyWindow l.order fun w => w.goLate replanned).insertExtent
    (.opened l.position .slitNotReady (.slitNotReady st))
  ((v.setStation st { v.station st with late := some l }).raise .swapLate).replan

theorem takeLateSwap_eq (free : (s.station st).late = none) (window : (s.pinStart id).windowOrder? id = some w)
    (record : (s.pinStart id).order? id = some r) (replanned : Bool) :
    s.takeLateSwap st id replanned = (s.pinStart id).noteLate st (w.lateSwap r replanned) replanned := by
  have own := windowOrder?_id window
  unfold State.takeLateSwap
  rw [free]
  dsimp only
  rw [window, record, ← own]
  rfl

theorem noteLate_mapAlone (s : State) (st : Station) (l : LateSwap) (replanned : Bool) :
    MapAlone (s.modifyWindow l.order fun w => w.goLate replanned)
      ((s.modifyWindow l.order fun w => w.goLate replanned).insertExtent
        (.opened l.position .slitNotReady (.slitNotReady st))) := insertExtent_mapAlone _ _

theorem noteLate_slitter (s : State) (st : Station) (l : LateSwap) (replanned : Bool) : (s.noteLate st l replanned).slitter =
    (s.setStation st { s.station st with late := some l }).slitter := by
  have same : ((s.modifyWindow l.order fun w => w.goLate replanned).insertExtent
    (.opened l.position .slitNotReady (.slitNotReady st))).slitter = s.slitter := (noteLate_mapAlone s st l replanned).slitter
  refine (replan_mapAlone _).slitter.trans ?_
  rw [State.raise_slitter, ← station_congr same st]
  exact setStation_slitter_congr same st _

theorem noteLate_station (s : State) (st : Station) (l : LateSwap) (replanned : Bool) :
    (s.noteLate st l replanned).station st = { s.station st with late := some l } :=
  (station_congr (noteLate_slitter s st l replanned) st).trans (State.station_setStation _ _ _)

theorem noteLate_plan (s : State) (st : Station) (l : LateSwap) (replanned : Bool) : (s.noteLate st l replanned).plan =
    (s.modifyWindow l.order fun w => w.goLate replanned).plan :=
  (replan_plan _).trans (noteLate_mapAlone s st l replanned).plan

theorem noteLate_book (s : State) (st : Station) (l : LateSwap) (replanned : Bool) : (s.noteLate st l replanned).book = s.book :=
  (replan_book _).trans (noteLate_mapAlone s st l replanned).book

theorem noteLate_dry (s : State) (st : Station) (l : LateSwap) (replanned : Bool) : (s.noteLate st l replanned).dry = s.dry :=
  (replan_dry _).trans (noteLate_mapAlone s st l replanned).dry

theorem goLate_id (w : WindowOrder) (replanned : Bool) : (w.goLate replanned).id = w.id := by cases replanned <;> rfl

theorem noteLate_windowOrder? (window : s.windowOrder? l.order = some w) (st : Station) (replanned : Bool) :
    (s.noteLate st l replanned).windowOrder? l.order = some (w.goLate replanned) := by
  rw [windowOrder?_congr (noteLate_plan s st l replanned)]
  exact modifyWindow_own (goLate_id · replanned) window

theorem noteLate_opensClaim (s : State) (st : Station) (l : LateSwap) (replanned : Bool) :
    (s.noteLate st l replanned).opensClaim .slitNotReady (.slitNotReady st) l.position := by
  unfold State.opensClaim State.noteLate
  dsimp only
  rw [replan_map]
  exact insertExtent_opened (s.modifyWindow l.order fun w => w.goLate replanned) _ _ _

theorem noteLate_raises (classes : (s.port .dry).classes.length = 10) (st : Station) (l : LateSwap) (replanned : Bool) :
    ((s.noteLate st l replanned).port .dry).rawOf 8 = true := by
  have kept := ((Untouched.refl s).modifyWindow l.order fun w => w.goLate replanned).insertExtent
    (.opened l.position .slitNotReady (.slitNotReady st))
  unfold State.noteLate State.port
  dsimp only
  rw [replan_ports]
  refine raise_raw (n := .swapLate) _ ?_
  exact ((kept.ports .dry).classCount.trans classes) ▸ (by decide : 8 < 10)

/-- A change of an entry that keeps its id pins nothing anew. -/
theorem pinnedBefore_modifyWindow {k : Nat} {f : WindowOrder → WindowOrder} (keeps : ∀ w, (f w).id = w.id)
    (h : s.pinnedBefore id) : (s.modifyWindow k f).pinnedBefore id := by
  intro before v w rest window own r record
  have named : ∀ w : WindowOrder, (if w.id == k then f w else w).id = w.id := fun w => by
    split
    · exact keeps w
    · rfl
  obtain ⟨before', behind, split, rfl, behindEq⟩ := List.map_eq_append_iff.mp window
  obtain ⟨v', behind', rfl, rfl, behindEq'⟩ := List.map_eq_cons_iff.mp behindEq
  obtain ⟨w', rest', rfl, rfl, rfl⟩ := List.map_eq_cons_iff.mp behindEq'
  rw [named] at own record
  exact h before' v' w' rest' split own r record

theorem noteLate_pinnedBefore (h : s.pinnedBefore id) (st : Station) (l : LateSwap) (replanned : Bool) :
    (s.noteLate st l replanned).pinnedBefore id := by
  have moved : (s.modifyWindow l.order fun w => w.goLate replanned).pinnedBefore id :=
    pinnedBefore_modifyWindow (goLate_id · replanned) h
  intro before v w rest window own r record
  rw [noteLate_plan] at window
  rw [order?_congr (noteLate_book s st l replanned)] at record
  exact moved before v w rest window own r record

theorem withdraw_status (x : SwapRec) : x.withdraw.status ≠ .pending := by
  unfold SwapRec.withdraw
  split
  · nofun
  · next h => exact fun pending => h (by rw [pending]; rfl)

theorem withdraw_station (x : SwapRec) : x.withdraw.station = x.station := by
  unfold SwapRec.withdraw
  split <;> rfl

theorem paired_goLate (w : Swap) (x : SwapRec) : w.goLate.paired x = w.paired x := by
  have drop : (w.drop.map SwapRec.withdraw).map SwapRec.station = w.drop.map SwapRec.station := by
    cases w.drop with
    | none => rfl
    | some d => exact congrArg some (withdraw_station d)
  unfold Swap.paired Swap.goLate
  rw [drop]

/-- A LIFT is the pair of a DROP by its station. -/
theorem paired_congr {x y : SwapRec} (h : x.station = y.station) (w : Swap) : w.paired x = w.paired y := by
  unfold Swap.paired
  rw [h]

/-- A DROP gone late and its pair are pending no more (R146, step 2). -/
theorem goLate_not_pending (w : Swap) : (∀ x, w.goLate.drop = some x → x.status ≠ .pending) ∧
    ∀ x ∈ w.goLate.lifts, w.goLate.paired x = true → x.status ≠ .pending := by
  refine ⟨fun x drop => ?_, fun x held paired => ?_⟩
  · obtain ⟨d, -, rfl⟩ := Option.map_eq_some_iff.mp drop
    exact withdraw_status d
  · obtain ⟨y, -, rfl⟩ := List.mem_map.mp held
    have own : w.paired y = true := by
      rw [paired_goLate] at paired
      refine (paired_congr ?_ w).trans paired
      split
      · exact (withdraw_station y).symm
      · rfl
    rw [if_pos own]
    exact withdraw_status y

/-- The old station of a swap at a boundary is that of its LIFT, while that is pending (R146, log 15). -/
theorem oldStation_boundary {w : Swap} {x : SwapRec} (kind : w.kind = .boundary) (drop : w.drop.map SwapRec.station = some st)
    (lifts : w.lifts = [x]) (other : x.station ≠ st) :
    w.oldStation = if x.status = .pending then some x.station else none := by
  have paired : w.paired x = true := by
    unfold Swap.paired
    simp [kind, drop, Ne.symm other]
  unfold Swap.oldStation
  rw [lifts, List.find?_singleton, paired]
  by_cases pending : x.status = .pending <;> simp [pending]

theorem replan_oldStation (p : Replan) :
    (∀ x, p.lift = some x → p.oldStation = if x.status = .pending then some x.station else none) ∧
    (p.lift = none → p.oldStation = none) := by
  unfold Replan.oldStation
  cases p.lift with
  | none => exact ⟨nofun, fun _ => rfl⟩
  | some y =>
    refine ⟨?_, nofun⟩
    rintro x ⟨⟩
    by_cases pending : y.status = .pending <;> simp [pending]

/-- A late swap is taken behind the pin of its order's start, which leaves the swap and its pair as they are. -/
theorem takeLateSwap_form (free : (s.station st).late = none) (window : s.windowOrder? id = some w)
    (record : s.order? id = some r) :
    ∃ v o, (s.pinStart id).windowOrder? id = some v ∧ v = { w with spanInserted := v.spanInserted } ∧
      (s.pinStart id).order? id = some o ∧
      ∀ replanned, s.takeLateSwap st id replanned = (s.pinStart id).noteLate st (v.lateSwap o replanned) replanned := by
  have pins := pinStart_pinning s id
  obtain ⟨v, window', same⟩ := pins.entries id w window
  obtain ⟨o, record', -⟩ := pins.orders id r record
  exact ⟨v, o, window', same, record', takeLateSwap_eq free window' record'⟩

theorem swapTakenLate_rule : Rule.SwapTakenLate := by
  intro s st id w r free window record
  obtain ⟨v, o, window', same, record', taken⟩ := takeLateSwap_form free window record
  have pins := pinStart_pinning s id
  have named : v.id = id := windowOrder?_id window'
  have entry : ∀ replanned, (s.takeLateSwap st id replanned).windowOrder? id = some (v.goLate replanned) := fun replanned => by
    have order : (v.lateSwap o replanned).order = id := named
    have found := noteLate_windowOrder? (s := s.pinStart id) (l := v.lateSwap o replanned) (by rw [order, window']) st replanned
    rw [taken]
    rwa [order] at found
  have late : ∀ replanned, ((s.takeLateSwap st id replanned).station st).late = some (v.lateSwap o replanned) :=
    fun replanned => by rw [taken, noteLate_station]
  have swap : v.swap = w.swap := by rw [same]
  have pair : v.replan = w.replan := by rw [same]
  refine ⟨fun replanned => ⟨?_, ?_, fun distinct => ?_, fun classes => ?_⟩, ?_,
    fun x kind drop lifts other => oldStation_boundary kind drop lifts other, fun p planned => ?_⟩
  · rw [late, taken, noteLate_station, station_congr pins.slitter]
  · rw [taken, noteLate_dry]
    exact pins.dry
  · rw [taken]
    exact noteLate_pinnedBefore (pinStart_pinnedBefore distinct (by rw [record]; rfl)) st _ _
  · rw [taken]
    exact noteLate_raises ((((Untouched.refl s).pinStart id).ports .dry).classCount.trans classes) st _ _
  · refine ⟨o, v.goLate false, ?_, entry false, ?_, ?_, ?_⟩
    · rw [taken, order?_congr (noteLate_book _ _ _ _), record']
    · rw [late, ← swap, ← named]
      rfl
    · rw [taken]
      exact noteLate_opensClaim _ st (v.lateSwap o false) false
    · exact goLate_not_pending v.swap
  · have planned' : v.replan = some p := pair.trans planned
    have form : v.lateSwap o true = ⟨id, p.oldStation, p.x⟩ := by
      unfold WindowOrder.lateSwap
      rw [planned', named]
      rfl
    refine ⟨v.goLate true, p.goLate, entry true, ?_, swap, ⟨p.oldStation, ?_, replan_oldStation p⟩, ?_, rfl,
      withdraw_status p.drop, fun x lift => ?_⟩
    · exact congrArg (Option.map Replan.goLate) planned'
    · rw [late, form]
    · have opened := noteLate_opensClaim (s.pinStart id) st (v.lateSwap o true) true
      rw [taken, form]
      rwa [form] at opened
    · obtain ⟨y, -, rfl⟩ := Option.map_eq_some_iff.mp lift
      exact withdraw_status y

end Sys2Proof.Machine
end

section
/-! PROOF. The start of a setup, and the assignment of a held layout computed again (R133, R137, R138). -/

namespace Sys2Proof.Machine

variable {s t u : State} {st : Station} {k : ToolKind} {n y : Nat} {x : Tool} {l : Layout} {keep : Bool} {d : Demand}

/-! ### The end of a setup -/

/-- Of the slitter unit, only the state, the result and the late-swap record of a station have changed. -/
def StateAlone (st : Station) (s t : State) : Prop :=
  ∃ q c v, t.slitter = (s.setStation st { s.station st with state := q, current := c, late := v }).slitter

theorem StateAlone.refl (st : Station) (s : State) : StateAlone st s s := by
  refine ⟨(s.station st).state, (s.station st).current, (s.station st).late, ?_⟩
  cases st <;> rfl

theorem StateAlone.station (h : StateAlone st s t) : t.station st = { s.station st with
    state := (t.station st).state, current := (t.station st).current, late := (t.station st).late } := by
  obtain ⟨q, c, v, same⟩ := h
  have own : t.station st = { s.station st with state := q, current := c, late := v } :=
    (station_congr same st).trans (State.station_setStation _ _ _)
  rw [own]

theorem StateAlone.other {sv : Station} (h : StateAlone st s t) (k : sv ≠ st) : t.station sv = s.station sv := by
  obtain ⟨q, c, v, same⟩ := h
  exact (station_congr same sv).trans (station_setStation_other k _ _)

theorem StateAlone.moves (h : StateAlone st s t) : t.slitter.moves = s.slitter.moves := by
  obtain ⟨q, c, v, same⟩ := h
  rw [same]
  rfl

theorem StateAlone.tool? (h : StateAlone st s t) (k : ToolKind) (n : Nat) : t.tool? st k n = s.tool? st k n := by
  unfold State.tool?
  rw [h.station]
  cases k <;> rfl

theorem StateAlone.entriesOf (h : StateAlone st s t) (k : ToolKind) (n : Nat) : t.entriesOf st k n = s.entriesOf st k n := by
  unfold State.entriesOf
  rw [h.moves]

theorem setting_stateAlone (st : Station) (s : State) :
    StateAlone st s (s.setStation st { s.station st with state := .setting }) :=
  ⟨.setting, (s.station st).current, (s.station st).late, rfl⟩

/-- A station READY by setup, before a late swap it holds is settled. -/
def State.setupDone (s : State) (st : Station) : State :=
  (s.setStation st { s.station st with state := .ready, current := .pass }).raise .setupDone

theorem setupDone_station (s : State) (st : Station) :
    (s.setupDone st).station st = { s.station st with state := .ready, current := .pass } := State.station_setStation _ _ _

theorem becomeReady_lateAlone (s : State) (st : Station) : LateAlone st (s.setupDone st) (s.becomeReady st) :=
  settleSwap_lateAlone (s.setupDone st) st

theorem becomeReady_station (s : State) (st : Station) : (s.becomeReady st).station st =
    { s.station st with state := .ready, current := .pass, late := ((s.becomeReady st).station st).late } := by
  have own := (becomeReady_lateAlone s st).station
  rwa [setupDone_station] at own

theorem becomeReady_stateAlone (s : State) (st : Station) : StateAlone st s (s.becomeReady st) := by
  obtain ⟨v, same⟩ := becomeReady_lateAlone s st
  refine ⟨.ready, .pass, v, same.trans ?_⟩
  rw [setupDone_station]
  exact (setStation_slitter_congr (State.raise_slitter _ _) st _).trans (congrArg State.slitter (setStation_setStation s st _ _))

theorem becomeReady_raises (classes : (s.port .dry).classes.length = 10) (st : Station) :
    ((s.becomeReady st).port .dry).rawOf 5 = true := by
  have raised : ((s.setupDone st).port .dry).rawOf 5 = true :=
    raise_raw (s.setStation st _) .setupDone (classes ▸ (by decide : 5 < 10))
  exact (((Untouched.refl (s.setupDone st)).settleSwap st).ports .dry).raw 5 raised

/-! ### Moves lost, and a layout that cannot be placed (R133, R137, R139) -/

theorem loseMoves_station (s : State) (st : Station) : (s.loseMoves st).station st =
    { s.station st with slits := (s.station st).slits.map Tool.lose, scores := (s.station st).scores.map Tool.lose } :=
  State.station_setStation _ _ _

theorem loseMoves_other {sv : Station} (h : sv ≠ st) (s : State) : (s.loseMoves st).station sv = s.station sv :=
  station_setStation_other h _ _

theorem loseMoves_tool? (s : State) (st : Station) (k : ToolKind) (n : Nat) :
    (s.loseMoves st).tool? st k n = (s.tool? st k n).map Tool.lose := by
  unfold State.tool?
  rw [loseMoves_station, ← nth1_map]
  cases k <;> rfl

theorem lose_out (h : x.state ≠ .moving) : x.lose = x := by rw [lose_eq, if_neg h]

theorem lose_not_moving (x : Tool) : x.lose.state ≠ .moving := by
  rw [lose_eq]
  split
  · nofun
  · next h => exact h

theorem failStation_stateAlone (s : State) (st : Station) : StateAlone st (s.loseMoves st) (s.failStation st) :=
  ⟨.failed, .fail, ((s.loseMoves st).station st).late, rfl⟩

theorem failStation_station (s : State) (st : Station) :
    (s.failStation st).station st = { (s.loseMoves st).station st with state := .failed, current := .fail } :=
  State.station_setStation _ _ _

theorem failStation_tool? (s : State) (st : Station) (k : ToolKind) (n : Nat) :
    (s.failStation st).tool? st k n = (s.tool? st k n).map Tool.lose :=
  ((failStation_stateAlone s st).tool? k n).trans (loseMoves_tool? s st k n)

theorem failStation_other {sv : Station} (h : sv ≠ st) (s : State) : (s.failStation st).station sv = s.station sv :=
  ((failStation_stateAlone s st).other h).trans (loseMoves_other h s)

theorem failStation_moves (s : State) (st : Station) :
    (s.failStation st).slitter.moves = s.slitter.moves.filter fun e => e.station != st := rfl

theorem failStation_unmoved (s : State) (st : Station) : ∀ e ∈ (s.failStation st).slitter.moves, e.station ≠ st := by
  intro e held
  rw [failStation_moves] at held
  exact bne_iff_ne.mp (List.mem_filter.mp held).2

theorem entriesOf_of_unmoved (h : ∀ e ∈ s.slitter.moves, e.station ≠ st) (k : ToolKind) (n : Nat) : s.entriesOf st k n = [] :=
  (entriesOf_nil_iff s st k n).mpr fun e held => Bool.eq_false_iff.mpr fun own => h e held ((isFor_iff e st k n).mp own).1

theorem failStation_raises (classes : (s.port .dry).classes.length = 10) (st : Station) :
    ((s.failStation st).port .dry).rawOf 6 = true :=
  raise_raw ((s.loseMoves st).setStation st _) .setupFailed (classes ▸ (by decide : 6 < 10))

theorem filter_others_idem (ms : List MoveEntry) (st : Station) :
    (ms.filter fun e => e.station != st).filter (fun e => e.station != st) = ms.filter fun e => e.station != st := by
  rw [List.filter_filter]
  simp only [Bool.and_self]

theorem failStation_out (h : s.tool? st k n = some x) (out : x.state = .out) :
    (s.failStation st).tool? st k n = some x ∧ (s.failStation st).entriesOf st k n = [] := by
  refine ⟨?_, entriesOf_of_unmoved (failStation_unmoved s st) k n⟩
  rw [failStation_tool?, h, Option.map_some, lose_out (by rw [out]; nofun)]

/-! ### Behind an assignment -/

/-- A tool behind an assignment, and its entries. -/
theorem assigned_tool (alone : StateAlone st (s.assignLayout st l keep) t) {z : Tool × Bool}
    (h : nth1 (s.reassigned st l keep k) n = some z) :
    t.tool? st k n = some z.1 ∧ t.entriesOf st k n =
      if z.2 then [⟨st, k, n, z.1.target.getD 0, 1, false⟩] else if z.1.state = .moving then s.entriesOf st k n else [] := by
  rw [alone.tool?, alone.entriesOf, assignLayout_tool?, h, assignLayout_entriesOf h]
  exact ⟨rfl, rfl⟩

theorem assigned_out (alone : StateAlone st (s.assignLayout st l keep) t) (h : s.tool? st k n = some x) (out : x.state = .out) :
    t.tool? st k n = some x ∧ t.entriesOf st k n = [] := by
  have behind := assigned_tool alone (nth1_reassigned_out h out l keep)
  rwa [if_neg Bool.false_ne_true, if_neg (by rw [out]; nofun)] at behind

theorem assigned_none (alone : StateAlone st (s.assignLayout st l keep) t) (h : s.tool? st k n = some x) (inUse : x.state ≠ .out)
    (given : (assign ((s.station st).tools k) (l.positions k))[n - 1]? = some none) :
    t.tool? st k n = some { x with state := .parked, target := none, attempts := 0 } ∧ t.entriesOf st k n = [] := by
  have place := nth1_reassigned h given keep
  rw [reassign_none inUse] at place
  exact assigned_tool alone place

/-- A tool that keeps its target keeps state, attempts and, while it is MOVING, its entry (R137). -/
theorem assigned_kept (alone : StateAlone st (s.assignLayout st l true) t) (h : s.tool? st k n = some x)
    (given : (assign ((s.station st).tools k) (l.positions k))[n - 1]? = some (some y)) (kept : x.Keeps y) :
    t.tool? st k n = some x ∧ (x.state = .moving → t.entriesOf st k n = s.entriesOf st k n) := by
  have place := nth1_reassigned h given true
  rw [reassign_kept kept] at place
  have behind := assigned_tool alone place
  exact ⟨behind.1, fun moving => behind.2.trans (if_pos moving)⟩

theorem assigned_stays (alone : StateAlone st (s.assignLayout st l keep) t) (h : s.tool? st k n = some x)
    (given : (assign ((s.station st).tools k) (l.positions k))[n - 1]? = some (some y)) (kept : keep = true → ¬ x.Keeps y)
    (stays : x.StaysAt s.profile.slitter.placeTolerance y) :
    t.tool? st k n = some { x with target := some y, attempts := 0 } ∧ t.entriesOf st k n = [] := by
  have place := nth1_reassigned h given keep
  rw [reassign_stays kept stays] at place
  have behind := assigned_tool alone place
  rwa [if_neg Bool.false_ne_true, if_neg (by rw [stays.1]; nofun)] at behind

theorem assigned_moves (alone : StateAlone st (s.assignLayout st l keep) t) (h : s.tool? st k n = some x) (inUse : x.state ≠ .out)
    (given : (assign ((s.station st).tools k) (l.positions k))[n - 1]? = some (some y)) (kept : keep = true → ¬ x.Keeps y)
    (moves : ¬ x.StaysAt s.profile.slitter.placeTolerance y) :
    t.tool? st k n = some { x with state := .moving, target := some y, attempts := 0 } ∧
    t.entriesOf st k n = [⟨st, k, n, y, 1, false⟩] := by
  have place := nth1_reassigned h given keep
  rw [reassign_moves inUse kept moves] at place
  exact assigned_tool alone place

/-! ### The start of a setup (R133) -/

theorem setupTaken_tool? (s : State) (st : Station) (d : Demand) (k : ToolKind) (n : Nat) :
    (s.setupTaken st d).tool? st k n = s.tool? st k n := by
  unfold State.tool?
  rw [setupTaken_station]
  cases k <;> rfl

theorem setupTaken_other {sv : Station} (h : sv ≠ st) (s : State) (d : Demand) : (s.setupTaken st d).station sv = s.station sv :=
  station_setStation_other h _ _

theorem setupTaken_moves (s : State) (st : Station) (d : Demand) :
    (s.setupTaken st d).slitter.moves = s.slitter.moves.filter fun e => e.station != st := rfl

theorem setupTaken_tools (s : State) (st : Station) (d : Demand) (k : ToolKind) :
    ((s.setupTaken st d).station st).tools k = (s.station st).tools k := by
  rw [setupTaken_station]
  cases k <;> rfl

theorem setupTaken_canPlace (s : State) (st : Station) (d : Demand) (l : Layout) :
    ((s.setupTaken st d).station st).canPlace l = true ↔ (s.station st).Fits l := by
  rw [canPlace_iff, setupTaken_station]
  rfl

theorem startSetup_fails (h : ¬ (s.station st).Fits d.layout) : s.startSetup st d = (s.setupTaken st d).failStation st := by
  rw [startSetup_eq, if_neg (mt (setupTaken_canPlace s st d d.layout).mp h)]

theorem startSetup_fits (h : (s.station st).Fits d.layout) : s.startSetup st d =
      let v := (s.setupTaken st d).assignLayout st d.layout false
      if (v.station st).owes then v.setStation st { v.station st with state := .setting } else v.becomeReady st := by
  rw [startSetup_eq, if_pos ((setupTaken_canPlace s st d d.layout).mpr h)]

theorem startSetup_stateAlone (h : (s.station st).Fits d.layout) :
    StateAlone st ((s.setupTaken st d).assignLayout st d.layout false) (s.startSetup st d) := by
  rw [startSetup_fits h]
  dsimp only
  split
  · exact setting_stateAlone _ _
  · exact becomeReady_stateAlone _ _

/-- What a setup's start leaves of its station's other figures, of the other station and of its entries. -/
theorem startSetup_frame (s : State) (st : Station) (d : Demand) :
    ((s.startSetup st d).station st).previous = (s.station st).current ∧
    ((s.startSetup st d).station st).layout = some d.layout ∧ ((s.startSetup st d).station st).order = some d.order ∧
    (s.startSetup st d).station st.other = s.station st.other ∧
    (s.startSetup st d).slitter.moves.filter (fun e => e.station != st) = s.slitter.moves.filter fun e => e.station != st := by
  have other := setupTaken_other (station_other_ne st) s d
  have moves := setupTaken_moves s st d
  by_cases fits : (s.station st).Fits d.layout
  · have alone := startSetup_stateAlone fits
    rw [alone.station, alone.other (station_other_ne st), alone.moves, assignLayout_station,
      assignLayout_station_other (station_other_ne st), assignLayout_others, setupTaken_station, other, moves]
    exact ⟨rfl, rfl, rfl, rfl, filter_others_idem _ _⟩
  · rw [startSetup_fails fits, failStation_station, failStation_other (station_other_ne st), failStation_moves, loseMoves_station,
      setupTaken_station, other, moves, filter_others_idem, filter_others_idem]
    exact ⟨rfl, rfl, rfl, rfl, rfl⟩

/-- A tool that is OUT takes no part in a setup. -/
theorem startSetup_out (h : s.tool? st k n = some x) (out : x.state = .out) (d : Demand) :
    (s.startSetup st d).tool? st k n = some x ∧ (s.startSetup st d).entriesOf st k n = [] := by
  have held := (setupTaken_tool? s st d k n).trans h
  by_cases fits : (s.station st).Fits d.layout
  · exact assigned_out (startSetup_stateAlone fits) held out
  · rw [startSetup_fails fits]
    exact failStation_out held out

/-- Behind a feasible setup's start the station is READY with PASS, or SETTING while it owes a move (R133, R138). -/
theorem startSetup_state (fits : (s.station st).Fits d.layout) :
    ((∀ k n x, (s.startSetup st d).tool? st k n = some x → x.state ≠ .moving) →
      ((s.startSetup st d).station st).state = .ready ∧ ((s.startSetup st d).station st).current = .pass ∧
      ((s.port .dry).classes.length = 10 → ((s.startSetup st d).port .dry).rawOf 5 = true)) ∧
    ((∃ k n x, (s.startSetup st d).tool? st k n = some x ∧ x.state = .moving) →
      ((s.startSetup st d).station st).state = .setting ∧ ((s.startSetup st d).station st).current = .none ∧
      ((s.port .dry).classes.length = 10 → ((s.startSetup st d).port .dry).rawOf 4 = true)) := by
  have alone := startSetup_stateAlone fits
  have form := startSetup_fits fits
  have same : (s.setupTaken st d).ports = s.ports := rfl
  generalize taken : s.setupTaken st d = v at *
  have none_ : (v.station st).current = .none := by rw [← taken, setupTaken_station]
  dsimp only at form
  refine ⟨fun still => ?_, fun moving => ?_⟩
  · have owes : ((v.assignLayout st d.layout false).station st).owes = false :=
      (not_owes_iff _ _).mpr fun k n x held => still k n x ((alone.tool? k n).trans held)
    rw [form, owes, if_neg Bool.false_ne_true]
    refine ⟨by rw [becomeReady_station], by rw [becomeReady_station], fun classes => becomeReady_raises ?_ st⟩
    have kept := ((Untouched.refl v).assignLayout st d.layout false).ports .dry
    rw [kept.classCount]
    unfold State.port
    rw [same]
    exact classes
  · have owes : ((v.assignLayout st d.layout false).station st).owes = true := by
      obtain ⟨k, n, x, held, moving⟩ := moving
      exact (owes_iff _ _).mpr ⟨k, n, x, (alone.tool? k n).symm.trans held, moving⟩
    obtain ⟨e, joins⟩ := mem_joiningFor_of_owes owes
    rw [form, owes, if_pos rfl, State.station_setStation, assignLayout_station]
    refine ⟨rfl, none_, fun classes => assignLayout_raises joins ?_⟩
    unfold State.port
    rw [same]
    exact classes

theorem setupStart_rule : Rule.SetupStart := by
  intro s st d
  obtain ⟨previous, layout, order, other, moves⟩ := startSetup_frame s st d
  refine ⟨previous, layout, order, other, moves, fun short => ?_, fun fits => ⟨fun k n x held out => ?_,
    fun k n x given held inUse at_ => ⟨?_, ?_⟩, startSetup_state fits⟩⟩
  · rw [startSetup_fails short, failStation_station]
    refine ⟨rfl, rfl, failStation_unmoved _ _, fun k n x held => ?_, fun classes => failStation_raises classes st⟩
    rw [failStation_tool?] at held
    obtain ⟨v, -, rfl⟩ := Option.map_eq_some_iff.mp held
    exact lose_not_moving v
  · exact (startSetup_out held out d).1
  all_goals
    have alone := startSetup_stateAlone fits
    have held' := (setupTaken_tool? s st d k n).trans held
    rw [← setupTaken_tools s st d k] at at_
  · rintro rfl
    exact (assigned_none alone held' inUse at_).1
  · rintro y rfl
    have fresh : false = true → ¬ x.Keeps y := fun e => absurd e Bool.false_ne_true
    refine ⟨fun stays => (assigned_stays alone held' at_ fresh stays).1, fun apart => ?_⟩
    obtain ⟨tool, entries⟩ := assigned_moves alone held' inUse at_ fresh apart
    exact ⟨tool, List.mem_of_mem_filter (entries ▸ List.mem_singleton_self _)⟩

/-! ### The assignment computed again (R137) -/

theorem reassignHeld_free (h : (s.station st).layout = none) : s.reassignHeld st = s := by
  unfold State.reassignHeld
  rw [h]

theorem reassignHeld_fails (h : (s.station st).layout = some l) (short : ¬ (s.station st).Fits l) :
    s.reassignHeld st = s.failStation st := by
  unfold State.reassignHeld
  rw [h]
  exact if_neg (mt (canPlace_iff _ _).mp short)

theorem reassignHeld_fits (h : (s.station st).layout = some l) (fits : (s.station st).Fits l) :
    s.reassignHeld st =
      let v := s.assignLayout st l true
      if (v.station st).owes then v.setStation st { v.station st with state := .setting }
      else if (s.station st).state = .setting then v.becomeReady st else v := by
  have state : ((s.assignLayout st l true).station st).state = (s.station st).state := by rw [assignLayout_station]
  unfold State.reassignHeld
  rw [h]
  dsimp only
  rw [if_pos ((canPlace_iff _ _).mpr fits), state]
  simp only [beq_iff_eq]

theorem reassignHeld_stateAlone (h : (s.station st).layout = some l) (fits : (s.station st).Fits l) :
    StateAlone st (s.assignLayout st l true) (s.reassignHeld st) := by
  rw [reassignHeld_fits h fits]
  dsimp only
  split
  · exact setting_stateAlone _ _
  · split
    · exact becomeReady_stateAlone _ _
    · exact .refl _ _

/-- A tool that is OUT and has no entry is left alone. -/
theorem reassignHeld_out (h : s.tool? st k n = some x) (out : x.state = .out) (gone : s.entriesOf st k n = []) :
    (s.reassignHeld st).tool? st k n = some x ∧ (s.reassignHeld st).entriesOf st k n = [] := by
  cases layout : (s.station st).layout with
  | none =>
    rw [reassignHeld_free layout]
    exact ⟨h, gone⟩
  | some l =>
    by_cases fits : (s.station st).Fits l
    · exact assigned_out (reassignHeld_stateAlone layout fits) h out
    · rw [reassignHeld_fails layout fits]
      exact failStation_out h out

theorem reassignHeld_frame (h : (s.station st).layout = some l) :
    ((s.reassignHeld st).station st).layout = some l ∧ ((s.reassignHeld st).station st).order = (s.station st).order ∧
    ((s.reassignHeld st).station st).demand = (s.station st).demand ∧
    (s.reassignHeld st).station st.other = s.station st.other ∧
    (s.reassignHeld st).slitter.moves.filter (fun e => e.station != st) = s.slitter.moves.filter fun e => e.station != st := by
  by_cases fits : (s.station st).Fits l
  · have alone := reassignHeld_stateAlone h fits
    rw [alone.station, alone.other (station_other_ne st), alone.moves, assignLayout_station,
      assignLayout_station_other (station_other_ne st), assignLayout_others]
    exact ⟨h, rfl, rfl, rfl, rfl⟩
  · rw [reassignHeld_fails h fits, failStation_station, failStation_other (station_other_ne st), failStation_moves,
      loseMoves_station, filter_others_idem]
    exact ⟨h, rfl, rfl, rfl, rfl⟩

/-- Behind a feasible assignment the station is SETTING while it owes a move; otherwise a SETTING one is READY with PASS, and
any other stays, with nothing raised (R137, R138). -/
theorem reassignHeld_state (h : (s.station st).layout = some l) (fits : (s.station st).Fits l) :
    ((∃ k n x, (s.reassignHeld st).tool? st k n = some x ∧ x.state = .moving) →
      ((s.reassignHeld st).station st).state = .setting ∧
      ((s.reassignHeld st).station st).current = (s.station st).current ∧
      ((s.reassignHeld st).station st).late = (s.station st).late) ∧
    ((∀ k n x, (s.reassignHeld st).tool? st k n = some x → x.state ≠ .moving) →
      ((s.station st).state = .setting →
        ((s.reassignHeld st).station st).state = .ready ∧ ((s.reassignHeld st).station st).current = .pass ∧
        ((s.port .dry).classes.length = 10 → ((s.reassignHeld st).port .dry).rawOf 5 = true)) ∧
      ((s.station st).state ≠ .setting →
        ((s.reassignHeld st).station st).state = (s.station st).state ∧
        ((s.reassignHeld st).station st).current = (s.station st).current ∧
        (s.reassignHeld st).ports = s.ports ∧ (s.reassignHeld st).work = s.work)) := by
  have alone := reassignHeld_stateAlone h fits
  have form := reassignHeld_fits h fits
  dsimp only at form
  refine ⟨fun moving => ?_, fun still => ?_⟩
  · have owes : ((s.assignLayout st l true).station st).owes = true := by
      obtain ⟨k, n, x, held, moving⟩ := moving
      exact (owes_iff _ _).mpr ⟨k, n, x, (alone.tool? k n).symm.trans held, moving⟩
    rw [form, owes, if_pos rfl, State.station_setStation, assignLayout_station]
    exact ⟨rfl, rfl, rfl⟩
  · have idle : ∀ k n x, (s.assignLayout st l true).tool? st k n = some x → x.state ≠ .moving :=
      fun k n x held => still k n x ((alone.tool? k n).trans held)
    rw [(not_owes_iff _ _).mpr idle, if_neg Bool.false_ne_true] at form
    refine ⟨fun setting => ?_, fun other => ?_⟩
    · rw [form, if_pos setting]
      refine ⟨by rw [becomeReady_station], by rw [becomeReady_station], fun classes => becomeReady_raises ?_ st⟩
      exact (((Untouched.refl s).assignLayout st l true).ports .dry).classCount.trans classes
    · rw [form, if_neg other, assignLayout_station]
      exact ⟨rfl, rfl, assignLayout_ports idle⟩

theorem reassignment_rule : Rule.Reassignment := by
  intro s st
  refine ⟨reassignHeld_free, fun l layout => ?_⟩
  obtain ⟨held, order, demand, other, moves⟩ := reassignHeld_frame layout
  refine ⟨held, order, demand, other, moves, fun short => ?_, fun fits => ?_⟩
  · rw [reassignHeld_fails layout short, failStation_station]
    refine ⟨rfl, rfl, failStation_unmoved _ _, fun k n x tool => ?_, fun classes => failStation_raises classes st⟩
    rw [failStation_tool?, tool, Option.map_some, lose_eq]
  · have alone := reassignHeld_stateAlone layout fits
    refine ⟨fun k n x tool out => assigned_out alone tool out, fun k n x given tool inUse at_ => ⟨?_, ?_⟩,
      reassignHeld_state layout fits⟩
    · rintro rfl
      exact assigned_none alone tool inUse at_
    · rintro y rfl
      exact ⟨fun kept => assigned_kept alone tool at_ kept,
        fun apart stays => assigned_stays alone tool at_ (fun _ => apart) stays,
        fun apart moves => assigned_moves alone tool inUse at_ (fun _ => apart) moves⟩

end Sys2Proof.Machine
end

section
/-! PROOF. The demand of a station, and what a change of it does (R130, R132, R139). -/

namespace Sys2Proof.Machine

variable {s t : State} {st : Station} {d : Demand}

/-! ### The demand as the plan gives it (R130) -/

/-- A drop of a station is still to come for an order: a DROP of its swap or of its replanned pair that is pending, a DROP
released, or its late swap (R130). -/
def State.Comes (s : State) (st : Station) (w : WindowOrder) : Prop :=
  (∃ x, w.swap.drop = some x ∧ x.station = st ∧ x.status = .pending) ∨
  (∃ pair, w.replan = some pair ∧ pair.drop.station = st ∧ pair.drop.status = .pending) ∨
  (∃ r ∈ s.dry.released, r.kind = .drop ∧ r.station = some st ∧ r.order = w.id) ∨
  (∃ x, (s.station st).late = some x ∧ x.order = w.id)

theorem map_getD_iff {α : Type} (o : Option α) (p : α → Bool) :
    (o.map p).getD false = true ↔ ∃ x, o = some x ∧ p x = true := by
  cases o <;> simp

theorem dropToCome_iff (s : State) (st : Station) (w : WindowOrder) : s.dropToCome st w = true ↔ s.Comes st w := by
  unfold State.dropToCome State.Comes
  simp only [Bool.or_eq_true, map_getD_iff, List.any_eq_true, Bool.and_eq_true, beq_iff_eq, or_assoc, and_assoc]

theorem demandOf_none (h : ∀ l ∈ s.lines, ¬ s.Comes st l.w) : s.demandOf st = none := by
  unfold State.demandOf
  rw [List.find?_eq_none.mpr fun l held => mt (dropToCome_iff s st l.w).mp (h l held)]
  rfl

theorem demandOf_first {before after : List Line} {l : Line} (lines : s.lines = before ++ l :: after) (comes : s.Comes st l.w)
    (first : ∀ m ∈ before, ¬ s.Comes st m.w) : s.demandOf st = some ⟨l.w.id, l.r.fig.layout⟩ := by
  have found : (s.lines.find? fun l => s.dropToCome st l.w) = some l := by
    refine List.find?_eq_some_iff_append.mpr ⟨(dropToCome_iff s st l.w).mpr comes, before, after, lines, fun m held => ?_⟩
    rw [Bool.not_eq_true', Bool.eq_false_iff]
    exact mt (dropToCome_iff s st m.w).mp (first m held)
  unfold State.demandOf
  rw [found]
  rfl

theorem setDemand_tracking (tracking : s.part = .tracking) (st : Station) : s.setDemand st =
    if s.demandOf st = (s.station st).demand then s
    else (s.setStation st { s.station st with demand := s.demandOf st }).demandChanged st (s.demandOf st) :=
  if_pos (by simp [State.tracking, tracking])

/-- A recomputation sets the demands of both stations anew (R130). -/
theorem recompute_sets_demand (tracking : s.part = .tracking) (st : Station) : Task.demand st ∈ s.recompute.work := by
  have form : s.recompute = State.push _ recomputeActs := if_pos (by simp [State.tracking, tracking])
  rw [form, State.work_push]
  refine List.mem_append_right _ ?_
  cases st <;> decide

theorem demandSet_rule : Rule.DemandSet := by
  intro s st
  refine ⟨fun setup => if_neg (by simp [State.tracking, setup]), fun tracking => recompute_sets_demand tracking st,
    fun new tracking plan => ?_⟩
  have demand : s.demandOf st = new := by
    rcases plan with ⟨rfl, none_⟩ | ⟨before, l, after, lines, comes, first, rfl⟩
    · exact demandOf_none none_
    · exact demandOf_first lines comes first
  rw [setDemand_tracking tracking, demand]
  exact ⟨fun same => if_pos same, fun differs => if_neg differs⟩

/-! ### A change of demand (R132, R139) -/

/-- An order marked with the station whose setup has begun for it (R52). -/
def WindowOrder.begun (w : WindowOrder) (st : Station) : WindowOrder := { w with setupOn := some st }

/-- A SETTING station goes on for an order of the layout it sets. -/
theorem demandChanged_goesOn (state : (s.station st).state = .setting) (layout : (s.station st).layout = some d.layout) :
    s.demandChanged st (some d) =
      (s.setStation st { s.station st with order := some d.order }).modifyWindow d.order fun w => w.begun st := by
  unfold State.demandChanged
  dsimp only
  rw [state]
  exact if_pos layout

/-- A READY station that serves an order of its layout, its repeat-layout setup not yet reported (R139). -/
def State.repeatLayout (s : State) (st : Station) (d : Demand) : State :=
  (s.setStation st { s.station st with
    order := some d.order, previous := (s.station st).current, current := .pass }).modifyWindow d.order fun w => w.begun st

theorem demandChanged_repeats (state : (s.station st).state = .ready) (layout : (s.station st).layout = some d.layout) :
    s.demandChanged st (some d) = ((s.repeatLayout st d).raise .setupDone).settleSwap st := by
  unfold State.demandChanged State.repeatLayout
  dsimp only
  rw [state]
  exact if_pos layout

theorem demandChanged_starts (h : (s.station st).state = .idle ∨ (s.station st).state = .failed ∨
      ((s.station st).state = .setting ∨ (s.station st).state = .ready) ∧ (s.station st).layout ≠ some d.layout) :
    s.demandChanged st (some d) = s.startSetup st d := by
  unfold State.demandChanged
  dsimp only
  rcases h with state | state | ⟨state | state, differs⟩ <;> rw [state]
  · exact if_neg differs
  · exact if_neg differs

/-- A setup abandoned: the station is IDLE, its moves lost (R139). -/
theorem demandChanged_abandons (state : (s.station st).state = .setting) :
    s.demandChanged st none = (s.loseMoves st).setStation st { (s.loseMoves st).station st with state := .idle } := by
  unfold State.demandChanged
  dsimp only
  rw [state]

/-- Without a demand an IDLE or READY station stays. -/
theorem demandChanged_stays (state : (s.station st).state = .idle ∨ (s.station st).state = .ready) :
    s.demandChanged st none = s := by
  unfold State.demandChanged
  dsimp only
  rcases state with state | state <;> rw [state]

theorem demandChanged_recovers (state : (s.station st).state = .failed) :
    s.demandChanged st none = s.setStation st { s.station st with state := .idle } := by
  unfold State.demandChanged
  dsimp only
  rw [state]

theorem demandChanged_down (state : (s.station st).state = .down) (new : Option Demand) : s.demandChanged st new = s := by
  unfold State.demandChanged
  dsimp only
  rw [state]

theorem abandoned_stateAlone (s : State) (st : Station) :
    StateAlone st (s.loseMoves st) ((s.loseMoves st).setStation st { (s.loseMoves st).station st with state := .idle }) :=
  ⟨.idle, ((s.loseMoves st).station st).current, ((s.loseMoves st).station st).late, rfl⟩

theorem demandChange_rule : Rule.DemandChange := by
  intro s st
  refine ⟨fun new down => demandChanged_down down new, ⟨demandChanged_stays, demandChanged_recovers, fun setting => ?_⟩,
    fun d => ⟨fun idle => ?_, fun up differs => ?_, fun setting layout => ?_, fun ready layout => ?_⟩⟩
  · have alone := abandoned_stateAlone s st
    have apart := station_other_ne st
    rw [demandChanged_abandons setting]
    refine ⟨?_, fun k n x held => ?_, alone.moves, (alone.other apart).trans (loseMoves_other apart s), rfl⟩
    · rw [State.station_setStation, loseMoves_station]
    · rw [alone.tool?, loseMoves_tool?, held, Option.map_some, lose_eq]
  · exact demandChanged_starts (idle.imp id .inl)
  · exact demandChanged_starts (.inr (.inr ⟨up, differs⟩))
  · rw [demandChanged_goesOn setting layout]
    exact ⟨fun w held => modifyWindow_own (s := s.setStation st _) (fun _ => rfl) held, rfl⟩
  · exact ⟨s.repeatLayout st d, fun w held => modifyWindow_own (s := s.setStation st _) (fun _ => rfl) held, rfl,
      demandChanged_repeats ready layout⟩

end Sys2Proof.Machine
end

section
/-! PROOF. Settles O45 and O46: Tool Placed, Tool Out and Tool In (R136 to R138, R140, R141), with the rules of the files before. -/

namespace Sys2Proof.Machine

variable {s t u : State} {st : Station} {k : ToolKind} {n m y : Nat} {x : Tool} {d : Demand} {p : Port} {tag : Byte} {sc kc : Nat}

/-! ### The tool that a request names (R207) -/

/-- A request's codes and number name a tool of a station. -/
def State.Names (s : State) (sc kc n : Nat) (st : Station) (k : ToolKind) (x : Tool) : Prop :=
  Station.ofCode? sc = some st ∧ ToolKind.ofCode? kc = some k ∧ 1 ≤ n ∧ n ≤ k.tools ∧ s.tool? st k n = some x

theorem namedTool_some (h : s.Names sc kc n st k x) : s.namedTool sc kc n = some (st, k, x) := by
  obtain ⟨station, kind, low, high, tool⟩ := h
  unfold State.namedTool
  rw [station, kind]
  dsimp only
  rw [if_pos (by simp [low, high]), tool]
  rfl

theorem namedTool_none (h : ∀ st k x, ¬ s.Names sc kc n st k x) : s.namedTool sc kc n = none := by
  unfold State.namedTool
  cases station : Station.ofCode? sc with
  | none => rfl
  | some st =>
    cases kind : ToolKind.ofCode? kc with
    | none => rfl
    | some k =>
      dsimp only
      split
      · next range =>
        rw [Bool.and_eq_true, decide_eq_true_eq, decide_eq_true_eq] at range
        cases tool : s.tool? st k n with
        | none => rfl
        | some x => exact absurd ⟨station, kind, range.1, range.2, tool⟩ (h st k x)
      · rfl

theorem toolPlacedVerdict_range (h : (∀ st k x, ¬ s.Names sc kc n st k x) ∨ 28000 < m) :
    toolPlacedVerdict sc kc n m s = .no .range := by
  have limit : Config.crossMax = 28000 := rfl
  unfold toolPlacedVerdict
  rw [limit]
  rcases h with unnamed | beyond
  · rw [namedTool_none unnamed]
  · split
    · exact if_neg (Nat.not_le.mpr beyond)
    · rfl

theorem toolPlacedVerdict_named (h : s.Names sc kc n st k x) (le : m ≤ 28000) : toolPlacedVerdict sc kc n m s =
    if x.state = .moving then .ok fun s => s.placeTool st k n m x else .no .state := by
  have limit : Config.crossMax = 28000 := rfl
  unfold toolPlacedVerdict
  rw [limit, namedTool_some h]
  dsimp only
  rw [if_pos le]
  simp only [beq_iff_eq]

theorem toolOutVerdict_range (h : ∀ st k x, ¬ s.Names sc kc n st k x) : toolOutVerdict sc kc n s = .no .range := by
  unfold toolOutVerdict
  rw [namedTool_none h]

theorem toolOutVerdict_named (h : s.Names sc kc n st k x) : toolOutVerdict sc kc n s =
    if x.state = .out then .no .state else .ok fun s => s.takeToolOut st k n x := by
  unfold toolOutVerdict
  rw [namedTool_some h]
  simp only [beq_iff_eq]

theorem toolInVerdict_range (h : ∀ st k x, ¬ s.Names sc kc n st k x) : toolInVerdict sc kc n s = .no .range := by
  unfold toolInVerdict
  rw [namedTool_none h]

theorem toolInVerdict_named (h : s.Names sc kc n st k x) : toolInVerdict sc kc n s =
    if x.state = .out then .ok fun s => s.takeToolIn st k n else .no .state := by
  unfold toolInVerdict
  rw [namedTool_some h]
  simp only [beq_iff_eq]

/-! ### A tool changed, its entries gone -/

/-- A tool changed, and its entries taken from the move list. -/
def State.toolSet (s : State) (st : Station) (k : ToolKind) (n : Nat) (f : Tool → Tool) : State :=
  (s.modifyTool st k n f).dropMoves fun e => e.isFor st k n

theorem toolSet_tool? (s : State) (st : Station) (k j : ToolKind) (n m : Nat) (f : Tool → Tool) :
    (s.toolSet st k n f).tool? st j m = (s.tool? st j m).map fun x => if (j, m) = (k, n) then f x else x :=
  tool?_modifyTool s st k j n m f

theorem toolSet_same (h : s.tool? st k n = some x) (f : Tool → Tool) : (s.toolSet st k n f).tool? st k n = some (f x) :=
  tool?_modifyTool_same h f

theorem toolSet_moves (s : State) (st : Station) (k : ToolKind) (n : Nat) (f : Tool → Tool) :
    (s.toolSet st k n f).slitter.moves = s.slitter.moves.filter fun e => !e.isFor st k n := rfl

theorem toolSet_entriesOf (s : State) (st : Station) (k : ToolKind) (n : Nat) (f : Tool → Tool) :
    (s.toolSet st k n f).entriesOf st k n = [] := by
  refine (entriesOf_nil_iff _ st k n).mpr fun e held => ?_
  rw [toolSet_moves] at held
  simpa using (List.mem_filter.mp held).2

theorem toolSet_station (s : State) (st : Station) (k : ToolKind) (n : Nat) (f : Tool → Tool) :
    (s.toolSet st k n f).station st = { s.station st with
      slits := ((s.toolSet st k n f).station st).slits, scores := ((s.toolSet st k n f).station st).scores } :=
  station_modifyTool_fields s st k n f

theorem toolSet_state (s : State) (st : Station) (k : ToolKind) (n : Nat) (f : Tool → Tool) :
    ((s.toolSet st k n f).station st).state = (s.station st).state := by rw [toolSet_station]

theorem toolSet_demand (s : State) (st : Station) (k : ToolKind) (n : Nat) (f : Tool → Tool) :
    ((s.toolSet st k n f).station st).demand = (s.station st).demand := by rw [toolSet_station]

theorem Untouched.toolSet (h : Untouched s t) (st : Station) (k : ToolKind) (n : Nat) (f : Tool → Tool) :
    Untouched s (t.toolSet st k n f) := (h.modifyTool st k n f).dropMoves _

/-- A tool changed twice on its way out of service is changed once. -/
theorem modifyTool_toolSet {f g e : Tool → Tool} (h : s.tool? st k n = some x) (same : g (f x) = e x) :
    (s.modifyTool st k n f).toolSet st k n g = s.toolSet st k n e := by
  unfold State.toolSet
  rw [modifyTool_modifyTool, modifyTool_congr (g := e) h same]

theorem toolSet_modifyTool {f g e : Tool → Tool} (h : s.tool? st k n = some x) (same : g (f x) = e x) :
    (s.toolSet st k n f).modifyTool st k n g = s.toolSet st k n e := modifyTool_toolSet h same

theorem Untouched.reassignHeld (h : Untouched s t) (st : Station) : Untouched s (t.reassignHeld st) := by
  unfold State.reassignHeld
  dsimp only
  repeat' split
  · exact h
  · exact (h.assignLayout _ _ _).setStation _ _
  · exact (h.assignLayout _ _ _).becomeReady _
  · exact h.assignLayout _ _ _
  · exact h.failStation _

/-! ### Tool Placed (R136 to R138) -/

/-- A tool PLACED where it was measured, its move gone. -/
def State.toolPlaced (s : State) (st : Station) (k : ToolKind) (n m : Nat) : State :=
  s.toolSet st k n fun x => { x with state := .placed, measured := some m }

theorem placeTool_within (target : x.target = some y) (h : within s.profile.slitter.placeTolerance m y = true) :
    s.placeTool st k n m x =
      if (s.station st).state = .setting ∧ ((s.toolPlaced st k n m).station st).owes = false then
        (s.toolPlaced st k n m).becomeReady st
      else s.toolPlaced st k n m := by
  have state : ((s.toolPlaced st k n m).station st).state = (s.station st).state := toolSet_state _ _ _ _ _
  unfold State.placeTool
  rw [target]
  dsimp only [Option.getD_some]
  rw [if_pos h]
  change (if (((s.toolPlaced st k n m).station st).state == .setting && !((s.toolPlaced st k n m).station st).owes) = true then
    (s.toolPlaced st k n m).becomeReady st else s.toolPlaced st k n m) = _
  rw [state]
  simp only [Bool.and_eq_true, beq_iff_eq, Bool.not_eq_true']

theorem placeTool_stateAlone (target : x.target = some y) (h : within s.profile.slitter.placeTolerance m y = true) :
    StateAlone st (s.toolPlaced st k n m) (s.placeTool st k n m x) := by
  rw [placeTool_within target h]
  split
  · exact becomeReady_stateAlone _ _
  · exact .refl _ _

/-- The last tool placed makes a SETTING station READY (R138). -/
theorem placeTool_last (target : x.target = some y) (h : within s.profile.slitter.placeTolerance m y = true)
    (setting : (s.station st).state = .setting)
    (still : ∀ j i v, (j, i) ≠ (k, n) → s.tool? st j i = some v → v.state ≠ .moving) :
    s.placeTool st k n m x = (s.toolPlaced st k n m).becomeReady st := by
  have owes : ((s.toolPlaced st k n m).station st).owes = false := by
    refine (not_owes_iff _ _).mpr fun j i v held => ?_
    unfold State.toolPlaced at held
    rw [toolSet_tool?] at held
    obtain ⟨w, before, rfl⟩ := Option.map_eq_some_iff.mp held
    split
    · nofun
    · next other => exact still j i w other before
  rw [placeTool_within target h, if_pos ⟨setting, owes⟩]

/-- A tool measured outside the tolerance, its attempt counted (R137). -/
def State.toolMissed (s : State) (st : Station) (k : ToolKind) (n m : Nat) (x : Tool) : State :=
  s.modifyTool st k n fun v => { v with attempts := x.attempts + 1, measured := some m }

/-- A tool measured outside the tolerance whose move is entered again. -/
def State.toolRetried (s : State) (st : Station) (k : ToolKind) (n m y : Nat) (x : Tool) : State :=
  ((s.toolMissed st k n m x).dropMoves fun e => e.isFor st k n).joinMoves [⟨st, k, n, y, x.attempts + 2, false⟩]

theorem placeTool_retries (target : x.target = some y) (far : within s.profile.slitter.placeTolerance m y = false)
    (more : x.attempts + 1 < s.profile.slitter.placeAttempts) : s.placeTool st k n m x = s.toolRetried st k n m y x := by
  unfold State.placeTool
  rw [target]
  dsimp only [Option.getD_some]
  rw [if_neg (ne_true_of_eq_false far)]
  exact if_pos more

theorem placeTool_fails (target : x.target = some y) (far : within s.profile.slitter.placeTolerance m y = false)
    (last : s.profile.slitter.placeAttempts ≤ x.attempts + 1) : s.placeTool st k n m x =
      ((((s.toolMissed st k n m x).retireTool st k n).raise .toolOut).reassignHeld st).replan := by
  unfold State.placeTool
  rw [target]
  dsimp only [Option.getD_some]
  rw [if_neg (ne_true_of_eq_false far)]
  exact if_neg (Nat.not_lt.mpr last)

/-- The tool's move entered again: of the slitter unit the tool and its entries have changed. -/
theorem toolRetried_slitter (h : s.tool? st k n = some x) :
    (s.toolRetried st k n m y x).tool? st k n = some { x with attempts := x.attempts + 1, measured := some m } ∧
    (s.toolRetried st k n m y x).slitter.moves =
      s.slitter.moves.filter (fun e => !e.isFor st k n) ++ [⟨st, k, n, y, x.attempts + 2, false⟩] ∧
    ((s.toolRetried st k n m y x).station st).state = (s.station st).state := by
  have slitter : (s.toolRetried st k n m y x).slitter = _ := joinMoves_slitter _ _
  refine ⟨?_, congrArg SlitterUnit.moves slitter, ?_⟩
  · exact (congrArg (fun v : SlitterUnit => nth1 ((v.stations.get st).tools k) n) slitter).trans (tool?_modifyTool_same h _)
  · refine (congrArg (fun v : SlitterUnit => (v.stations.get st).state) slitter).trans ?_
    exact toolSet_state s st k n fun v => { v with attempts := x.attempts + 1, measured := some m }

/-- A tool that is OUT at its last attempt keeps its attempts (log 23). -/
def State.toolSpent (s : State) (st : Station) (k : ToolKind) (n m : Nat) : State :=
  (s.toolSet st k n fun x =>
    { x with state := .out, target := none, attempts := x.attempts + 1, measured := some m }).raise .toolOut

theorem retireTool_eq (s : State) (st : Station) (k : ToolKind) (n : Nat) :
    s.retireTool st k n = s.toolSet st k n fun x => { x with state := .out, target := none } := rfl

theorem toolMissed_retireTool (h : s.tool? st k n = some x) :
    ((s.toolMissed st k n m x).retireTool st k n).raise .toolOut = s.toolSpent st k n m := by
  rw [retireTool_eq]
  exact congrArg (State.raise · .toolOut) (modifyTool_toolSet h rfl)

theorem toolSpent_reassigned (h : s.tool? st k n = some x) : let t := ((s.toolSpent st k n m).reassignHeld st).replan
    t.tool? st k n = some { state := .out, target := none, attempts := x.attempts + 1, measured := some m } ∧
    (∀ e ∈ t.slitter.moves, e.isFor st k n = false) ∧
    ((s.port .dry).classes.length = 10 → (t.port .dry).rawOf 7 = true) := by
  intro t
  have same : t.slitter = ((s.toolSpent st k n m).reassignHeld st).slitter := (replan_mapAlone _).slitter
  obtain ⟨tool, entries⟩ := reassignHeld_out (s := s.toolSpent st k n m) (st := st) (toolSet_same h _) rfl
    (toolSet_entriesOf s st k n _)
  refine ⟨(tool?_congr same st k n).trans tool, ?_, fun classes => ?_⟩
  · rw [same]
    exact (entriesOf_nil_iff _ st k n).mp entries
  · have raised : ((s.toolSpent st k n m).port .dry).rawOf 7 = true :=
      raise_raw (s.toolSet st k n _) .toolOut (classes ▸ (by decide : 7 < 10))
    exact (((Untouched.refl (s.toolSpent st k n m)).reassignHeld st).replan.ports .dry).raw 7 raised

theorem Untouched.placeTool (h : Untouched s t) (st : Station) (k : ToolKind) (n m : Nat) (x : Tool) :
    Untouched s (t.placeTool st k n m x) := by
  unfold State.placeTool
  dsimp only
  repeat' split
  · exact (h.toolSet st k n _).becomeReady st
  · exact h.toolSet st k n _
  · exact (h.toolSet st k n _).joinMoves _
  · exact ((((h.modifyTool st k n _).toolSet st k n _).raise _).reassignHeld st).replan

/-- Settles O45. -/
theorem toolPlacedIsJudged : Obligations.ToolPlacedIsJudged := by
  intro p tag sc kc n m s heard
  refine ⟨fun bad quiet => exec_refused .range rfl quiet heard (toolPlacedVerdict_range bad), fun st k x named le =>
    ⟨fun still quiet => ?_, fun y moving target => ?_⟩⟩
  · refine exec_refused .state rfl quiet heard ((toolPlacedVerdict_named named le).trans ?_)
    exact if_neg still
  · have verdict := (toolPlacedVerdict_named named le).trans (if_pos moving)
    have tool : (s.withFrame p (doneFrame 0x24 tag [])).tool? st k n = some x := named.2.2.2.2
    have classes (ten : (s.port .dry).classes.length = 10) :
        ((s.withFrame p (doneFrame 0x24 tag [])).port .dry).classes.length = 10 :=
      (congrArg List.length (withFrame_classes s p _ .dry)).trans ten
    refine ⟨(s.withFrame p (doneFrame 0x24 tag [])).placeTool st k n m x,
      exec_ok (i := .toolPlaced p tag sc kc n m) (f := fun s => s.placeTool st k n m x) rfl heard verdict,
      joinedBy_of_untouched ((Untouched.refl _).placeTool st k n m x).ports, fun below above => ?_, fun apart =>
      ⟨fun more => ?_, fun last => ?_⟩⟩
    · have near := (within_iff s.profile.slitter.placeTolerance m y).mpr ⟨below, above⟩
      have alone := placeTool_stateAlone (s := s.withFrame p (doneFrame 0x24 tag [])) (st := st) (k := k) (n := n) target near
      refine ⟨(alone.tool? k n).trans (toolSet_same tool _), alone.moves, fun setting _ still => ?_⟩
      rw [placeTool_last (s := s.withFrame p (doneFrame 0x24 tag [])) target near setting still, becomeReady_station]
      exact ⟨rfl, rfl, fun ten =>
        becomeReady_raises (s := (s.withFrame p (doneFrame 0x24 tag [])).toolPlaced st k n m) (classes ten) st⟩
    · have far := Bool.eq_false_iff.mpr (mt (within_iff s.profile.slitter.placeTolerance m y).mp apart)
      rw [placeTool_retries (s := s.withFrame p (doneFrame 0x24 tag [])) target far more]
      exact toolRetried_slitter tool
    · have far := Bool.eq_false_iff.mpr (mt (within_iff s.profile.slitter.placeTolerance m y).mp apart)
      rw [placeTool_fails (s := s.withFrame p (doneFrame 0x24 tag [])) target far last, toolMissed_retireTool tool]
      obtain ⟨out, entries, raised⟩ := toolSpent_reassigned (m := m) tool
      exact ⟨out, entries, fun ten => raised (classes ten), rfl⟩

/-! ### Tool Out (R140) -/

/-- A tool taken out of service: OUT, with its move gone and no attempts. -/
def State.toolWithdrawn (s : State) (st : Station) (k : ToolKind) (n : Nat) : State :=
  s.toolSet st k n fun x => { x with state := .out, target := none, attempts := 0 }

theorem toolWithdrawn_demand (s : State) (st : Station) (k : ToolKind) (n : Nat) :
    ((s.toolWithdrawn st k n).station st).demand = (s.station st).demand := toolSet_demand _ _ _ _ _

theorem retireTool_modifyTool (h : s.tool? st k n = some x) :
    ((s.retireTool st k n).modifyTool st k n fun v => { v with attempts := 0 }) = s.toolWithdrawn st k n := by
  rw [retireTool_eq]
  exact toolSet_modifyTool h rfl

/-- A tool that leaves an IDLE or FAILED station, or that was not assigned at one READY or DOWN, leaves it as it is. -/
theorem takeToolOut_calm (h : s.tool? st k n = some x) (calm : (s.station st).state = .idle ∨ (s.station st).state = .failed ∨
      ((s.station st).state = .ready ∨ (s.station st).state = .down) ∧ x.assigned = false) :
    s.takeToolOut st k n x = (s.toolWithdrawn st k n).replan := by
  unfold State.takeToolOut
  dsimp only
  rw [retireTool_modifyTool h]
  rcases calm with state | state | ⟨state | state, free⟩ <;> rw [state]
  · rw [free]
    rfl
  · rw [free]
    rfl

/-- A tool that leaves a SETTING station, or was assigned at a READY one without a demand: the assignment is computed again. -/
theorem takeToolOut_reassigns (h : s.tool? st k n = some x) (held : (s.station st).state = .setting ∨
      (s.station st).state = .ready ∧ x.assigned = true ∧ (s.station st).demand = none) :
    s.takeToolOut st k n x = ((s.toolWithdrawn st k n).reassignHeld st).replan := by
  unfold State.takeToolOut
  dsimp only
  rw [retireTool_modifyTool h]
  rcases held with state | ⟨state, assigned, demand⟩ <;> rw [state]
  rw [assigned, demand]
  rfl

/-- An assigned tool that leaves a READY station with a demand: its setup begins. -/
theorem takeToolOut_setsUp (h : s.tool? st k n = some x) (state : (s.station st).state = .ready) (assigned : x.assigned = true)
    (demand : (s.station st).demand = some d) :
    s.takeToolOut st k n x = ((s.toolWithdrawn st k n).startSetup st d).replan := by
  have held : (s.toolWithdrawn st k n).setupForDemand st = (s.toolWithdrawn st k n).startSetup st d := by
    unfold State.setupForDemand
    rw [toolWithdrawn_demand, demand]
  unfold State.takeToolOut
  dsimp only
  rw [retireTool_modifyTool h, state, assigned, demand]
  exact congrArg State.replan held

/-- An assigned tool that leaves a DOWN station opens TOOL_LOST. -/
theorem takeToolOut_loses (h : s.tool? st k n = some x) (state : (s.station st).state = .down) (assigned : x.assigned = true) :
    s.takeToolOut st k n x = ((s.toolWithdrawn st k n).insertExtent
      (.opened (s.knife + s.stationDistance st) .toolLost (.toolLost st))).replan := by
  unfold State.takeToolOut
  dsimp only
  rw [retireTool_modifyTool h, state, assigned]
  rfl

/-- Of a tool that has left service nothing is left but its measured position, whatever its station does. -/
structure ToolGone (st : Station) (k : ToolKind) (n : Nat) (x : Tool) (s t : State) : Prop where
  tool : t.tool? st k n = some { x with state := .out, target := none, attempts := 0 }
  entries : t.entriesOf st k n = []
  untouched : Untouched s t

theorem ToolGone.replan (h : ToolGone st k n x s t) : ToolGone st k n x s t.replan where
  tool := (tool?_congr (replan_mapAlone t).slitter st k n).trans h.tool
  entries := by
    unfold State.entriesOf
    rw [(replan_mapAlone t).slitter]
    exact h.entries
  untouched := h.untouched.replan

theorem takeToolOut_gone (h : s.tool? st k n = some x) : ToolGone st k n x s (s.takeToolOut st k n x) := by
  have left : (s.toolWithdrawn st k n).tool? st k n = some { x with state := .out, target := none, attempts := 0 } :=
    toolSet_same h _
  have none_ : (s.toolWithdrawn st k n).entriesOf st k n = [] := toolSet_entriesOf s st k n _
  have kept : Untouched s (s.toolWithdrawn st k n) := (Untouched.refl s).toolSet st k n _
  have calm : ToolGone st k n x s (s.toolWithdrawn st k n) := ⟨left, none_, kept⟩
  have again : ToolGone st k n x s ((s.toolWithdrawn st k n).reassignHeld st) :=
    have behind := reassignHeld_out left rfl none_
    ⟨behind.1, behind.2, kept.reassignHeld st⟩
  have begun : ∀ d, ToolGone st k n x s ((s.toolWithdrawn st k n).startSetup st d) := fun d =>
    have behind := startSetup_out left rfl d
    ⟨behind.1, behind.2, kept.startSetup st d⟩
  cases state : (s.station st).state with
  | idle =>
    rw [takeToolOut_calm h (.inl state)]
    exact calm.replan
  | failed =>
    rw [takeToolOut_calm h (.inr (.inl state))]
    exact calm.replan
  | setting =>
    rw [takeToolOut_reassigns h (.inl state)]
    exact again.replan
  | ready =>
    cases assigned : x.assigned with
    | false =>
      rw [takeToolOut_calm h (.inr (.inr ⟨.inl state, assigned⟩))]
      exact calm.replan
    | true =>
      cases demand : (s.station st).demand with
      | none =>
        rw [takeToolOut_reassigns h (.inr ⟨state, assigned, demand⟩)]
        exact again.replan
      | some d =>
        rw [takeToolOut_setsUp h state assigned demand]
        exact (begun d).replan
  | down =>
    cases assigned : x.assigned with
    | false =>
      rw [takeToolOut_calm h (.inr (.inr ⟨.inr state, assigned⟩))]
      exact calm.replan
    | true =>
      have alone := insertExtent_mapAlone (s.toolWithdrawn st k n)
        (.opened (s.knife + s.stationDistance st) .toolLost (.toolLost st))
      rw [takeToolOut_loses h state assigned]
      refine ToolGone.replan ⟨(tool?_congr alone.slitter st k n).trans left, ?_, kept.insertExtent _⟩
      unfold State.entriesOf
      rw [alone.slitter]
      exact none_

/-- Tool Out leaves an IDLE or FAILED station's state, and the map, as they are. -/
theorem takeToolOut_idle (h : s.tool? st k n = some x) (idle : (s.station st).state = .idle ∨ (s.station st).state = .failed) :
    ((s.takeToolOut st k n x).station st).state = (s.station st).state ∧ (s.takeToolOut st k n x).map = s.map := by
  rw [takeToolOut_calm h (idle.imp id .inl)]
  refine ⟨?_, replan_map _⟩
  rw [station_congr (replan_mapAlone _).slitter]
  exact toolSet_state _ _ _ _ _

theorem takeToolOut_opens (h : s.tool? st k n = some x) (down : (s.station st).state = .down) (assigned : x.assigned = true) :
    ((s.takeToolOut st k n x).station st).state = .down ∧
    (s.takeToolOut st k n x).opensClaim .toolLost (.toolLost st) (s.knife + s.stationDistance st) := by
  have alone := insertExtent_mapAlone (s.toolWithdrawn st k n)
    (.opened (s.knife + s.stationDistance st) .toolLost (.toolLost st))
  rw [takeToolOut_loses h down assigned]
  refine ⟨?_, ?_⟩
  · rw [station_congr (replan_mapAlone _).slitter, station_congr alone.slitter]
    exact (toolSet_state _ _ _ _ _).trans down
  · unfold State.opensClaim
    rw [replan_map]
    exact insertExtent_opened _ _ _ _

/-! ### Tool In (R141) -/

/-- A tool returned to service, with nothing measured. -/
def State.toolReturned (s : State) (st : Station) (k : ToolKind) (n : Nat) : State :=
  s.modifyTool st k n fun _ => {}

theorem toolReturned_station (s : State) (st : Station) (k : ToolKind) (n : Nat) :
    (s.toolReturned st k n).station st = { s.station st with
      slits := ((s.toolReturned st k n).station st).slits, scores := ((s.toolReturned st k n).station st).scores } :=
  station_modifyTool_fields s st k n _

theorem toolReturned_state (s : State) (st : Station) (k : ToolKind) (n : Nat) :
    ((s.toolReturned st k n).station st).state = (s.station st).state := by rw [toolReturned_station]

theorem toolReturned_demand (s : State) (st : Station) (k : ToolKind) (n : Nat) :
    ((s.toolReturned st k n).station st).demand = (s.station st).demand := by rw [toolReturned_station]

/-- A FAILED station made IDLE, one of another state as it is. -/
def State.stationRecovered (s : State) (st : Station) : State :=
  if (s.station st).state = .failed then s.setStation st { s.station st with state := .idle } else s

theorem stationRecovered_stateAlone (s : State) (st : Station) : StateAlone st s (s.stationRecovered st) := by
  unfold State.stationRecovered
  split
  · exact ⟨.idle, (s.station st).current, (s.station st).late, rfl⟩
  · exact .refl st s

theorem stationRecovered_state (s : State) (st : Station) : ((s.stationRecovered st).station st).state =
    if (s.station st).state = .failed then .idle else (s.station st).state := by
  unfold State.stationRecovered
  split
  · rw [State.station_setStation]
  · rfl

theorem stationRecovered_map (s : State) (st : Station) : (s.stationRecovered st).map = s.map := by
  unfold State.stationRecovered
  split <;> rfl

theorem Untouched.stationRecovered (h : Untouched s t) (st : Station) : Untouched s (t.stationRecovered st) := by
  unfold State.stationRecovered
  split
  · exact h.setStation _ _
  · exact h

theorem takeToolIn_eq (s : State) (st : Station) (k : ToolKind) (n : Nat) : s.takeToolIn st k n =
    (if (s.station st).state == .failed then
      if (s.station st).demand.isSome then (s.toolReturned st k n).setupForDemand st
      else (s.toolReturned st k n).setStation st { (s.toolReturned st k n).station st with state := .idle }
    else s.toolReturned st k n).replan := by
  rw [← toolReturned_state s st k n, ← toolReturned_demand s st k n]
  rfl

/-- A FAILED station without a demand recovers; one of another state stays. -/
theorem takeToolIn_calm (calm : (s.station st).state ≠ .failed ∨ (s.station st).demand = none) :
    s.takeToolIn st k n = ((s.toolReturned st k n).stationRecovered st).replan := by
  unfold State.stationRecovered
  rw [takeToolIn_eq, toolReturned_state]
  by_cases failed : (s.station st).state = .failed
  · rw [calm.resolve_left (not_not_intro failed), failed]
    rfl
  · rw [if_neg (by simpa using failed), if_neg failed]

/-- A FAILED station with a demand begins its setup. -/
theorem takeToolIn_setsUp (failed : (s.station st).state = .failed) (demand : (s.station st).demand = some d) :
    s.takeToolIn st k n = ((s.toolReturned st k n).startSetup st d).replan := by
  have held : (s.toolReturned st k n).setupForDemand st = (s.toolReturned st k n).startSetup st d := by
    unfold State.setupForDemand
    rw [toolReturned_demand, demand]
  rw [takeToolIn_eq, failed, demand, held]
  rfl

theorem takeToolIn_back (h : s.tool? st k n = some x) (calm : (s.station st).state ≠ .failed ∨ (s.station st).demand = none) :
    (s.takeToolIn st k n).tool? st k n = some {} ∧ (s.takeToolIn st k n).slitter.moves = s.slitter.moves ∧
    ((s.takeToolIn st k n).station st).state =
      (if (s.station st).state = .failed then .idle else (s.station st).state) ∧
    (s.takeToolIn st k n).map = s.map := by
  have alone := stationRecovered_stateAlone (s.toolReturned st k n) st
  have same := (replan_mapAlone ((s.toolReturned st k n).stationRecovered st)).slitter
  rw [takeToolIn_calm calm, tool?_congr same, alone.tool?, same, alone.moves, station_congr same, stationRecovered_state,
    toolReturned_state, replan_map, stationRecovered_map]
  exact ⟨tool?_modifyTool_same h _, rfl, rfl, rfl⟩

theorem takeToolIn_begins (failed : (s.station st).state = .failed) (demand : (s.station st).demand = some d) :
    ((s.takeToolIn st k n).station st).layout = some d.layout ∧ ((s.takeToolIn st k n).station st).order = some d.order := by
  obtain ⟨-, layout, order, -⟩ := startSetup_frame (s.toolReturned st k n) st d
  rw [takeToolIn_setsUp failed demand, station_congr (replan_mapAlone _).slitter]
  exact ⟨layout, order⟩

theorem Untouched.takeToolIn (h : Untouched s t) (st : Station) (k : ToolKind) (n : Nat) : Untouched s (t.takeToolIn st k n) := by
  have back : Untouched s (t.toolReturned st k n) := h.modifyTool _ _ _ _
  cases demand : (t.station st).demand with
  | none =>
    rw [takeToolIn_calm (.inr demand)]
    exact (back.stationRecovered st).replan
  | some d =>
    by_cases failed : (t.station st).state = .failed
    · rw [takeToolIn_setsUp failed demand]
      exact (back.startSetup st d).replan
    · rw [takeToolIn_calm (.inl failed)]
      exact (back.stationRecovered st).replan

/-! ### The requests -/

theorem withFrame_knife (s : State) (p : Port) (f : Frame) : (s.withFrame p f).knife = s.knife := rfl

theorem withFrame_stationDistance (s : State) (p : Port) (f : Frame) (st : Station) :
    (s.withFrame p f).stationDistance st = s.stationDistance st := by cases st <;> rfl

theorem exec_toolOut (heard : Heard s p 0x25) (named : s.Names sc kc n st k x) (inUse : x.state ≠ .out) :
    exec (.toolOut p tag sc kc n) s = .next ((s.withFrame p (doneFrame 0x25 tag [])).takeToolOut st k n x).settled :=
  exec_ok (i := .toolOut p tag sc kc n) (f := fun s => s.takeToolOut st k n x) rfl heard
    ((toolOutVerdict_named named).trans (if_neg inUse))

theorem exec_toolIn (heard : Heard s p 0x26) (named : s.Names sc kc n st k x) (out : x.state = .out) :
    exec (.toolIn p tag sc kc n) s = .next ((s.withFrame p (doneFrame 0x26 tag [])).takeToolIn st k n).settled :=
  exec_ok (i := .toolIn p tag sc kc n) (f := fun s => s.takeToolIn st k n) rfl heard
    ((toolInVerdict_named named).trans (if_pos out))

theorem toolService_rule : Rule.ToolService := by
  intro p tag sc kc n s
  refine ⟨fun heard => ⟨fun unnamed quiet => exec_refused .range rfl quiet heard (toolOutVerdict_range unnamed),
      fun st k x named out quiet => exec_refused .state rfl quiet heard ((toolOutVerdict_named named).trans (if_pos out)),
      fun st k x named inUse => ⟨_, exec_toolOut heard named inUse, ?_⟩⟩,
    fun heard => ⟨fun unnamed quiet => exec_refused .range rfl quiet heard (toolInVerdict_range unnamed),
      fun st k x named inUse quiet => exec_refused .state rfl quiet heard ((toolInVerdict_named named).trans (if_neg inUse)),
      fun st k x named out => ⟨fun calm => ⟨_, exec_toolIn heard named out, ?_⟩,
        fun d failed demand => ⟨_, exec_toolIn heard named out, ?_⟩⟩⟩⟩
  · have tool : (s.withFrame p (doneFrame 0x25 tag [])).tool? st k n = some x := named.2.2.2.2
    have gone := takeToolOut_gone tool
    have opened := takeToolOut_opens tool
    have idle := takeToolOut_idle tool
    rw [withFrame_knife, withFrame_stationDistance] at opened
    exact ⟨joinedBy_of_untouched gone.untouched.ports, gone.tool, (entriesOf_nil_iff _ st k n).mp gone.entries, opened, idle,
      fun setting => takeToolOut_reassigns tool (.inl setting),
      fun ready free => takeToolOut_calm tool (.inr (.inr ⟨.inl ready, free⟩)),
      fun ready assigned => ⟨fun none_ => takeToolOut_reassigns tool (.inr ⟨ready, assigned, none_⟩),
        fun d demand => takeToolOut_setsUp tool ready assigned demand⟩⟩
  · have tool : (s.withFrame p (doneFrame 0x26 tag [])).tool? st k n = some x := named.2.2.2.2
    have back := takeToolIn_back tool calm
    exact ⟨joinedBy_of_untouched ((Untouched.refl _).takeToolIn st k n).ports, back⟩
  · have begins := takeToolIn_begins (s := s.withFrame p (doneFrame 0x26 tag [])) (k := k) (n := n) failed demand
    exact ⟨joinedBy_of_untouched ((Untouched.refl _).takeToolIn st k n).ports, begins⟩

/-- Settles O46. -/
theorem toolsLeaveAndReturnToService : Obligations.ToolsLeaveAndReturnToService :=
  ⟨toolService_rule, reassignment_rule, demandSet_rule, demandChange_rule, setupStart_rule, swapTakenLate_rule,
    swapSettled_rule, swapLapse_rule⟩

end Sys2Proof.Machine
end
